-- ==== Sys2Proof/Word.lean ====
section
/-! DEFINITION. Word types of the model: bytes, words, and keyed lists. -/

namespace Sys2Proof

abbrev Byte := BitVec 8
abbrev W32 := BitVec 32
abbrev W64 := BitVec 64

/-- One 128-byte line of coherent memory; the byte at offset `i` is bits `[8i + 7 : 8i]` (R9). -/
abbrev Line := BitVec 1024

/-- Sparse data by key, keys strictly rising. A key that is not listed reads as the owner's stated default. -/
abbrev AMap (α : Type) := List (Nat × α)

end Sys2Proof
end

