-- ==== Sys2Proof/Syntax.lean ====
section
/-! DEFINITION. The commands of the block: one constructor of `Instr` per row of the opcode table. A command is an
outside request, or a step of the device's own (a tick, a message arriving, a unit finishing), which its sender brings
about. Operand types bound every unit number, so that a command names only units that exist. -/

namespace Sys2Proof

/-- Who makes a register access (R601, R603, R606). -/
inductive Requester where
  | tarle
  | hart (h : Fin 32)
  | host
  | core (t : Fin 256)
  deriving DecidableEq, Repr

/-- The four engines of a tile, in the order of R123 and R128. -/
inductive Engine where
  | load | matrix | vector | store
  deriving DecidableEq, Repr

/-- Access sizes of RISC-V loads and stores. -/
inductive MemSize where
  | b | h | w | d
  deriving DecidableEq, Repr

inductive AmoOp where
  | swap | add | xor | and | or | min | max | minu | maxu
  deriving DecidableEq, Repr

/-- What the word of an atomic instruction says beside its operation and registers: the width, 8 bytes if `double` and else 4, and the
acquire and release bits, aq above rl. -/
structure AtomicForm where
  double : Bool
  aqrl : BitVec 2
  deriving DecidableEq, Repr

/-- One group of a kernel: logical tile, block number, group within the block (R313). -/
structure GroupRef where
  tile : Fin 256
  block : BitVec 31
  group : Fin 32
  deriving DecidableEq, Repr

/-- The kind of ring a ring row names: completion ring or fault ring (R106, R389). -/
inductive RingRef where
  | completion (r : Fin 4096)
  | fault (f : Fin 64)
  deriving DecidableEq, Repr

/-- Message kinds of Table 11.4. `reserved` is any other virtual channel and opcode (R351, R364). -/
inductive MsgKind where
  | rdS | rdM | upg | rdCur | wrFull | wrPart | wbM | wbO | evE | chk
  | snpS | snpM | snpI | snpC
  | snpRsp | compAck | gntM | cmp | relAck | deny | pErr | crdRet
  | data | wbData
  /-- An opcode that Table 11.4 reserves, on its virtual channel (R351). -/
  | reserved (vc : Fin 4) (opc : Fin 16)
  deriving DecidableEq, Repr

/-- State granted or kept, field ST of Table 11.3; in a PErr the opcode of the offending header (R364). Values 5 to 7 are reserved as
states. -/
inductive LineSt where
  | i | s | e | o | m
  | reserved (n : Fin 3)
  deriving DecidableEq, Repr

/-- A coherence message: the header of Table 11.3 with the line and byte mask that Data and WbData carry (R350). -/
structure Msg where
  kind : MsgKind
  src : BitVec 6
  dst : BitVec 6
  txn : BitVec 12
  fwd : BitVec 6 := 0
  st : LineSt := .i
  wb : Bool := false
  xb : Bool := false
  unc : Bool := false
  /-- ADDR: physical address bits [51:7]. -/
  line : BitVec 45
  ctx : BitVec 16 := 0
  ftxn : BitVec 12 := 0
  data : Line := 0
  mask : BitVec 128 := 0
  deriving DecidableEq, Repr

/-- Where a Tarle request comes from (R567, R569). -/
inductive TarleSource where
  | mailbox1 | mailbox2
  | letter
  deriving DecidableEq, Repr

/-- The errors of a stored line (R330 to R332): in an HBM stack, the 16-bit symbols of each 64-byte half that are wrong after on-die ECC;
in a GDDR-7 device, how often a read fails its EDC check, where 5 is the read and every retry; and the on-die ECC's reports. -/
structure LineErrors where
  half0 : Fin 4 := 0
  half1 : Fin 4 := 0
  edc : Fin 6 := 0
  fixed : Bool := false
  lost : Bool := false
  deriving DecidableEq, Repr

/-- A service slot of a channel: the pseudo-channel whose queue it serves, and the stored lines of the device whose errors have changed
since the last slot, with the errors of each (R327, R330; Log 121). -/
structure ServiceSlot where
  pch : Fin 64
  errors : List (BitVec 45 × LineErrors)
  deriving DecidableEq, Repr

/-- How the read of a flash granule ended (R434). -/
inductive FlashOutcome where
  | decoded (retries : Fin 4)
  | rebuilt
  | uncorrectable
  deriving DecidableEq, Repr

/-- Units that a targeted self-test or a start test can find failed (Tables 15.4 and 20.2). -/
inductive UnitRef where
  | column (die : Fin 8) (tile : Fin 36) (row : Fin 128) (column : Fin 130)
  | lane (die : Fin 8) (tile : Fin 36) (lane : Fin 132)
  | tile (die : Fin 8) (tile : Fin 36)
  | core (core : Fin 36)
  | bondGroup (die : Fin 8) (tile : Fin 36) (group : Fin 784)
  | routerGroup (die : Fin 8) (cluster : Fin 9) (group : Fin 48)
  | wire (direction : Fin 16) (bundle : Fin 32) (wire : Fin 36)
  | bundle (direction : Fin 16) (bundle : Fin 32)
  | router (die : Fin 8) (cluster : Fin 9)
  deriving DecidableEq, Repr

/-- The readings that a beat of the hub power controller takes (R500, R510, R511, R328). -/
structure BeatReadings where
  /-- Readings in °C of the sensors of compute dies 0–7, one a cluster, and of base dies 0–3 and the hub, one a quarter, in that order. -/
  sensors : List (List Int)
  /-- Readings in °C of the HBM stacks 0–7 and GDDR-7 channels 0–15. -/
  memories : List Int
  /-- Readings in °C of the flash channels 0–31 (Table 14.4). -/
  flash : List Int := []
  /-- Telemetry of rails 0–15 for the beat, in mW. -/
  telemetry : List Nat
  /-- Measured input power, in mW, and input voltage, in 0.1 V. -/
  inputPower : Nat
  inputVolts : Nat
  /-- Units that errors of Table 15.4 have named since the last beat (R457), and bond groups to which corrections of scratchpad words were
  traced, one entry a correction (R147, R453). -/
  errors : List UnitRef := []
  /-- Words of scratchpads in which two bits have been found wrong: logical tile and number of the 64-bit word (R147; Log 57). -/
  spoilt : List (Fin 256 × Fin (2 ^ 20)) := []
  /-- Lines whose copy at an agent, or in the home portion of a home, can no longer be corrected: agent number and line (R363; Log 124). -/
  badCopies : List (BitVec 6 × BitVec 45) := []
  corrections : List UnitRef := []
  /-- Messages that retired units have emitted since the last beat, each with its bytes (R463; Log 131). -/
  fenced : List (UnitRef × BitVec 32) := []
  deriving DecidableEq, Repr

/-- The hottest reading of each die. -/
def BeatReadings.dies (r : BeatReadings) : List Int := r.sensors.map fun l => l.foldl max (l.headD 0)

/-- The commands of the block. -/
inductive Instr where
  /- Node time and rounds (chapter 2). Register writes carry their requester and the value written. -/
  | ntStepForward (by_ : Requester) (d : W64)
  | ntStepBackward (by_ : Requester) (d : W64)
  | holdEnd
  | ppsEdge (rising : Bool)
  | ppsCorrectionEnd
  | ntAlarmWrite (by_ : Requester) (v : W64)
  | timeAlarm
  | roundsEnable (by_ : Requester) (v : W32)
  | roundsDisable (by_ : Requester) (v : W32)
  | collectionTick
  | scratchpadClearEnd (t : Fin 256)
  | beatStart (r : BeatReadings)
  | lateDebit (q : Fin 16384) (seq : W32)
  /- The sorter (chapter 3). -/
  | doorbell (by_ : Requester) (q : Fin 16384) (v : W32)
  | queueSelect
  | descriptorFetchComplete (q : Fin 16384)
  | orderedDelivery (q : Fin 16384) (seq : W32)
  | deliveryPacket (t : Fin 256) (q : Fin 16384) (seq : W32)
  | tileReport (t : Fin 256)
  | completionRecordWrite (r : Fin 4096)
  | headCountReread (r : RingRef)
  | descNop (q : Fin 16384) (seq : W32)
  | qopen (q : Fin 16384) (seq : W32)
  | qclose (q : Fin 16384) (seq : W32)
  | qcloseComplete (q : Fin 16384) (seq : W32)
  | qresume (q : Fin 16384) (seq : W32)
  | cropen (q : Fin 16384) (seq : W32)
  | crclose (q : Fin 16384) (seq : W32)
  | crcloseComplete (q : Fin 16384) (seq : W32)
  | tsdefine (q : Fin 16384) (seq : W32)
  | tsclear (q : Fin 16384) (seq : W32)
  | ctxopen (q : Fin 16384) (seq : W32)
  | ctxclose (q : Fin 16384) (seq : W32)
  | segset (q : Fin 16384) (seq : W32)
  | segsetComplete (q : Fin 16384) (seq : W32)
  | ownset (q : Fin 16384) (seq : W32)
  | ownsetComplete (q : Fin 16384) (seq : W32)
  | shareset (q : Fin 16384) (seq : W32)
  | tlbinv (q : Fin 16384) (seq : W32)
  | tlbinvComplete (q : Fin 16384) (seq : W32)
  | fropen (q : Fin 16384) (seq : W32)
  | frclose (q : Fin 16384) (seq : W32)
  | quotaSet (q : Fin 16384) (seq : W32)
  | quotaQuery (q : Fin 16384) (seq : W32)
  /- Tile work: the part at the head of a tile's delivery slots. -/
  | launch (t : Fin 256)
  | kernel (t : Fin 256)
  | gemm (t : Fin 256)
  | ggemm (t : Fin 256)
  | chain (t : Fin 256)
  | ledgerHomeFold (t : Fin 256) (strip : Nat)
  | closingPass (t : Fin 256) (strip : Nat)
  /- Parcel moves, copies and sorting: the descriptor that a mover, or the merge network, executes. -/
  | linear (mover : Fin 32)
  | pack (mover : Fin 32)
  | unpack (mover : Fin 32)
  | trim (mover : Fin 32)
  | copy (mover : Fin 32)
  | fill (mover : Fin 32)
  | moveComplete (mover : Fin 32)
  | sort
  | merge
  | topk
  | sortingModeComplete
  | fence (q : Fin 16384) (seq : W32)
  | fenceComplete (q : Fin 16384) (seq : W32)
  | waitround (q : Fin 16384) (seq : W32)
  | waittoken (q : Fin 16384) (seq : W32)
  | waittokenTimeout (q : Fin 16384) (seq : W32)
  | tokenWaitSatisfied (t : Fin 256) (c : Fin 32)
  /- Control-core instructions (chapter 4); registers by number. -/
  | tpush (t : Fin 256) (e : Engine) (rd rs1 rs2 : BitVec 5)
  | tqfree (t : Fin 256) (e : Engine) (rd : BitVec 5)
  | tqidle (t : Fin 256) (rd : BitVec 5)
  | tsum (t : Fin 256) (rd : BitVec 5)
  | tsumcnt (t : Fin 256) (rd : BitVec 5)
  | tklaunch (t : Fin 256) (rd rs1 : BitVec 5)
  | tklaunchEnd (t : Fin 256)
  | tend (t : Fin 256)
  | tendComplete (t : Fin 256)
  | tpost (t : Fin 256) (rs1 : BitVec 5) (c : Fin 32) (release : Bool)
  | ttake (t : Fin 256) (rd rs1 : BitVec 5) (c : Fin 32)
  | ttest (t : Fin 256) (rd rs1 : BitVec 5) (c : Fin 32)
  | tread (t : Fin 256) (rd : BitVec 5) (c : Fin 32)
  | tsetc (t : Fin 256) (rs1 : BitVec 5) (c : Fin 32)
  | tokenPost (from_ : Fin 256) (c : Fin 32)
  | controlCoreLoad (t : Fin 256) (rd rs1 : BitVec 5) (imm : BitVec 12) (size : MemSize) (unsigned float : Bool)
  | controlCoreStore (t : Fin 256) (rs1 rs2 : BitVec 5) (imm : BitVec 12) (size : MemSize) (float : Bool)
  | controlCoreAmo (t : Fin 256) (op : AmoOp) (rd rs1 rs2 : BitVec 5) (form : AtomicForm)
  | controlCoreLr (t : Fin 256) (rd rs1 : BitVec 5) (form : AtomicForm)
  | controlCoreSc (t : Fin 256) (rd rs1 rs2 : BitVec 5) (form : AtomicForm)
  | controlCoreFence (t : Fin 256) (pred succ : BitVec 4)
  | fenceI (t : Fin 256)
  | ecall (t : Fin 256) (g : Option (BitVec 31 × Fin 32))
  | ebreak (t : Fin 256) (g : Option (BitVec 31 × Fin 32))
  | pocketFillArrival (t : Fin 256)
  | mergeEntryDrain (t : Fin 256)
  | pocketInvalidation (t : Fin 256) (line : BitVec 45)
  | resetDrainEnd (t : Fin 256)
  | tileResetComplete (t : Fin 256)
  | watchdogExpiry (t : Fin 256)
  /- Engine commands at the head of an engine's queue. -/
  | engineNop (t : Fin 256) (e : Engine)
  | ldSetar (t : Fin 256)
  | ldSetsr (t : Fin 256)
  | ld2d (t : Fin 256)
  | ldZero (t : Fin 256)
  | stSetar (t : Fin 256)
  | stSetsr (t : Fin 256)
  | st2d (t : Fin 256)
  | commandComplete (t : Fin 256) (e : Engine)
  | mxSetm (t : Fin 256)
  | mxSetp (t : Fin 256)
  | mxMma (t : Fin 256)
  | mxExp (t : Fin 256)
  | outTrayEntry (t : Fin 256)
  | veLoadp (t : Fin 256)
  | veSetin (t : Fin 256)
  | veRun (t : Fin 256)
  | veRunEnd (t : Fin 256)
  /- Thread groups (chapter 9): one instruction issued by a group. -/
  | blockStart (t : Fin 256)
  | shflIdx (g : GroupRef) (rd rs1 rs2 : BitVec 5)
  | shflUp (g : GroupRef) (rd rs1 rs2 : BitVec 5)
  | shflDown (g : GroupRef) (rd rs1 rs2 : BitVec 5)
  | shflXor (g : GroupRef) (rd rs1 rs2 : BitVec 5)
  | voteAny (g : GroupRef) (rd rs1 : BitVec 5)
  | voteAll (g : GroupRef) (rd rs1 : BitVec 5)
  | voteBallot (g : GroupRef) (rd rs1 : BitVec 5)
  | voteActive (g : GroupRef) (rd : BitVec 5)
  | bar (g : GroupRef) (b : Fin 16)
  | gsync (g : GroupRef) (rs1 : BitVec 5)
  | getid (g : GroupRef) (rd : BitVec 5) (f : Fin 8)
  | exit (g : GroupRef)
  | srnd (g : GroupRef) (rd rs1 : BitVec 5) (format : BitVec 5) (double : Bool) (n : BitVec 5)
  | tgpost (g : GroupRef) (rs1 : BitVec 5) (c : Fin 32) (release : Bool)
  | threadLoad (g : GroupRef) (rd rs1 : BitVec 5) (imm : BitVec 12) (size : MemSize) (unsigned : Bool)
  | threadStore (g : GroupRef) (rs1 rs2 : BitVec 5) (imm : BitVec 12) (size : MemSize)
  | threadAmo (g : GroupRef) (op : AmoOp) (rd rs1 rs2 : BitVec 5) (form : AtomicForm)
  | threadLr (g : GroupRef) (rd rs1 : BitVec 5) (form : AtomicForm)
  | threadSc (g : GroupRef) (rd rs1 rs2 : BitVec 5) (form : AtomicForm)
  | threadFence (g : GroupRef) (pred succ : BitVec 4)
  | barrierWatchdog (t : Fin 256)
  | kernelPartEnd (t : Fin 256)
  /- Memories (chapter 10). -/
  | memoryRequestService (d : Fin 24) (slot : ServiceSlot)
  | refresh (d : Fin 24)
  | scrubWriteBack (d : Fin 24) (line : BitVec 45)
  | memLockSet (by_ : Requester) (v : W32)
  | gddr7TrainingDone (ch : Fin 16)
  /- Coherence protocol (chapter 11): a message arrives at its destination. -/
  | rds (m : Msg)
  | rdm (m : Msg)
  | upg (m : Msg)
  | rdcur (m : Msg)
  | wrfull (m : Msg)
  | wrpart (m : Msg)
  | wbm (m : Msg)
  | wbo (m : Msg)
  | eve (m : Msg)
  | chk (m : Msg)
  | homeRequestDequeue (home : Fin 5) (line : BitVec 45)
  | snps (m : Msg)
  | snpm (m : Msg)
  | snpi (m : Msg)
  | snpc (m : Msg)
  | snprsp (m : Msg)
  | compack (m : Msg)
  | gntm (m : Msg)
  | cmp (m : Msg)
  | relack (m : Msg)
  | deny (m : Msg)
  | perr (m : Msg)
  | crdret (m : Msg)
  | data (m : Msg)
  | wbdata (m : Msg)
  /- Faults (chapter 12) and access timeouts (chapter 13). -/
  | faultRecordWrite (f : Fin 64)
  | faultResumeReplay (by_ : Requester) (f : Fin 64) (v : W64)
  | faultResumeFail (by_ : Requester) (f : Fin 64) (v : W64)
  | faultTimeout (q : Fin 16384) (seq : W32)
  | accessTimerTest
  | fenceNotice (t : Fin 256)
  /- Flash tier (chapter 14). -/
  | flashGranuleRead (mover : Fin 32) (outcome : FlashOutcome)
  | flashGranuleWrite (mover : Fin 32)
  | flashReclaim (ch : Fin 32) (blocks : List Nat)
  | readDisturbRelocation (ch : Fin 32) (block : Nat)
  | flashChannelFailure (ch : Fin 32)
  | mapCheckpoint
  | flashMapRestoreDone
  /- Links, repair, guest die (chapter 15). -/
  | flitReceive (direction : Fin 16) (flit : BitVec 2048)
  | recalibrationEnd (link : Fin 8) (failed : List UnitRef)
  | selfTestEnd (unit : UnitRef) (failed : List UnitRef)
  | nodeCoreMachineCheck (h : Fin 32)
  | guestRead (hdr : BitVec 128)
  | guestWrite (hdr : BitVec 128) (bytes : List Byte)
  | guestMaskedWrite (hdr : BitVec 128) (bytes : List Byte) (mask : BitVec 128)
  | allowanceRefill
  | ucieLinkDown
  /- Event controller (chapter 16). -/
  | eventSignal (n : BitVec 10)
  | sourceAssert (n : BitVec 10)
  | msixPbaSend (v : Fin 256)
  | ecClaim (by_ : Requester) (t : Fin 321)
  | ecComplete (by_ : Requester) (t : Fin 321) (v : W32)
  | ecPend (by_ : Requester) (v : W32)
  | ecMask (by_ : Requester) (v : W32)
  | ecUnmask (by_ : Requester) (v : W32)
  | ecPendSet (by_ : Requester) (w : Fin 32) (v : W32)
  | ecPendClr (by_ : Requester) (w : Fin 32) (v : W32)
  | ecMaskSet (by_ : Requester) (w : Fin 32) (v : W32)
  | ecMaskClr (by_ : Requester) (w : Fin 32) (v : W32)
  /- Power (chapter 17). -/
  | railSample (r : Fin 16) (counts : List Nat) (temp : Int)
  | droopDetect (r : Fin 16) (domain : Fin 16)
  | droopRecover (r : Fin 16) (domain : Fin 16)
  | supplyWarning
  | supplyRecovery
  | supplyLoss
  | dozeEntry (t : Fin 256)
  | powerStateEntry
  | powerEntryAbandon
  | wakeComplete
  /- Host port, outbound ports, tray chain (chapter 18). -/
  | bar4Read (offset : BitVec 28) (len : BitVec 13)
  | bar4Write (offset : BitVec 28) (bytes : List Byte)
  | hostLinkDown
  | hostLinkUp
  | hostPerst
  | attach (by_ : Requester) (v : W32)
  | attachComplete
  | rootPortInboundRequest (p : Fin 4) (pasid : Option (BitVec 20)) (write : Bool) (address : W64) (len : BitVec 13) (bytes : List Byte)
  | rootPortLinkChange (p : Fin 4) (rate : BitVec 4) (width : BitVec 3)
  | ideIntegrityFailure (port : Fin 5) (stream : Fin 4)
  | wakeLetter (bytes : List Byte)
  | bootDataLetter (bytes : List Byte)
  | letterForward (bytes : List Byte)
  | bypassClose
  | bypassOpen
  /- Tarle (chapter 19). -/
  | status (src : TarleSource)
  | evidence (src : TarleSource)
  | extend (src : TarleSource)
  | setcap (src : TarleSource)
  | power (src : TarleSource)
  | sealnonce (src : TarleSource)
  | seal (src : TarleSource)
  | dbgkey (src : TarleSource)
  | dbgnonce (src : TarleSource)
  | dbgopen (src : TarleSource)
  | halt (src : TarleSource)
  | debugRead (src : TarleSource)
  | debugWrite (src : TarleSource)
  | step (src : TarleSource)
  | resume (src : TarleSource)
  | dbgclose (src : TarleSource)
  | debugSessionExpiry (handle : Fin 8)
  | portkey (src : TarleSource)
  | getVersion (request : List Byte)
  | getCapabilities (request : List Byte)
  | negotiateAlgorithms (request : List Byte)
  | getDigests (request : List Byte)
  | getCertificate (request : List Byte)
  | challenge (request : List Byte)
  | getMeasurements (request : List Byte)
  | keyExchange (request : List Byte)
  | finish (session : Fin 4) (request : List Byte)
  | keyUpdate (session : Fin 4) (request : List Byte)
  | heartbeat (session : Fin 4) (request : List Byte)
  | endSession (session : Fin 4) (request : List Byte)
  | tarleWatchdogExpiry
  | tamper
  /- Start-up, resets, stops (chapters 20 and 23). -/
  | mateAssert
  | mateRelease
  | powerOnStart
  | recordDelivery (by_ : Requester) (v : W32)
  | bundleDelivery (by_ : Requester) (v : W32)
  | recordFetchComplete
  | startSelfTestDone (failed : List UnitRef) (hbmFailed : Bool) (temps : List Int)
  | bundleFetchComplete
  | moduleReset (by_ : Requester) (v : W32)
  | deviceWarmReset (by_ : Requester) (v : W32)
  | tarleOnlyReset (by_ : Requester) (v : W32)
  | tarleResetComplete
  | fullMaintenanceStop (by_ : Requester) (v : W32)
  | powerOff (by_ : Requester) (v : W32)
  | stopDrainEnd
  | stopLimitExpiry
  /- Node cores and register access (chapters 12, 13 and 22). -/
  | mflsctxWrite (h : Fin 32) (machineMode : Bool) (v : W64)
  | lowWordRead (by_ : Requester) (offset : BitVec 25)
  | highWordRead (by_ : Requester) (offset : BitVec 25)
  | registerWrite (by_ : Requester) (offset : BitVec 25) (wide : Bool) (v : W64)
  | nodeCoreLoad (h : Fin 32) (rd : BitVec 5) (address : BitVec 52) (pbmt : BitVec 2) (size : MemSize)
  | nodeCoreStore (h : Fin 32) (address : BitVec 52) (pbmt : BitVec 2) (size : MemSize) (v : W64)
  | nodeCoreAmo (h : Fin 32) (op : AmoOp) (rd : BitVec 5) (address : BitVec 52) (pbmt : BitVec 2) (form : AtomicForm) (v : W64)
  | nodeCoreLr (h : Fin 32) (rd : BitVec 5) (address : BitVec 52) (pbmt : BitVec 2) (form : AtomicForm)
  | nodeCoreSc (h : Fin 32) (rd : BitVec 5) (address : BitVec 52) (pbmt : BitVec 2) (form : AtomicForm) (v : W64)
  | nodeCoreFence (h : Fin 32) (pred succ : BitVec 4)
  | pcieCompletionArrival (access : Nat) (bytes : List Byte)
  | badLetter (bytes : List Byte)
  | refusedRegisterRead (by_ : Requester) (offset : BitVec 25) (size : Nat)
  | ucieLinkUp
  | malformedGuestMessage (hdr : BitVec 128)
  | wearLevelling (ch : Fin 32) (block : Nat)
  | channelRewritten (ch : Fin 32)
  | hostPortError
  | hostPerstRelease
  | ideKm (port : Fin 5) (stream : Fin 4) (session : Fin 4) (request : List Byte)
  deriving DecidableEq, Repr

end Sys2Proof
end

