-- ==== Sys2Proof/WellFormed.lean ====
section
/-! DEFINITION. Well-formed commands: what the operand types do not bound already. An ill-formed command names a reading, a request or
a letter that the hardware cannot see. `exec` gives every command a meaning; its statements take well-formedness as a premise only
where they need it. -/

namespace Sys2Proof

/-- The readings of a beat are complete: the sensors of 13 dies, 24 memories, 16 rails (R500, R510). -/
def BeatReadings.wf (r : BeatReadings) : Bool :=
  r.sensors.map List.length == [9, 9, 9, 9, 9, 9, 9, 9, 4, 4, 4, 4, 4] && r.memories.length == 24 && r.telemetry.length == 16

/-- Lengths that the links carry: PCIe requests of at most 4,096 bytes (Table 18.1), guest messages of at most 128 (Table 15.6), letters
of at most 256 (R536); sixteen event counts of a rail sample (Table 17.2); the rates and widths of a link (Table 18.7). -/
def Instr.wf : Instr → Bool
  | .beatStart r => r.wf
  | .railSample _ counts _ => counts.length == 16
  | .bar4Read _ len => decide (len.toNat ≤ 4096)
  | .bar4Write _ bytes => decide (bytes.length ≤ 4096)
  | .rootPortInboundRequest _ _ write _ len bytes => decide (len.toNat ≤ 4096) && decide (bytes.length ≤ 4096) && (write || bytes.isEmpty)
  | .guestWrite _ bytes => decide (bytes.length ≤ 128)
  | .guestMaskedWrite _ bytes _ => decide (bytes.length ≤ 128)
  | .pcieCompletionArrival _ bytes => decide (bytes.length ≤ 4096)
  | .wakeLetter bytes => decide (bytes.length ≤ 256)
  | .bootDataLetter bytes => decide (bytes.length ≤ 256)
  | .letterForward bytes => decide (bytes.length ≤ 256)
  | .badLetter bytes => decide (bytes.length ≤ 256)
  | .startSelfTestDone _ _ temps => temps.length == 13
  | .rootPortLinkChange _ rate width => decide (rate.toNat ≤ 7) && decide (width.toNat ≤ 5)
  | .refusedRegisterRead _ _ size => decide (size ≤ 4096)
  | .ledgerHomeFold _ strip => decide (strip < 65536)
  | .closingPass _ strip => decide (strip < 65536)
  | .ntStepForward _ _ | .ntStepBackward _ _ | .holdEnd | .ppsEdge _ | .ppsCorrectionEnd | .ntAlarmWrite _ _ | .timeAlarm
  | .roundsEnable _ _ | .roundsDisable _ _ | .collectionTick | .scratchpadClearEnd _ | .lateDebit _ _ | .doorbell _ _ _
  | .queueSelect | .descriptorFetchComplete _ | .orderedDelivery _ _ | .deliveryPacket _ _ _ | .tileReport _
  | .completionRecordWrite _ | .headCountReread _ | .descNop _ _ | .qopen _ _ | .qclose _ _ | .qcloseComplete _ _
  | .qresume _ _ | .cropen _ _ | .crclose _ _ | .crcloseComplete _ _ | .tsdefine _ _ | .tsclear _ _ | .ctxopen _ _
  | .ctxclose _ _ | .segset _ _ | .segsetComplete _ _ | .ownset _ _ | .ownsetComplete _ _ | .shareset _ _ | .tlbinv _ _
  | .tlbinvComplete _ _ | .fropen _ _ | .frclose _ _ | .quotaSet _ _ | .quotaQuery _ _ | .launch _ | .kernel _ | .gemm _
  | .ggemm _ | .chain _ | .linear _ | .pack _ | .unpack _ | .trim _ | .copy _ | .fill _ | .moveComplete _ | .sort | .merge
  | .topk | .sortingModeComplete | .fence _ _ | .fenceComplete _ _ | .waitround _ _ | .waittoken _ _ | .waittokenTimeout _ _
  | .tokenWaitSatisfied _ _ | .tpush _ _ _ _ _ | .tqfree _ _ _ | .tqidle _ _ | .tsum _ _ | .tsumcnt _ _ | .tklaunch _ _ _
  | .tklaunchEnd _ | .tend _ | .tendComplete _ | .tpost _ _ _ _ | .ttake _ _ _ _ | .ttest _ _ _ _ | .tread _ _ _ | .tsetc _ _ _
  | .tokenPost _ _ | .controlCoreLoad _ _ _ _ _ _ _ | .controlCoreStore _ _ _ _ _ _ | .controlCoreAmo _ _ _ _ _ _
  | .controlCoreLr _ _ _ _ | .controlCoreSc _ _ _ _ _ | .controlCoreFence _ _ _ | .fenceI _ | .ecall _ _ | .ebreak _ _
  | .pocketFillArrival _ | .mergeEntryDrain _ | .pocketInvalidation _ _ | .resetDrainEnd _ | .tileResetComplete _
  | .watchdogExpiry _ | .engineNop _ _ | .ldSetar _ | .ldSetsr _ | .ld2d _ | .ldZero _ | .stSetar _ | .stSetsr _ | .st2d _
  | .commandComplete _ _ | .mxSetm _ | .mxSetp _ | .mxMma _ | .mxExp _ | .outTrayEntry _ | .veLoadp _ | .veSetin _ | .veRun _
  | .veRunEnd _ | .blockStart _ | .shflIdx _ _ _ _ | .shflUp _ _ _ _ | .shflDown _ _ _ _ | .shflXor _ _ _ _ | .voteAny _ _ _
  | .voteAll _ _ _ | .voteBallot _ _ _ | .voteActive _ _ | .bar _ _ | .gsync _ _ | .getid _ _ _ | .exit _ | .srnd _ _ _ _ _ _
  | .tgpost _ _ _ _ | .threadLoad _ _ _ _ _ _ | .threadStore _ _ _ _ _ | .threadAmo _ _ _ _ _ _ | .threadLr _ _ _ _
  | .threadSc _ _ _ _ _ | .threadFence _ _ _ | .barrierWatchdog _ | .kernelPartEnd _ | .memoryRequestService _ _ | .refresh _
  | .scrubWriteBack _ _ | .memLockSet _ _ | .gddr7TrainingDone _ | .rds _ | .rdm _ | .upg _ | .rdcur _ | .wrfull _ | .wrpart _
  | .wbm _ | .wbo _ | .eve _ | .chk _ | .homeRequestDequeue _ _ | .snps _ | .snpm _ | .snpi _ | .snpc _ | .snprsp _
  | .compack _ | .gntm _ | .cmp _ | .relack _ | .deny _ | .perr _ | .crdret _ | .data _ | .wbdata _ | .faultRecordWrite _
  | .faultResumeReplay _ _ _ | .faultResumeFail _ _ _ | .faultTimeout _ _ | .accessTimerTest | .fenceNotice _
  | .flashGranuleRead _ _ | .flashGranuleWrite _ | .flashReclaim _ _ | .readDisturbRelocation _ _ | .flashChannelFailure _
  | .mapCheckpoint | .flashMapRestoreDone | .flitReceive _ _ | .recalibrationEnd _ _ | .selfTestEnd _ _
  | .nodeCoreMachineCheck _ | .guestRead _ | .allowanceRefill | .ucieLinkDown | .eventSignal _ | .sourceAssert _
  | .msixPbaSend _ | .ecClaim _ _ | .ecComplete _ _ _ | .ecPend _ _ | .ecMask _ _ | .ecUnmask _ _ | .ecPendSet _ _ _
  | .ecPendClr _ _ _ | .ecMaskSet _ _ _ | .ecMaskClr _ _ _ | .droopDetect _ _ | .droopRecover _ _ | .supplyWarning
  | .supplyRecovery | .supplyLoss | .dozeEntry _ | .powerStateEntry | .powerEntryAbandon | .wakeComplete | .hostLinkDown
  | .hostLinkUp | .hostPerst | .attach _ _ | .attachComplete | .ideIntegrityFailure _ _ | .bypassClose | .bypassOpen
  | .status _ | .evidence _ | .extend _ | .setcap _ | .power _ | .sealnonce _ | .seal _ | .dbgkey _ | .dbgnonce _ | .dbgopen _
  | .halt _ | .debugRead _ | .debugWrite _ | .step _ | .resume _ | .dbgclose _ | .debugSessionExpiry _ | .portkey _
  | .getVersion _ | .getCapabilities _ | .negotiateAlgorithms _ | .getDigests _ | .getCertificate _ | .challenge _
  | .getMeasurements _ | .keyExchange _ | .finish _ _ | .keyUpdate _ _ | .heartbeat _ _ | .endSession _ _
  | .tarleWatchdogExpiry | .tamper | .mateAssert | .mateRelease | .powerOnStart | .recordDelivery _ _ | .bundleDelivery _ _
  | .recordFetchComplete | .bundleFetchComplete | .moduleReset _ _ | .deviceWarmReset _ _ | .tarleOnlyReset _ _
  | .tarleResetComplete | .fullMaintenanceStop _ _ | .powerOff _ _ | .stopDrainEnd | .stopLimitExpiry | .mflsctxWrite _ _ _
  | .lowWordRead _ _ | .highWordRead _ _ | .registerWrite _ _ _ _ | .nodeCoreLoad _ _ _ _ _ | .nodeCoreStore _ _ _ _ _
  | .nodeCoreAmo _ _ _ _ _ _ _ | .nodeCoreLr _ _ _ _ _ | .nodeCoreSc _ _ _ _ _ _ | .nodeCoreFence _ _ _ | .ucieLinkUp
  | .malformedGuestMessage _ | .wearLevelling _ _ | .channelRewritten _ | .hostPortError | .hostPerstRelease | .ideKm _ _ _ _ => true

end Sys2Proof
end

