-- ==== Sys2Proof/Config.lean ====
section
/-! DEFINITION. Values the manual leaves open: constants without a body, so that no proof can see a value.
Each is named in the assumption log. -/

namespace Sys2Proof

/-- The `n`-th fresh free value (a result that the manual leaves undefined). Log 3. -/
opaque Config.freeValue : Nat → W64

/-- What a byte of Tier 1, or of a scratchpad, reads as when its contents are lost or were never written:
`epoch` counts the losses, `a` is the address (R585 code D; R148 before the first clear). Log 4. -/
opaque Config.lostByte : (epoch a : Nat) → Byte

/-- SM3 digest of GB/T 32905, an outside standard the manual does not restate (R19, R544). Log 5. -/
opaque Config.sm3 : List Byte → List Byte

/-- SM2 verification of GB/T 32918: public key, message, signature (R19, R544). Log 5. -/
opaque Config.sm2Verify : (key msg sig : List Byte) → Bool

/-- SM2 signature by a private key (R553). Log 5. -/
opaque Config.sm2Sign : (priv msg : List Byte) → List Byte

/-- SM2 public key of a private key (R549). Log 5. -/
opaque Config.sm2Public : (priv : List Byte) → List Byte

/-- SM2 decryption of a seal package's WRAP under the identity key (R562). Log 5. -/
opaque Config.sm2Decrypt : (priv wrap : List Byte) → Option (List Byte)

/-- Response of the unclonable function corrected with the record's helper data, then the key derivation of R548. Log 5. -/
opaque Config.identitySeed : (helper : List Byte) → List Byte

/-- The identity private key d = (s mod (n - 1)) + 1 of the seed (R548); n is the order of the SM2 curve. Log 5. -/
opaque Config.identityKey : (seed : List Byte) → List Byte

/-- A certificate verifies under the vendor key (R549); the certificate form is an outside standard. Log 5. -/
opaque Config.certVerify : (vkey cert : List Byte) → Bool

/-- The subject key of a certificate (R549). Log 5. -/
opaque Config.certSubjectKey : (cert : List Byte) → List Byte

/-- The `n`-th draw of Tarle's entropy source (R543, R559, R568). Log 5. -/
opaque Config.entropy : Nat → List Byte

/-- SM4-XTS of a data unit under a key pair and tweak (R558). Log 5. -/
opaque Config.sm4Xts : (key tweak data : List Byte) → List Byte

/-- The vendor-key digest held in the boot ROM (R546, R574), and the boot ROM's own bytes (Table 19.2). Log 5. -/
opaque Config.vendorKeyDigest : List Byte
opaque Config.bootRom : List Byte

/-- SPDM 1.3 answer to a request in the options of Table 19.4, from what Tarle holds for it (certificate, measurement slots), and the
standard's error answer; the standard is not restated (R19). Log 5. -/
opaque Config.spdmAnswer : (request : List Byte) → (material : List (List Byte)) → List Byte
opaque Config.spdmError : (request : List Byte) → List Byte

/-- A FINISH or KEY_EXCHANGE of the SPDM standard verifies (R554, R555). Log 5. -/
opaque Config.spdmAccepts : (request : List Byte) → Bool

/-- An FP32 function of Table 5.6 at an input with no stated special value, before it is held to the bound of its row: a fixed function
of its input bits, the arithmetic mode (RND, SAT, FTZ, SRBITS) and the microcode revision (R181). The index is the OP of Table
7.4. Log 6. -/
opaque Config.function : (op : Nat) → (input : W32) → (rnd : Nat) → (sat ftz : Bool) → (srbits ucrev : Nat) → W32

/-- INT32 RMAX (0x62) and RMIN (0x63) over no lanes; R255 states these values for FP32 alone. Log 66. -/
opaque Config.noLanes : (op : Nat) → W32

/-- The value that the conversion to FMTD takes for an element of a GEMM with MODE.ACC, as bits of the bank's word type (0 FP32, 1
INT32, 2 FP64): the manual names the addend C and states neither the rounding of the sum nor its place (Table 3.7). Log 35. -/
opaque Config.addend : (ty fmtC word c rnd : Nat) → (ftz : Bool) → W64

/-- Which address a translation within a false run names (R387: unpredictable). Log 8. -/
opaque Config.falseRun : (va pte : Nat) → Nat

/-- The uncore current of a compute-die rail in mA, and what the last sample's current of `sample` mA holds for the rail's tiles
that a hint does not name (R505 uses both and gives neither). Log 14. -/
opaque Config.uncoreCurrent : (rail : Nat) → Nat
opaque Config.otherTilesCurrent : (rail sample : Nat) → (tiles : List Nat) → Nat

/-- The conversion efficiency section of the module record in thousandths, as its calibration section gives it (R500,
Table 20.1); the manual does not give the section's inner layout. Log 9. -/
opaque Config.efficiency : (calibration : List Byte) → Nat

/-- The value that the calibration or trim section gives a field with Reset MR, by BAR0 offset (R15, Table 20.1). Log 9. -/
opaque Config.recordField : (calibration : List Byte) → (offset : Nat) → W64

/-- The line belongs to the image that Tarle saves in the device-reserved region at Night entry, or to the node-core boot code held
there (R551, R585, R586); the manual gives the region no layout (R318). Log 27. -/
opaque Config.savedLine : (line : Nat) → Bool

/-- The node-core boot code held in the device-reserved region, of the region's listed bytes (R551; R318 gives no layout). Log 27. -/
opaque Config.bootCode : (region : List (Nat × Byte)) → List Byte

/-- The pseudo-channel of an HBM stack, of the 64 of Table 10.2, that holds an offset (R327). Log 120. -/
opaque Config.pseudoChannel : (offset : Nat) → Fin 64

/-- The line of the device-reserved region that the `n`-th checkpoint or journal read of the flash map reads (R326, R436). Log 123. -/
opaque Config.mapLine : (n : Nat) → Nat

/-- What the flash layer decides and the manual leaves to it: the block of a channel that holds a granule after a number of
relocations, whether the `n`-th granule programmed on a channel opens an erased block, and the erased blocks that a restore finds on
a channel (R431 to R433, R436). Log 40. -/
opaque Config.flashBlock : (granule relocations : Nat) → Nat
opaque Config.flashOpens : (channel n : Nat) → Bool
opaque Config.flashErased : (channel : Nat) → Nat

/-- Mean rated erase cycles used, in percent, after a number of erases; the manual gives no rated count (Table 14.4). Log 40. -/
opaque Config.flashLife : (erases : Nat) → Nat

end Sys2Proof
end

