-- ==== Sys2Proof/Machine/Float.lean ====
section
/-! DEFINITION. Number formats, rounding, conversions and exact arithmetic (chapter 5). A finite value is held exactly, as a sign,
a magnitude and a power of two; every operation is exact and is rounded once, where the manual rounds (R163, R164). -/

namespace Sys2Proof.Machine

/-! ## Formats -/

/-- A floating-point format (Table 5.2): exponent and significand bits, bias, whether exponent all ones is reserved as in IEEE
754, and whether it has a NaN. -/
structure FFmt where
  ebits : Nat
  mbits : Nat
  bias : Nat
  ieee : Bool
  nan : Bool
  deriving DecidableEq, Repr

def fp64 : FFmt := ⟨11, 52, 1023, true, true⟩
def fp32 : FFmt := ⟨8, 23, 127, true, true⟩
def bf16 : FFmt := ⟨8, 7, 127, true, true⟩
def fp16 : FFmt := ⟨5, 10, 15, true, true⟩
def e4m3 : FFmt := ⟨4, 3, 7, false, true⟩
def e5m2 : FFmt := ⟨5, 2, 15, true, true⟩
def e3m2 : FFmt := ⟨3, 2, 3, false, false⟩
def e2m3 : FFmt := ⟨2, 3, 1, false, false⟩
def e2m1 : FFmt := ⟨2, 1, 1, false, false⟩

/-- Element formats: floating point, or two's complement of a width. -/
inductive Elem where
  | float (f : FFmt)
  | int (bits : Nat)
  /-- MXINT8: two's complement in units of 2^−6 (R158). -/
  | fixed8
  deriving DecidableEq, Repr

/-- The element format of a format code, none for an invalid code (Table 5.1, R151). -/
def elemOf : Nat → Option Elem
  | 0x00 => some (.float fp64) | 0x01 => some (.float fp32) | 0x02 => some (.float bf16) | 0x03 => some (.float fp16)
  | 0x04 => some (.float e4m3) | 0x05 => some (.float e5m2) | 0x06 => some (.float e3m2) | 0x07 => some (.float e2m3)
  | 0x08 => some (.float e2m1) | 0x09 => some (.int 8) | 0x0A => some (.int 4) | 0x0B => some (.int 32)
  | 0x14 => some (.float e4m3) | 0x15 => some (.float e5m2) | 0x16 => some (.float e3m2) | 0x17 => some (.float e2m3)
  | 0x18 => some (.float e2m1) | 0x19 => some .fixed8
  | _ => none

/-- A code of Table 5.1. -/
def fmtValid (f : Nat) : Bool := (elemOf f).isSome

/-- An MX code: 32-element blocks with a scale. -/
def fmtMx (f : Nat) : Bool := 0x14 ≤ f && f ≤ 0x19

/-- Bits per element. -/
def Elem.bits : Elem → Nat
  | .float f => 1 + f.ebits + f.mbits
  | .int n => n
  | .fixed8 => 8

def fmtBits (f : Nat) : Nat := match elemOf f with
  | some e => e.bits
  | none => 0

/-- Kc of a pair of Table 6.1, none for a pair that it does not list. -/
def pairKc (a b : Nat) : Option Nat :=
  let four (f : Nat) := f == 0x18 || f == 0x08
  let short (f : Nat) := (4 ≤ f && f ≤ 7) || (0x14 ≤ f && f ≤ 0x17)
  if four a && four b then some 256
  else if (short a || four a) && (short b || four b) then some 128
  else if a = 0x19 && b = 0x19 then some 128
  else if a = 0x0A && b = 0x0A then some 256
  else if (a = 0x09 || a = 0x0A) && (b = 0x09 || b = 0x0A) then some 128
  else if (a = 0x02 && b = 0x02) || (a = 0x03 && b = 0x03) then some 64
  else if a = 0x01 && b = 0x01 then some 16
  else if a = 0x00 && b = 0x00 then some 128
  else none

/-- Kc is that of a pair of Table 6.1 which includes format `f` (R423). -/
def kcOfFmt (f kc : Nat) : Bool := (List.range 32).any fun g => pairKc f g == some kc

/-- Line length of R188 in bytes. -/
def lineLen (f kc : Nat) : Nat := kc * fmtBits f / 8

/-- Element `i` of packed elements of `w` bits each, given their bytes as one little-endian number (R161). -/
def packed (bytes i w : Nat) : Nat := bytes / 2 ^ (i * w) % 2 ^ w

/-- Elements of `w` bits packed into one little-endian number (R161). -/
def pack (w : Nat) : List Nat → Nat
  | [] => 0
  | x :: rest => x % 2 ^ w + 2 ^ w * pack w rest

/-! ## Values -/

/-- A floating-point value; a finite one is ± m × 2^e. -/
inductive FV where
  | nan
  | inf (neg : Bool)
  | fin (neg : Bool) (m : Nat) (e : Int)
  deriving DecidableEq, Repr

def FV.zero (neg : Bool) : FV := .fin neg 0 0

/-- A value is zero. -/
def FV.isZero : FV → Bool
  | .fin _ 0 _ => true
  | _ => false

def FV.neg? : FV → Bool
  | .nan => false
  | .inf s | .fin s _ _ => s

def FV.negate : FV → FV
  | .nan => .nan
  | .inf s => .inf !s
  | .fin s m e => .fin (!s) m e

def FV.abs : FV → FV
  | .nan => .nan
  | .inf _ => .inf false
  | .fin _ m e => .fin false m e

/-- 2^k for an integer k at least 0. -/
def pow2 (k : Int) : Nat := 2 ^ k.toNat

/-- The value of an encoding in format `f` (R152). -/
def decodeF (f : FFmt) (code : Nat) : FV :=
  let m := code % 2 ^ f.mbits
  let e := code / 2 ^ f.mbits % 2 ^ f.ebits
  let s := code / 2 ^ (f.mbits + f.ebits) % 2 == 1
  if f.ieee && e == 2 ^ f.ebits - 1 then (if m = 0 then .inf s else .nan)
  else if !f.ieee && f.nan && e == 2 ^ f.ebits - 1 && m == 2 ^ f.mbits - 1 then .nan
  else if e = 0 then .fin s m (1 - (f.bias : Int) - f.mbits)
  else .fin s (2 ^ f.mbits + m) ((e : Int) - f.bias - f.mbits)

/-- The canonical NaN; +0 where the format has no NaN (R153, Table 5.4). -/
def nanCode (f : FFmt) : Nat :=
  if f.ieee then (2 ^ f.ebits - 1) * 2 ^ f.mbits + 2 ^ (f.mbits - 1)
  else if f.nan then 2 ^ (f.ebits + f.mbits) - 1 else 0

def signBit (f : FFmt) (neg : Bool) : Nat := if neg then 2 ^ (f.ebits + f.mbits) else 0

/-- Magnitude code of the largest finite value. -/
def maxCode (f : FFmt) : Nat :=
  if f.ieee then (2 ^ f.ebits - 1) * 2 ^ f.mbits - 1
  else if f.nan then 2 ^ (f.ebits + f.mbits) - 2 else 2 ^ (f.ebits + f.mbits) - 1

def infCode (f : FFmt) : Nat := (2 ^ f.ebits - 1) * 2 ^ f.mbits

/-- FTZ acts on FP64, FP32, BF16 and FP16 only (R171). -/
def flushes (f : FFmt) : Bool := f.ieee && f.mbits != 2

/-! ## Arithmetic mode and stochastic rounding -/

/-- The arithmetic mode (R162). -/
structure AMode where
  rnd : Nat := 0
  sat : Bool := false
  ftz : Bool := false
  srbits : Nat := 0
  deriving DecidableEq, Repr

def AMode.sr (a : AMode) : Bool := a.rnd == 5

/-- A well-formed combination of RND and SRBITS (R162). -/
def srbitsOk (rnd srbits : Nat) : Bool :=
  rnd ≤ 5 && (if rnd = 5 then 4 ≤ srbits && srbits ≤ 16 else srbits == 0)

/-- One draw (R168): the state after it and its SRBITS bits. -/
def srDraw (x : W64) (srbits : Nat) : W64 × Nat :=
  let x := x ^^^ (x <<< 13)
  let x := x ^^^ (x >>> 7)
  let x := x ^^^ (x <<< 17)
  (x, ((x * 0x7A3D94C15E2BF06B) >>> (64 - srbits)).toNat)

/-- The state of a lane whose stream is opened (R169). -/
def srOpen (seed tile engine lane stream : Nat) : W64 :=
  let w : W64 := BitVec.ofNat 64 (stream % 2 ^ 32 * 2 ^ 17 + tile * 2 ^ 9 + engine * 2 ^ 7 + lane)
  let z : W64 := BitVec.ofNat 64 seed ^^^ (w * 0x8F1B36E5A4C70D93)
  let z := (z ^^^ (z >>> 31)) * 0x6C8E9CF570932BD5
  let z := (z ^^^ (z >>> 29)) * 0xA96D3F1E58C4B2A3
  let z := z ^^^ (z >>> 32)
  if z = 0 then 0x4F1BBCDCBFA53E0B else z

/-! ## Rounding -/

/-- Rounds m × 2^e to a multiple of 2^q: the multiple (Table 5.3, R166). -/
def roundMag (a : AMode) (r : Nat) (neg : Bool) (m : Nat) (e q : Int) : Nat :=
  if q ≤ e then m * pow2 (e - q)
  else
    let d := pow2 (q - e)
    let n := m / d
    let rem := m % d
    let up := match a.rnd with
      | 0 => decide (d < 2 * rem) || (2 * rem == d && n % 2 == 1)
      | 1 => false
      | 2 => neg && rem != 0
      | 3 => !neg && rem != 0
      | 4 => decide (d ≤ 2 * rem)
      | _ => decide (2 ^ a.srbits ≤ rem * 2 ^ a.srbits / d + r)
    if up then n + 1 else n

/-- The result of an overflow (R165). -/
def overflow (f : FFmt) (a : AMode) (neg : Bool) : Nat :=
  if f.ieee then
    signBit f neg + (match a.rnd with
      | 1 => maxCode f
      | 2 => if neg then infCode f else maxCode f
      | 3 => if neg then maxCode f else infCode f
      | _ => infCode f)
  else if f.nan then (if a.sat then signBit f neg + maxCode f else nanCode f)
  else signBit f neg + maxCode f

/-- Rounds the nonzero magnitude m × 2^e to format `f`: the encoding, and whether FTZ replaced a nonzero value by zero. -/
def roundF (f : FFmt) (a : AMode) (r : Nat) (neg : Bool) (m : Nat) (e : Int) : Nat × Bool :=
  let p : Int := f.mbits + 1
  let emin : Int := 1 - (f.bias : Int)
  let top := e + Nat.log2 m
  let q := max (top - (p - 1)) (emin - (p - 1))
  let max1 := maxCode f
  -- value of the largest finite encoding: mx × 2^qx
  let qx : Int := (max1 / 2 ^ f.mbits : Nat) - (f.bias : Int) - f.mbits
  let mx := 2 ^ f.mbits + max1 % 2 ^ f.mbits
  let beyond := if qx ≤ e then decide (mx < m * pow2 (e - qx)) else decide (mx * pow2 (qx - e) < m)
  if a.sr && beyond then
    -- above the largest finite value the upper neighbour is 2^(emax + 1)
    let e0 := min e qx
    let x := m * pow2 (e - e0)
    let lo := mx * pow2 (qx - e0)
    let hi := 2 ^ (f.mbits + 1) * pow2 (qx - e0)
    if hi ≤ x || 2 ^ a.srbits ≤ (x - lo) * 2 ^ a.srbits / (hi - lo) + r then (overflow f a neg, false)
    else (signBit f neg + max1, false)
  else
    let n := roundMag a r neg m e q
    let (n, q) := if n = 2 ^ (f.mbits + 1) then (n / 2, q + 1) else (n, q)
    if n < 2 ^ f.mbits then
      -- below the smallest normal
      if a.ftz && flushes f then (signBit f neg, true) else (signBit f neg + n, false)
    else
      let field := q + f.mbits + f.bias
      let code := field.toNat * 2 ^ f.mbits + (n - 2 ^ f.mbits)
      if max1 < code then (overflow f a neg, false) else (signBit f neg + code, false)

/-- A value converted to format `f` (Table 5.4): its encoding, and FLUSHED. -/
def encodeF (f : FFmt) (a : AMode) (r : Nat) (v : FV) : Nat × Bool :=
  match v with
  | .nan => (nanCode f, false)
  | .inf s =>
    if f.ieee then (signBit f s + infCode f, false)
    else if f.nan && !a.sat then (nanCode f, false)
    else (signBit f s + maxCode f, false)
  | .fin s 0 _ => (signBit f s, false)
  | .fin s m e => roundF f a r s m e

/-- A value rounded to an integer of `bits` bits, at the nearest end of its range where it lies outside (Table 5.4). -/
def encodeInt (bits : Nat) (a : AMode) (r : Nat) (v : FV) : Int :=
  let lo : Int := -(2 ^ (bits - 1) : Nat)
  let hi : Int := (2 ^ (bits - 1) : Nat) - 1
  match v with
  | .nan => 0
  | .inf s => if s then lo else hi
  | .fin s m e =>
    let n : Int := roundMag a r s m e 0
    max lo (min hi (if s then -n else n))

/-- Two's complement of a width. -/
def intCode (bits : Nat) (i : Int) : Nat := (i % (2 ^ bits : Nat)).toNat
def intOf (bits code : Nat) : Int :=
  let c := code % 2 ^ bits
  if c < 2 ^ (bits - 1) then c else (c : Int) - (2 ^ bits : Nat)

/-- The value of an integer; 0 is +0. -/
def FV.ofInt (i : Int) : FV := .fin (decide (i < 0)) i.natAbs 0

/-- FTZ on an input of format `f`: a subnormal is read as zero of its sign, which flushes a nonzero value (R171, R172). -/
def readF (f : FFmt) (ftz : Bool) (code : Nat) : FV × Bool :=
  let v := decodeF f code
  match v with
  | .fin s m _ => if ftz && flushes f && 0 < m && m < 2 ^ f.mbits then (.zero s, true) else (v, false)
  | _ => (v, false)

/-- The value of an element code (R157, R158). -/
def elemValue (x : Elem) (code : Nat) : FV :=
  match x with
  | .float f => decodeF f code
  | .int n => .ofInt (intOf n code)
  | .fixed8 =>
    let i := intOf 8 code
    .fin (decide (i < 0)) i.natAbs (-6)

/-- A value times 2^k. -/
def FV.scale (v : FV) (k : Int) : FV :=
  match v with
  | .fin s m e => .fin s m (e + k)
  | _ => v

/-- Element `code` of an MX block of scale byte `sc` (R159, R160). -/
def mxValue (x : Elem) (sc code : Nat) : FV :=
  if sc = 0xFF then .nan else (elemValue x code).scale ((sc : Int) - 127)

/-! ## Exact arithmetic -/

/-- Signed magnitude at a common power of two. -/
def FV.atExp (e0 : Int) : FV → Int
  | .fin s m e => let n : Int := m * pow2 (e - e0); if s then -n else n
  | _ => 0

def FV.expo : FV → Int
  | .fin _ _ e => e
  | _ => 0

/-- The exact sum of values, with the sign of a zero sum by R156. -/
def sumF (rdn : Bool) (vs : List FV) : FV :=
  if vs.any (· == .nan) then .nan
  else
    let pos := vs.any (· == .inf false)
    let neg := vs.any (· == .inf true)
    if pos && neg then .nan
    else if pos then .inf false
    else if neg then .inf true
    else
      let e0 := vs.foldl (fun a v => min a v.expo) ((vs.headD (.zero false)).expo)
      let t := vs.foldl (fun (a : Int) v => a + v.atExp e0) 0
      if t = 0 then
        (if !vs.isEmpty && vs.all (fun v => v.isZero && v.neg?) then .zero true
         else if vs.all (fun v => v.isZero && !v.neg?) then .zero false
         else .zero rdn)
      else .fin (decide (t < 0)) t.natAbs e0

def addF (rdn : Bool) (a b : FV) : FV := sumF rdn [a, b]

def mulF (a b : FV) : FV :=
  let s := a.neg? != b.neg?
  match a, b with
  | .nan, _ | _, .nan => .nan
  | .inf _, y => if y.isZero then .nan else .inf s
  | x, .inf _ => if x.isZero then .nan else .inf s
  | .fin _ m e, .fin _ n k => .fin s (m * n) (e + k)

/-- a / b, exact to more bits than any format and draw can tell, with a last bit that marks a remainder. -/
def divF (a b : FV) : FV :=
  let s := a.neg? != b.neg?
  match a, b with
  | .nan, _ | _, .nan => .nan
  | .inf _, .inf _ => .nan
  | .inf _, _ => .inf s
  | _, .inf _ => .zero s
  | .fin _ m e, .fin _ n k =>
    if n = 0 then (if m = 0 then .nan else .inf s)
    else if m = 0 then .zero s
    else
      let sh := 128 + Nat.log2 n
      let q := m * 2 ^ sh / n
      .fin s (2 * q + (if m * 2 ^ sh % n = 0 then 0 else 1)) (e - k - sh - 1)

/-- The square root, to more bits than any format can tell, with a last bit that marks a remainder. -/
def sqrtF (a : FV) : FV :=
  match a with
  | .nan => .nan
  | .inf s => if s then .nan else .inf false
  | .fin s m e =>
    if m = 0 then .zero s
    else if s then .nan
    else
      let odd := e % 2 != 0
      let m' := (if odd then 2 * m else m) * 2 ^ 256
      let e' := (if odd then e - 1 else e) - 256
      let q := Nat.sqrt m'
      .fin false (2 * q + (if q * q = m' then 0 else 1)) (e' / 2 - 1)

/-- a < b for values that are not NaN; zeros are equal. -/
def ltF (a b : FV) : Bool :=
  match a, b with
  | .nan, _ | _, .nan => false
  | .inf s, .inf t => s && !t
  | .inf s, _ => s
  | _, .inf t => !t
  | x, y => let e0 := min x.expo y.expo; decide (x.atExp e0 < y.atExp e0)

def eqF (a b : FV) : Bool :=
  match a, b with
  | .nan, _ | _, .nan => false
  | .inf s, .inf t => s == t
  | .inf _, _ | _, .inf _ => false
  | x, y => let e0 := min x.expo y.expo; x.atExp e0 == y.atExp e0

/-- Minimum and maximum of IEEE 754-2019 with −0 below +0; with `num`, the number-preferring forms (R155). -/
def minF (num : Bool) (a b : FV) : FV :=
  match a, b with
  | .nan, .nan => .nan
  | .nan, y => if num then y else .nan
  | x, .nan => if num then x else .nan
  | x, y => if ltF x y then x else if ltF y x then y else if x.neg? then x else y

def maxF (num : Bool) (a b : FV) : FV :=
  match a, b with
  | .nan, .nan => .nan
  | .nan, y => if num then y else .nan
  | x, .nan => if num then x else .nan
  | x, y => if ltF x y then y else if ltF y x then x else if x.neg? then y else x

/-! ## MX conversion -/

/-- ⌊log2⌋ of a nonzero finite magnitude. -/
def FV.log2 : FV → Int
  | .fin _ m e => e + Nat.log2 m
  | _ => 0

/-- emax of an MX element format (R175). -/
def elemEmax : Elem → Int
  | .float f => if f == e4m3 then 8 else if f == e5m2 then 15 else if f == e3m2 then 4 else 2
  | _ => 0

/-- An element of step 4 of R175: x / 2^s rounded to the element format, saturating. -/
def mxElem (x : Elem) (a : AMode) (r : Nat) (v : FV) : Nat :=
  match x with
  | .float f =>
    match v with
    | .inf s => if f.ieee then signBit f s + infCode f else signBit f s + maxCode f
    | .nan => 0
    | _ =>
      let c := (encodeF f { a with ftz := false, sat := true } r v).1
      match decodeF f c with
      | .inf s => signBit f s + maxCode f
      | _ => c
  | _ =>
    -- MXINT8: multiples of 2^−6 from −2 to 127/64
    intCode 8 (encodeInt 8 a r (v.scale 6))

/-- 32 values converted to an MX block with element format `x` (R175), with one draw for each element under SR: the scale and the
element codes. FTZ has been applied to the values. -/
def mxBlock (x : Elem) (a : AMode) (rs : List Nat) (vs : List FV) : Nat × List Nat :=
  let hasInf := x == .float e5m2
  if vs.any (· == .nan) || (!hasInf && !a.sat && vs.any fun v => v == .inf true || v == .inf false) then
    (0xFF, vs.map fun _ => 0)
  else
    let big := vs.foldl (fun acc v => match v with
      | .fin _ (m + 1) e => let w := FV.fin false (m + 1) e; if ltF acc w then w else acc
      | _ => acc) (FV.zero false)
    let s : Int := if big.isZero then -127 else max (-127) (min 127 (big.log2 - elemEmax x))
    ((s + 127).toNat, vs.zipIdx.map fun p => mxElem x a (rs.getD p.2 0) (p.1.scale (-s)))

end Sys2Proof.Machine
end

