-- ==== Sys2Proof/Machine/Jobs.lean ====
section
/-! DEFINITION. Descriptors and the blocks they name, as data: the envelope, the parameter block of GEMM, GGEMM and CHAIN, chain
blocks, their checks, and how a job is cut into output tiles and work units (chapters 3 and 8). -/

namespace Sys2Proof.Machine

/-- Bits `[lo + len - 1 : lo]`. -/
def bitsOf (d : BitVec n) (lo len : Nat) : Nat := d.toNat / 2 ^ lo % 2 ^ len

/-- Bytes `off` to `off + n - 1` of a descriptor's body (Table 3.3: the body follows the 16-byte envelope). -/
def body (d : BitVec 512) (off n : Nat) : Nat := bitsOf d (128 + 8 * off) (8 * n)

/-! ## Envelope (Table 3.3) -/

def opOf (d : BitVec 512) : Nat := bitsOf d 0 8
def cmplOf (d : BitVec 512) : Bool := bitsOf d 8 1 == 1
def orderOf (d : BitVec 512) : Bool := bitsOf d 9 1 == 1
def stopErrOf (d : BitVec 512) : Bool := bitsOf d 10 1 == 1
def regcOf (d : BitVec 512) : Bool := bitsOf d 11 1 == 1
def ctxidOf (d : BitVec 512) : Nat := bitsOf d 16 16
def budgetOf (d : BitVec 512) : Nat := bitsOf d 32 13
def hintOf (d : BitVec 512) : Nat := bitsOf d 45 3
def tsetOf (d : BitVec 512) : Nat := bitsOf d 48 10
def seqNumOf (d : BitVec 512) : Nat := bitsOf d 64 32

/-- Classes of Table 3.4. -/
inductive Cl where
  | management | tile | parcel | copy | fill | sorting | sync
  deriving DecidableEq, Repr

/-- Class of an opcode, none where Table 3.4 assigns none (R79). -/
def classOf (op : Nat) : Option Cl :=
  if op ≤ 0x0F then some .management
  else if 0x10 ≤ op && op ≤ 0x14 then some .tile
  else if op = 0x30 then some .parcel
  else if op = 0x40 then some .copy
  else if op = 0x41 then some .fill
  else if 0x50 ≤ op && op ≤ 0x52 then some .sorting
  else if 0x58 ≤ op && op ≤ 0x5A then some .sync
  else none

/-! ## Parameter block (Table 3.7) -/

structure Params where
  a : Nat := 0
  b : Nat := 0
  c : Nat := 0
  d : Nat := 0
  sa : Nat := 0
  sb : Nat := 0
  m : Nat := 0
  n : Nat := 0
  k : Nat := 0
  batches : Nat := 1
  lda : Nat := 0
  ldb : Nat := 0
  ldd : Nat := 0
  bsa : Nat := 0
  bssa : Nat := 0
  bsb : Nat := 0
  bssb : Nat := 0
  bsd : Nat := 0
  fmta : Nat := 0
  fmtb : Nat := 0
  fmtd : Nat := 0
  mode : AMode := {}
  acc : Bool := false
  splitk : Nat := 0
  stream : Nat := 0
  deriving DecidableEq, Repr

/-- Field of a block given as one little-endian number. -/
def at_ (v off n : Nat) : Nat := v / 2 ^ (8 * off) % 2 ^ (8 * n)

def paramsOf (v : Nat) : Params :=
  { a := at_ v 0 8, b := at_ v 8 8, c := at_ v 16 8, d := at_ v 24 8, sa := at_ v 32 8, sb := at_ v 40 8,
    m := at_ v 48 4, n := at_ v 52 4, k := at_ v 56 4, batches := at_ v 60 3 + 1,
    lda := at_ v 64 8, ldb := at_ v 72 8, ldd := at_ v 80 8,
    bsa := at_ v 88 4, bssa := at_ v 92 4, bsb := at_ v 96 4, bssb := at_ v 100 4, bsd := at_ v 104 8,
    fmta := at_ v 112 1 % 32, fmtb := at_ v 113 1 % 32, fmtd := at_ v 114 1 % 32,
    mode := { rnd := at_ v 115 1 % 8, sat := at_ v 115 1 / 8 % 2 == 1, ftz := at_ v 115 1 / 16 % 2 == 1, srbits := at_ v 116 1 },
    acc := at_ v 115 1 / 32 % 2 == 1, splitk := at_ v 117 1, stream := at_ v 120 4 }

/-- A parameter block is malformed: a reserved field, an invalid FMTD, or a breach of R162. -/
def paramsMalformed (v : Nat) : Bool :=
  let p := paramsOf v
  at_ v 63 1 != 0 || at_ v 112 1 / 32 != 0 || at_ v 113 1 / 32 != 0 || at_ v 114 1 / 32 != 0 || at_ v 115 1 / 64 != 0
    || at_ v 118 2 != 0 || at_ v 124 4 != 0 || !fmtValid p.fmtd || !srbitsOk p.mode.rnd p.mode.srbits

/-- A dimension in range (Table 3.7). -/
def dimOk (x : Nat) : Bool := 1 ≤ x && x < 2 ^ 31

/-- Formats that have MX blocks, or are read as MX operands (R98, R186). -/
def blocked (f : Nat) : Bool := fmtMx f || (4 ≤ f && f ≤ 8)

/-- A row pitch that is a whole number of MX blocks of the element format (R98). -/
def pitchOk (ld f : Nat) : Bool := !blocked f || ld % (4 * fmtBits f) == 0

def splitOk (x : Nat) : Bool := [0, 1, 2, 4, 8, 16, 32, 64].contains x

/-! ## Chain blocks (Tables 8.1 and 8.2) -/

structure Stage where
  prog : Nat := 0
  count : Nat := 1
  ifmt : Nat := 0
  arnd : Nat := 0
  ornd : Nat := 0
  sat : Bool := false
  ftz : Bool := false
  srbits : Nat := 0
  stream : Nat := 0
  k0 : Nat := 0
  k1 : Nat := 0
  aux : Nat := 0
  ldaux : Nat := 0
  auxfmt : Nat := 0
  rssel : Nat := 0
  outw : Nat := 0
  outty : Nat := 0
  deriving DecidableEq, Repr

structure Chain where
  kind : Nat := 0
  split : Nat := 1
  lmode : Nat := 0
  nstat : Nat := 0
  stat0 : Nat := 0
  stat1 : Nat := 0
  fmode : Nat := 0
  f0n : Nat := 1
  f1n : Nat := 1
  lstage : Nat := 0
  ledger : Nat := 0
  f0 : Nat := 0
  f1 : Nat := 0
  sd : Nat := 0
  stages : List Stage := []
  deriving DecidableEq, Repr

def stageOf (v : Nat) : Stage :=
  { prog := at_ v 0 8, count := at_ v 8 1 % 64 + 1, ifmt := at_ v 9 1 % 32, arnd := at_ v 10 1 % 8, ornd := at_ v 10 1 / 8 % 8,
    sat := at_ v 10 1 / 64 % 2 == 1, ftz := at_ v 10 1 / 128 == 1, srbits := at_ v 11 1 % 32, stream := at_ v 12 4,
    k0 := at_ v 16 8, k1 := at_ v 24 8, aux := at_ v 32 8, ldaux := at_ v 40 4, auxfmt := at_ v 44 1 % 32,
    rssel := at_ v 45 1 % 4, outw := at_ v 45 1 / 4 % 4, outty := at_ v 45 1 / 16 % 4 }

/-- Bytes of stage entry `i`. -/
def stageWord (v i : Nat) : Nat := at_ v (64 + 48 * i) 48

def chainOf (v : Nat) : Chain :=
  { kind := at_ v 0 1 % 4, split := at_ v 2 1 % 8, lmode := at_ v 3 1 % 4, nstat := at_ v 3 1 / 4 % 4,
    stat0 := at_ v 4 1, stat1 := at_ v 5 1, fmode := at_ v 6 1, f0n := at_ v 7 1 % 64 + 1, f1n := at_ v 8 1 % 64 + 1,
    lstage := at_ v 16 8, ledger := at_ v 24 8, f0 := at_ v 32 8, f1 := at_ v 40 8, sd := at_ v 48 8,
    stages := (List.range (min 4 (at_ v 1 1 % 8))).map fun i => stageOf (stageWord v i) }

/-- A statistic byte is malformed (Table 8.1). -/
def statBad (x : Nat) (used : Bool) : Bool :=
  if used then x / 4 % 8 == 0 || 4 < x / 4 % 8 || x / 32 != 0 else x != 0

/-- A rounding mode of Table 5.3. -/
def rndOk (r : Nat) : Bool := r ≤ 5

/-- SRBITS fits two rounding modes: 4–16 where either selects SR, else 0 (R162, Table 7.10). -/
def srbits2Ok (a o srbits : Nat) : Bool :=
  rndOk a && rndOk o && (if a = 5 || o = 5 then 4 ≤ srbits && srbits ≤ 16 else srbits == 0)

/-- A stage entry is malformed (Table 8.2, R268). -/
def stageBad (w i : Nat) (c : Chain) : Bool :=
  let s := stageOf w
  at_ w 8 1 / 64 != 0 || at_ w 9 1 / 32 != 0 || at_ w 11 1 / 32 != 0 || at_ w 44 1 / 32 != 0 || at_ w 45 1 / 64 != 0
    || at_ w 46 2 != 0 || s.prog % 8 != 0 || !fmtValid s.ifmt || !srbits2Ok s.arnd s.ornd s.srbits
    || !fmtValid s.auxfmt || fmtMx s.auxfmt || s.rssel == 3 || s.outty == 3
    || (s.rssel != 0 && (if c.lmode = 0 then c.ledger == 0 else decide (i < c.split)))

/-- A chain block at `addr` is malformed for a use of kind `kind` (R245, R246, R247, R268). -/
def chainBad (v kind addr : Nat) : Bool :=
  let c := chainOf v
  let n := at_ v 1 1 % 8
  addr % 64 != 0 || at_ v 0 1 != kind || at_ v 1 1 / 8 != 0 || n == 0 || 4 < n || at_ v 2 1 / 8 != 0 || c.split == 0
    || n < c.split || (c.split != n && c.lmode != 1) || c.lmode == 3 || at_ v 3 1 / 16 != 0
    || (if c.lmode = 0 then c.nstat != 0 else c.nstat == 0 || c.nstat == 3) || (kind == 0 && c.lmode != 0)
    || statBad c.stat0 (1 ≤ c.nstat) || statBad c.stat1 (2 ≤ c.nstat) || 4 < c.fmode % 8 || c.fmode / 16 != 0
    || at_ v 7 1 / 64 != 0 || at_ v 8 1 / 64 != 0 || at_ v 9 7 != 0 || at_ v 56 8 != 0
    || (c.lmode == 0 && c.lstage != 0) || (c.nstat < 2 && c.f1 != 0)
    || (!fmtMx ((c.stages.getLastD {}).ifmt) && c.sd != 0)
    || (List.range 4).any fun i => if i < n then stageBad (stageWord v i) i c else stageWord v i != 0

/-- Format of the last stage's output (R252). -/
def Chain.lastFmt (c : Chain) : Nat := (c.stages.getLastD {}).ifmt

/-! ## Work units (R100 to R103) -/

/-- One product of a job: a batch of a GEMM or CHAIN, or a group of a GGEMM. -/
structure Problem where
  a : Nat := 0
  b : Nat := 0
  c : Nat := 0
  d : Nat := 0
  sa : Nat := 0
  sb : Nat := 0
  m : Nat := 0
  n : Nat := 0
  k : Nat := 0
  /-- Offset of AUX in an epilogue and in a prologue (R254), and the first ledger row (R263). -/
  auxD : Nat := 0
  auxA : Nat := 0
  row : Nat := 0
  deriving DecidableEq, Repr

def Problem.mt (p : Problem) : Nat := (p.m + 127) / 128
def Problem.nt (p : Problem) : Nat := (p.n + 127) / 128
def Problem.tiles (p : Problem) : Nat := p.mt * p.nt

/-- A job as its tiles run it. -/
structure Job where
  p : Params := {}
  prologue : Option Chain := none
  epilogue : Option Chain := none
  /-- A CHAIN job: its stages are those of `epilogue`, over the stored input. -/
  chain : Bool := false
  problems : List Problem := []
  deriving DecidableEq, Repr

/-- K ranges of a job: s of R100. -/
def Job.ranges (j : Job) : Nat := max j.p.splitk 1

/-- Output tiles and work units of a job. -/
def Job.tiles (j : Job) : Nat := j.problems.foldl (fun acc p => acc + p.tiles) 0
def Job.units (j : Job) : Nat := j.tiles * j.ranges

/-- Output tile number `t` of a list of products: the product, its index, row strip and column. -/
def findTile : List Problem → Nat → Nat → Option (Problem × Nat × Nat × Nat)
  | [], _, _ => none
  | p :: rest, i, t => if t < p.tiles then some (p, i, t / p.nt, t % p.nt) else findTile rest (i + 1) (t - p.tiles)

/-- The first unit and the number of units of set position `pos` among `n` tiles (R101). -/
def share (u n pos : Nat) : Nat × Nat :=
  let q := u / n
  let e := u % n
  if pos < e then (pos * (q + 1), q + 1) else (e * (q + 1) + (pos - e) * q, q)

/-- K range `r` of a product (R102): first element and the element after the last. -/
def kRange (k s r : Nat) : Nat × Nat :=
  let w := (k + 32 * s - 1) / (32 * s) * 32
  (min (r * w) k, min ((r + 1) * w) k)

/-- Output tiles before row strip `strip`, counted across products in table order; and the strips in all (R256, R264). -/
def stripTile : List Problem → Nat → Nat → Option (Problem × Nat × Nat)
  | [], _, _ => none
  | p :: rest, strip, t => if strip < p.mt then some (p, strip, t + strip * p.nt) else stripTile rest (strip - p.mt) (t + p.tiles)

/-- Row strip, counted across products, of product `i`'s strip `s`. -/
def stripNo (ps : List Problem) (i s : Nat) : Nat := (ps.take i).foldl (fun acc p => acc + p.mt) 0 + s

/-- The products of a GEMM or CHAIN: its batches (Table 3.7). -/
def batchProblems (p : Params) : List Problem :=
  (List.range p.batches).map fun b =>
    { a := p.a + b * p.bsa, b := p.b + b * p.bsb, c := p.c + b * p.bsd, d := p.d + b * p.bsd, sa := p.sa + b * p.bssa,
      sb := p.sb + b * p.bssb, m := p.m, n := p.n, k := p.k, auxD := b * p.bsd, auxA := b * p.bsa, row := b * p.m }

/-- The products of a GGEMM, from its shape-table entries (R103). -/
def groupProblems : List Nat → Nat → List Problem
  | [], _ => []
  | v :: rest, row =>
    { a := at_ v 0 8, b := at_ v 8 8, c := at_ v 16 8, d := at_ v 16 8, sa := at_ v 24 8, sb := at_ v 32 8, m := at_ v 40 4,
      n := at_ v 44 4, k := at_ v 48 4, row := row } :: groupProblems rest (row + at_ v 40 4)

/-- Status of a GEMM's or GGEMM's parameter block `v` with its chain blocks, given as numbers with their addresses (R98, R248,
R252, R253, R254); 0 where it passes. -/
def gemmStatus (v : Nat) (grouped : Bool) (pro epi : Option (Nat × Nat)) : Nat :=
  let p := paramsOf v
  let pc := pro.map fun x => chainOf x.1
  let ec := epi.map fun x => chainOf x.1
  let afmt := match pc with
    | some c => c.lastFmt
    | none => p.fmta
  if paramsMalformed v || (grouped && p.batches != 1)
      || (match pro with | some x => chainBad x.1 0 x.2 | none => false)
      || (match epi with | some x => chainBad x.1 1 x.2 | none => false)
      || (epi.isSome && (p.acc || p.mode.rnd != 0 || p.mode.sat || p.mode.srbits != 0 || p.stream != 0)) then 0x10
  else if (!grouped && !(dimOk p.m && dimOk p.n && dimOk p.k)) || (pairKc afmt p.fmtb).isNone || !fmtValid p.fmta
      || !pitchOk p.lda p.fmta || !pitchOk p.ldb p.fmtb || !splitOk p.splitk
      || (match ec with | some c => c.lastFmt != p.fmtd | none => false)
      || (match pc with
          | some c => c.lastFmt == 0 || (grouped && c.stages.any fun s => s.aux != 0)
              || (pairKc afmt p.fmtb == some 256 && c.stages.any fun s => s.k0 != 0 || s.k1 != 0)
          | none => false)
      || (match ec with | some c => grouped && c.stages.any fun s => s.aux != 0 | none => false) then 0x17
  else 0

/-- Status of a shape-table entry (R98, R103). -/
def shapeStatus (v : Nat) : Nat :=
  if at_ v 52 12 ≠ 0 then 0x10
  else if 2 ^ 31 ≤ at_ v 40 4 || !dimOk (at_ v 44 4) || !dimOk (at_ v 48 4) then 0x17 else 0

/-- Status of a CHAIN's parameter block and chain block (R248, R250, R252): its M and N are fields out of range, and the checks of row
pitches are those of GEMM and GGEMM alone (R98). -/
def chainJobStatus (v : Nat) (blk addr : Nat) : Nat :=
  let p := paramsOf v
  if paramsMalformed v || !fmtValid p.fmta || chainBad blk 2 addr || p.b != 0 || p.c != 0 || p.sb != 0 || p.k != 0 || p.ldb != 0
      || p.bsb != 0 || p.bssb != 0 || p.fmtb != 0 || at_ v 115 1 != 0 || p.mode.srbits != 0 || p.splitk != 0 || p.stream != 0
      || !(dimOk p.m && dimOk p.n) then 0x10
  else if (chainOf blk).lastFmt != p.fmtd then 0x17
  else 0

/-- An output tile of a job. -/
structure OutTile where
  pr : Problem
  /-- Product, row strip and column, the strip's number across products, and the output tile's number. -/
  prob : Nat
  strip : Nat
  col : Nat
  no : Nat
  num : Nat
  deriving DecidableEq, Repr

def OutTile.rows (o : OutTile) : Nat := min 128 (o.pr.m - 128 * o.strip)
def OutTile.cols (o : OutTile) : Nat := min 128 (o.pr.n - 128 * o.col)
def OutTile.rowNos (o : OutTile) : List Nat := (List.range o.rows).map fun r => 128 * o.strip + r
def OutTile.colNos (o : OutTile) : List Nat := (List.range o.cols).map fun c => 128 * o.col + c

def outTile (j : Job) (t : Nat) : Option OutTile :=
  (findTile j.problems 0 t).map fun x =>
    { pr := x.1, prob := x.2.1, strip := x.2.2.1, col := x.2.2.2, no := stripNo j.problems x.2.1 x.2.2.1, num := t }

/-- Bytes of an output tile in D, with its MX scales where an epilogue gives D an MX format (R252). -/
def outSize (j : Job) (o : OutTile) : Nat :=
  o.rows * ((o.cols * fmtBits j.p.fmtd + 7) / 8)
    + (if j.epilogue.isSome && fmtMx j.p.fmtd then o.rows * ((o.cols + 31) / 32) else 0)

/-- Ledger mode of a job: 0 none, 1 CLOSE, 2 DEFER. -/
def ledgerMode (j : Job) : Nat := match j.epilogue with
  | some c => c.lmode
  | none => 0

/-- The strips of a job, counted across products. -/
def Job.strips (j : Job) : Nat := j.problems.foldl (fun n p => n + p.mt) 0

/-- A strip's output tiles. -/
def stripTiles (j : Job) (strip : Nat) : List OutTile :=
  match stripTile j.problems strip 0 with
  | some (p, _, first) => (List.range p.nt).filterMap fun i => outTile j (first + i)
  | none => []

/-- The bytes that a strip whose ledger cannot complete leaves unwritten: its ledger entries, and in CLOSE mode its part of D (R272). -/
def stripLoss (j : Job) (strip : Nat) : Nat :=
  let os := stripTiles j strip
  8 * (match os.head? with
    | some o => o.rows
    | none => 0) + (if ledgerMode j = 1 then (os.map (outSize j)).sum else 0)

/-- The checks of R269 on a job with a ledger, for a set of `n` tiles. -/
def ledgerStatus (j : Job) (n : Nat) : Nat :=
  match j.epilogue with
  | none => 0
  | some c =>
    let q := j.units / n
    if c.lmode ≠ 0 && (1 < j.p.splitk || (c.lmode == 1 &&
        decide (0x40_0000 < (q + 1) * 16384 * fmtBits ((c.stages.getD (c.split - 1) {}).ifmt) / 8))) then 0x17
    else 0

end Sys2Proof.Machine
end

