-- ==== Sys2Proof/Machine/Products.lean ====
section
/-! DEFINITION. Products and accumulation in a cell of the matrix engine: the block, group, single and integer paths, and sliced FP64
(R185 to R207). Operands are element codes with the scale bytes of their blocks. -/

namespace Sys2Proof.Machine

/-- The paths of Table 6.1. -/
inductive Path where
  | block | group | single | integer | sliced
  deriving DecidableEq, Repr

/-- The path of a pair that Table 6.1 lists, by its first format. -/
def pathOf (f : Nat) : Path :=
  if f = 0 then .sliced else if f = 1 then .single else if f = 2 ∨ f = 3 then .group
  else if f = 0x09 ∨ f = 0x0A then .integer else .block

/-- Products of one rounding step of a path (R192, R194 to R196). -/
def Path.step : Path → Nat
  | .block => 32 | .group => 8 | _ => 1

/-- Draw number `n` of the generator whose state is `x` (R168, R198). -/
def nthDraw (x : W64) (srbits : Nat) : Nat → Nat
  | 0 => (srDraw x srbits).2
  | n + 1 => nthDraw (srDraw x srbits).1 srbits n

/-- V of a block (R191 to R193): the exact sum of its products under both scales. Products of elements read as integers have no sign at
zero, so a sum of zero products is +0; one that cancels has the sign of R156. -/
def blockValue (rdn : Bool) (xa xb : Elem) (a b : List Nat) (sa sb : Nat) : FV :=
  if sa = 0xFF ∨ sb = 0xFF then .nan
  else
    let ps := (a.zip b).map fun p => mulF (elemValue xa p.1) (elemValue xb p.2)
    let v := sumF rdn ps
    if ps.all FV.isZero then .zero false else v.scale ((sa : Int) - 127 + ((sb : Int) - 127))

/-- Element `i` of `step` in a list of step values. -/
def stepSlice (xs : List Nat) (n g : Nat) : List Nat := (xs.drop (n * g)).take n

/-- One rounding step of a cell: the new accumulator, as the bits of its word, and the flush of the result and of an input. -/
def cellStep (fa fb : Nat) (a : AMode) (draw acc g : Nat) (as_ bs sas sbs : List Nat) : Nat × Bool × Bool :=
  let p := pathOf fa
  let xs := stepSlice as_ p.step g
  let ys := stepSlice bs p.step g
  let xa := (elemOf fa).getD .fixed8
  let xb := (elemOf fb).getD .fixed8
  match p with
  | .block =>
    let v := blockValue (a.rnd == 2) xa xb xs ys (if fmtMx fa then sas.getD g 0 else 0x7F) (if fmtMx fb then sbs.getD g 0 else 0x7F)
    let (r, fl) := encodeF fp32 a draw (addF (a.rnd == 2) (decodeF fp32 acc) v)
    (r, fl, false)
  | .integer =>
    let v := ((xs.zip ys).map fun p => (match xa, xb with
      | .int m, .int n => intOf m p.1 * intOf n p.2
      | _, _ => 0)).foldl (· + ·) 0
    (intCode 32 (intOf 32 acc + v), false, false)
  | _ =>
    let f := match xa with
      | .float f => f
      | _ => fp32
    let us := xs.map fun c => readF f a.ftz c
    let vs := ys.map fun c => readF f a.ftz c
    let prods := (us.zip vs).map fun p => mulF p.1.1 p.2.1
    let (r, fl) := encodeF fp32 a draw (sumF (a.rnd == 2) (decodeF fp32 acc :: prods))
    (r, fl, us.any (·.2) || vs.any (·.2))

/-- The rounding steps of a cell over its element codes in ascending k, from step number 0; `draw g` is the draw of step `g`. -/
def cellRun (fa fb : Nat) (a : AMode) (draw : Nat → Nat) (acc : Nat) (as_ bs sas sbs : List Nat) : Nat × Bool × Bool :=
  (List.range ((as_.length + (pathOf fa).step - 1) / (pathOf fa).step)).foldl (fun (x : Nat × Bool × Bool) g =>
    let y := cellStep fa fb a (draw g) x.1 g as_ bs sas sbs
    (y.1, x.2.1 || y.2.1, x.2.2 || y.2.2)) (acc, false, false)

/-! ## Sliced FP64 (R202 to R207) -/

/-- What MX.EXP keeps of a row or column: the largest finite magnitude as FP64 bits, and whether it holds a NaN or an infinity. -/
structure Expo where
  mag : Nat := 0
  special : Bool := false
  deriving DecidableEq, Repr

/-- The FP64 codes of a row or column taken into its exponent (R202): FP64 magnitudes order as their bits do. -/
def Expo.take (x : Expo) (ftz : Bool) (cs : List Nat) : Expo :=
  cs.foldl (fun x c =>
    match (readF fp64 ftz c).1 with
    | .fin _ 0 _ => x
    | .fin _ _ _ => { x with mag := max x.mag (c % 2 ^ 63) }
    | _ => { x with special := true }) x

/-- E_r or F_c (R202), none for a zero row or column. -/
def Expo.exp (x : Expo) : Option Int := if x.mag = 0 then none else some ((decodeF fp64 x.mag).log2 + 1)

/-- The digits d[0] to d[7] of a value against an exponent (R203). -/
def digitsOf (v : FV) (e : Option Int) : List Int :=
  match v, e with
  | .fin s m k, some e =>
    let n : Int := roundMag {} 0 s m (k + 62 - e) 0
    let x0 : Int := if s then -n else n
    let (ds, x) := (List.range 7).foldl (fun (acc : List Int × Int) _ =>
      let q := (acc.2 + 128).fdiv 256
      ((acc.2 - 256 * q) :: acc.1, q)) ([], x0)
    x :: ds
  | _, _ => List.replicate 8 0

/-- Two's complement of 128 bits (R204). -/
def wrap128 (n : Int) : Int := intOf 128 (intCode 128 n)

/-- Some digit product of a k that the 36 passes form is not zero. -/
def slicedLive (a b : List Int) : Bool :=
  (List.range 8).any fun i => (List.range (8 - i)).any fun j => a.getD i 0 != 0 && b.getD j 0 != 0

/-- The sum that the 36 passes add to a cell for one k (R204). -/
def slicedTerm (a b : List Int) : Int :=
  (List.range 8).foldl (fun acc i => (List.range (8 - i)).foldl (fun acc j =>
    acc + a.getD i 0 * b.getD j 0 * 256 ^ (7 - i - j)) acc) 0

/-- The value of a cell's fixed-point accumulator, rounded once (R205); a sum of nonzero terms that cancels has the sign of R156. -/
def slicedResult (a : AMode) (draw : Nat) (acc : Int) (live : Bool) (e f : Option Int) : Nat × Bool :=
  match e, f with
  | some e, some f =>
    encodeF fp64 a draw (if acc = 0 then .zero (live && a.rnd == 2) else .scale (.ofInt acc) (e + f - 68))
  | _, _ => encodeF fp64 a draw (.zero false)

/-- What the products of a chunk add to the value of a special element (R207): the IEEE 754-2019 value of the exact sum. -/
def specialSum (ftz : Bool) (as_ bs : List Nat) : FV :=
  sumF false ((as_.zip bs).map fun p => mulF (readF fp64 ftz p.1).1 (readF fp64 ftz p.2).1)

end Sys2Proof.Machine
end

