-- ==== Sys2Proof/Machine/Regs.lean ====
section
/-! DEFINITION. The register map: the fields of Tables 2.4 to 22.7 at their BAR0 offsets (Tables 22.2 and 22.5, R598, R599,
R607). A register's fields are held one by one; registers that only show other state (pigeonholes, ring contexts, tile
sets, event-controller arrays, records) have no field here and are formed when they are read. -/

namespace Sys2Proof.Machine

/-- One field of a register: the BAR0 offset of its register, its lowest bit, its width, and its reset value. -/
structure Fld where
  off : Nat
  lo : Nat
  len : Nat
  reset : Nat := 0
  deriving DecidableEq, Repr

/-- The key under which a field is held. -/
def Fld.key (f : Fld) : Nat := f.off * 64 + f.lo

/-- Access codes of Table 0.3. -/
inductive Acc where
  | ro | rw | w1c | w1s | wo
  deriving DecidableEq, Repr

/-- Retention classes of Table 22.4. -/
inductive Cls where
  | t | r | l | q | x | e | p | c | f | s | i | z | h | g
  deriving DecidableEq, Repr

/-- The registers of Table 22.5, and the records and windows it lists. -/
inductive Reg where
  | GBL_ID
  | GBL_SERIAL0
  | GBL_SERIAL1
  | GBL_CAP
  | GBL_CTL
  | GBL_STAT
  | GBL_FOREIGN_CNT
  | GBL_SCRATCH
  | NT_NOW
  | NT_CTL
  | NT_FREQ
  | NT_STEP
  | NT_STAT
  | NT_PPSCAP
  | NT_PPSCOMP
  | NT_ALARM
  | RND_CTL
  | RND_PERIOD
  | RND_NUM
  | RND_STAT
  | RND_SKIP_CNT
  | RND_LATE_CNT
  | RND_EXCUSED_CNT
  | NF_SRSEED
  | NF_SRCTL
  | CT_CTL
  | CT_TSET
  | CT_TOKDROP_CNT
  | CT_TOKSAT_CNT
  | CT_SPCORR_CNT
  | CT_SPUNC_CNT
  | CT_TRAP_CNT
  | TG_CTL
  | TG_RESIDENT
  | TG_TRAP_CNT
  | TG_MISMATCH_CNT
  | TG_BWDOG_CNT
  | TG_AMOCOMB_CNT
  | MEM_CTL
  | MEM_T1SIZE
  | MEM_PRIO
  | MEM_RAS
  | MEM_STAT
  | MEM_LOCWIN
  | MEM_DSTAT
  | MEM_CORR_CNT
  | MEM_UNC_CNT
  | MEM_SCRUB_POS
  | MEM_RETIRE
  | COH_STAT
  | COH_HCFG
  | COH_DIR_OCC
  | COH_DIRBI_CNT
  | COH_WBDISC_CNT
  | COH_CROSS_CNT
  | COH_DENY_CNT
  | COH_UNC_CNT
  | COH_PROTERR_CNT
  | MO_CTL
  | MO_STAT
  | MO_DISC_CNT
  | MO_LOADTO_CNT
  | MO_LATEACK_CNT
  | MO_DRAINDROP_CNT
  | MO_RGN_BASE
  | MO_RGN_LAST
  | MO_RGN_CTL
  | FL_CTL
  | FL_STAT
  | FL_MAPPED
  | FL_LIFE
  | FL_CORR_CNT
  | FL_UNC_CNT
  | FL_RELOC_CNT
  | PM_REFUSE_CNT
  | PM_STALL_CNT
  | FL_CHSTAT
  | LR_CTL
  | LR_STAT
  | LR_TRANS_CNT
  | LR_RETIRE_CNT
  | LR_FENCEDROP_CNT
  | LR_DISAGREE_CNT
  | LR_LSTAT
  | LR_CRC_CNT
  | LR_REPLAY_CNT
  | LR_RECAL_CNT
  | LR_FMAP_TILE
  | LR_FMAP_CORE
  | CG_CTL
  | CG_STAT
  | CG_REFUSE_CNT
  | CG_HOLD_CNT
  | CG_WBASE
  | CG_WLAST
  | CG_WCTL
  | PW_CTL
  | PW_STAT
  | PW_SUP
  | PW_CAP
  | PW_THERM
  | PW_DROOP
  | PW_EST
  | PW_BROWN_CNT
  | PW_THROT_CNT
  | PW_RLIM
  | PW_RSTAT
  | PW_RLEAK
  | PW_ROVER_CNT
  | PW_DROOP_CNT
  | PW_WGT
  | HP_CTL
  | HP_STAT
  | HP_W4BASE
  | HP_ATTACH
  | HP_UR_CNT
  | HP_REFUSE_CNT
  | HP_DATADROP_CNT
  | HP_HELDDROP_CNT
  | HP_ATREC
  | OB_PCTL
  | OB_PSTAT
  | OB_XLAT
  | OB_UR_CNT
  | OB_REFUSE_CNT
  | OB_WBASE
  | OB_WLAST
  | OB_WCTL
  | OB_PMAP
  | TC_STAT
  | TC_CRC_CNT
  | TC_TTLDROP_CNT
  | TC_FWDDROP_CNT
  | ST_STAT
  | ST_RESET
  | ST_SRC
  | ST_LEN
  | ST_GO
  | ST_REC
  | TRL_STAT
  | TRL_BVER
  | TRL_SVN
  | TRL_UCREV
  | TRL_AUTHFAIL_CNT
  | TRL_DBGDENY_CNT
  | TRL_SLOT
  | TRL_MB1_DOOR
  | TRL_MB2_DOOR
  | TRL_MB1_REQ
  | TRL_MB1_RSP
  | TRL_MB2_REQ
  | TRL_MB2_RSP
  | MSIX_TABLE
  | MSIX_PBA
  | DL_TAIL
  | DL_NODE
  | DL_ENTRY
  | TR_CTL
  | TR_STAT
  | TR_FAULT_CNT
  | TR_TIMEOUT_CNT
  | TR_BADRES_CNT
  | TR_CTXNUM
  | TR_FRCTX
  | TR_RESUME
  | EC_CTL
  | EC_STAT
  | EC_PEND
  | EC_MASK
  | EC_UNMASK
  | EC_BADCMPL_CNT
  | EC_WAKESRC
  | EC_SRC
  | EC_NMUW
  | EC_PEND_SET
  | EC_PEND_CLR
  | EC_MASK_SET
  | EC_MASK_CLR
  | EC_CLAIM
  | EC_COMPLETE
  | EC_TSTAT
  | SORT_CTL
  | SORT_STAT
  | SORT_ADMIT_CNT
  | SORT_DEFER_CNT
  | SORT_REJECT_CNT
  | SORT_CRSTALL_CNT
  | SORT_REC_CNT
  | SORT_QCTX
  | SORT_CRCTX
  | SORT_TSET
  | SORT_LEDGER
  deriving DecidableEq, Repr

/-- A field of a register in the map. `locked`: it accepts writes only while MEM_CTL.LOCK is 0 (R604). -/
structure FieldRow where
  lo : Nat
  len : Nat
  acc : Acc
  reset : Nat
  cls : Cls
  locked : Bool := false
  deriving DecidableEq, Repr

/-- A register in the map: `count` registers of `bytes` bytes, the first at `off`, `stride` apart. -/
structure RegRow where
  reg : Reg
  off : Nat
  stride : Nat
  count : Nat
  bytes : Nat
  fields : List FieldRow
  deriving DecidableEq, Repr

/-- Reset values of PW_RLIM.LIMIT in A, rails 0 to 15 (Table 17.1). -/
def railLimit (r : Nat) : Nat :=
  [600, 600, 600, 600, 600, 600, 600, 600, 240, 240, 240, 240, 420, 360, 100, 125].getD r 0

/-! Fields of the registers, by register name and field name. -/

def Reg.GBL_CTL.IDPUB : Fld := ⟨0x20, 0, 1, 0⟩
def Reg.GBL_STAT.FOREIGN : Fld := ⟨0x28, 2, 1, 0⟩
def Reg.GBL_STAT.WIDTHERR : Fld := ⟨0x28, 1, 1, 0⟩
def Reg.GBL_STAT.CFGERR : Fld := ⟨0x28, 0, 1, 0⟩
def Reg.GBL_FOREIGN_CNT.COUNT : Fld := ⟨0x30, 0, 48, 0⟩
def Reg.GBL_SCRATCH.VALUE (n : Nat) : Fld := ⟨0x40 + 8 * n, 0, 64, 0⟩
def Reg.NT_NOW.NOW : Fld := ⟨0x10000, 0, 64, 0⟩
def Reg.NT_CTL.PPSEDGE : Fld := ⟨0x10008, 2, 1, 0⟩
def Reg.NT_CTL.PPSAUTO : Fld := ⟨0x10008, 1, 1, 0⟩
def Reg.NT_CTL.PPSEN : Fld := ⟨0x10008, 0, 1, 0⟩
def Reg.NT_FREQ.FREQ : Fld := ⟨0x10010, 0, 40, 0⟩
def Reg.NT_STAT.PPSFAR : Fld := ⟨0x10020, 3, 1, 0⟩
def Reg.NT_STAT.PPSSEEN : Fld := ⟨0x10020, 2, 1, 0⟩
def Reg.NT_STAT.STEPERR : Fld := ⟨0x10020, 1, 1, 0⟩
def Reg.NT_STAT.HOLDING : Fld := ⟨0x10020, 0, 1, 0⟩
def Reg.NT_PPSCAP.CAP : Fld := ⟨0x10028, 0, 64, 0⟩
def Reg.NT_PPSCOMP.COMP : Fld := ⟨0x10030, 0, 16, 0⟩
def Reg.NT_ALARM.ALARM : Fld := ⟨0x10038, 0, 64, 0xffffffffffffffff⟩
def Reg.RND_CTL.MAINT : Fld := ⟨0x10040, 1, 2, 1⟩
def Reg.RND_CTL.EN : Fld := ⟨0x10040, 0, 1, 0⟩
def Reg.RND_PERIOD.PERIOD : Fld := ⟨0x10048, 0, 14, 100⟩
def Reg.RND_NUM.NUM : Fld := ⟨0x10050, 0, 48, 0⟩
def Reg.RND_STAT.CFGERR : Fld := ⟨0x10058, 0, 1, 0⟩
def Reg.RND_SKIP_CNT.COUNT : Fld := ⟨0x10060, 0, 48, 0⟩
def Reg.RND_LATE_CNT.COUNT : Fld := ⟨0x10068, 0, 48, 0⟩
def Reg.RND_EXCUSED_CNT.COUNT : Fld := ⟨0x10070, 0, 48, 0⟩
def Reg.NF_SRSEED.SEED : Fld := ⟨0x20000, 0, 64, 0⟩
def Reg.NF_SRCTL.TILEMIX : Fld := ⟨0x20008, 0, 1, 1⟩
def Reg.CT_CTL.WDOG : Fld := ⟨0x30000, 0, 8, 16⟩
def Reg.CT_TSET.VALID (n : Nat) : Fld := ⟨0x31000 + 64 * n, 10, 1, 0⟩
def Reg.CT_TSET.TSET (n : Nat) : Fld := ⟨0x31000 + 64 * n, 0, 10, 0⟩
def Reg.CT_TOKDROP_CNT.COUNT (n : Nat) : Fld := ⟨0x31008 + 64 * n, 0, 48, 0⟩
def Reg.CT_TOKSAT_CNT.COUNT (n : Nat) : Fld := ⟨0x31010 + 64 * n, 0, 48, 0⟩
def Reg.CT_SPCORR_CNT.COUNT (n : Nat) : Fld := ⟨0x31018 + 64 * n, 0, 48, 0⟩
def Reg.CT_SPUNC_CNT.COUNT (n : Nat) : Fld := ⟨0x31020 + 64 * n, 0, 48, 0⟩
def Reg.CT_TRAP_CNT.COUNT (n : Nat) : Fld := ⟨0x31028 + 64 * n, 0, 48, 0⟩
def Reg.TG_CTL.BWDOG : Fld := ⟨0x40000, 0, 8, 4⟩
def Reg.TG_TRAP_CNT.COUNT (n : Nat) : Fld := ⟨0x41008 + 64 * n, 0, 48, 0⟩
def Reg.TG_MISMATCH_CNT.COUNT (n : Nat) : Fld := ⟨0x41010 + 64 * n, 0, 48, 0⟩
def Reg.TG_BWDOG_CNT.COUNT (n : Nat) : Fld := ⟨0x41018 + 64 * n, 0, 48, 0⟩
def Reg.TG_AMOCOMB_CNT.COUNT (n : Nat) : Fld := ⟨0x41020 + 64 * n, 0, 48, 0⟩
def Reg.MEM_CTL.T1EN : Fld := ⟨0x50000, 16, 16, 0⟩
def Reg.MEM_CTL.SCRUBEN : Fld := ⟨0x50000, 1, 1, 1⟩
def Reg.MEM_CTL.LOCK : Fld := ⟨0x50000, 0, 1, 0⟩
def Reg.MEM_PRIO.AGE3 : Fld := ⟨0x50010, 32, 16, 16000⟩
def Reg.MEM_PRIO.AGE2 : Fld := ⟨0x50010, 16, 16, 4000⟩
def Reg.MEM_PRIO.AGE1 : Fld := ⟨0x50010, 0, 16, 2000⟩
def Reg.MEM_RAS.CETHR : Fld := ⟨0x50018, 0, 8, 16⟩
def Reg.MEM_STAT.RETFULL : Fld := ⟨0x50020, 3, 1, 0⟩
def Reg.MEM_STAT.RETPEND : Fld := ⟨0x50020, 2, 1, 0⟩
def Reg.MEM_STAT.HOT : Fld := ⟨0x50020, 1, 1, 0⟩
def Reg.MEM_STAT.CFGERR : Fld := ⟨0x50020, 0, 1, 0⟩
def Reg.MEM_LOCWIN.SIZEM1 (n : Nat) : Fld := ⟨0x50100 + 8 * n, 9, 6, 0⟩
def Reg.MEM_LOCWIN.BASE (n : Nat) : Fld := ⟨0x50100 + 8 * n, 3, 6, 0⟩
def Reg.MEM_LOCWIN.EN (n : Nat) : Fld := ⟨0x50100 + 8 * n, 0, 1, 0⟩
def Reg.MEM_DSTAT.TEMP (n : Nat) : Fld := ⟨0x51000 + 64 * n, 8, 8, 0⟩
def Reg.MEM_DSTAT.REFMUL (n : Nat) : Fld := ⟨0x51000 + 64 * n, 4, 2, 0⟩
def Reg.MEM_DSTAT.THROT (n : Nat) : Fld := ⟨0x51000 + 64 * n, 3, 1, 0⟩
def Reg.MEM_DSTAT.PRESENT (n : Nat) : Fld := ⟨0x51000 + 64 * n, 0, 1, 0⟩
def Reg.MEM_CORR_CNT.COUNT (n : Nat) : Fld := ⟨0x51008 + 64 * n, 0, 48, 0⟩
def Reg.MEM_UNC_CNT.COUNT (n : Nat) : Fld := ⟨0x51010 + 64 * n, 0, 48, 0⟩
def Reg.MEM_SCRUB_POS.PASS (n : Nat) : Fld := ⟨0x51018 + 64 * n, 48, 16, 0⟩
def Reg.MEM_SCRUB_POS.NEXT (n : Nat) : Fld := ⟨0x51018 + 64 * n, 0, 36, 0⟩
def Reg.MEM_RETIRE.GRANULE (n : Nat) : Fld := ⟨0x52000 + 8 * n, 21, 31, 0⟩
def Reg.MEM_RETIRE.CAUSE (n : Nat) : Fld := ⟨0x52000 + 8 * n, 3, 2, 0⟩
def Reg.MEM_RETIRE.STATE (n : Nat) : Fld := ⟨0x52000 + 8 * n, 1, 2, 0⟩
def Reg.COH_STAT.CFGERR : Fld := ⟨0x60000, 1, 1, 0⟩
def Reg.COH_STAT.PROTERR : Fld := ⟨0x60000, 0, 1, 0⟩
/-- COH_HCFG.RSIZE; the reset value of the hub's window, window 4, is 0 (Table 11.12). -/
def Reg.COH_HCFG.RSIZE (n : Nat) : Fld := ⟨0x61000 + 64 * n, 0, 3, if n = 4 then 0 else 2⟩
def Reg.COH_DIRBI_CNT.COUNT (n : Nat) : Fld := ⟨0x61010 + 64 * n, 0, 48, 0⟩
def Reg.COH_WBDISC_CNT.COUNT (n : Nat) : Fld := ⟨0x61018 + 64 * n, 0, 48, 0⟩
def Reg.COH_CROSS_CNT.COUNT (n : Nat) : Fld := ⟨0x61020 + 64 * n, 0, 48, 0⟩
def Reg.COH_DENY_CNT.COUNT (n : Nat) : Fld := ⟨0x61028 + 64 * n, 0, 48, 0⟩
def Reg.COH_UNC_CNT.COUNT (n : Nat) : Fld := ⟨0x61030 + 64 * n, 0, 48, 0⟩
def Reg.COH_PROTERR_CNT.COUNT (n : Nat) : Fld := ⟨0x61038 + 64 * n, 0, 48, 0⟩
def Reg.MO_CTL.DRAINTO : Fld := ⟨0x70000, 20, 10, 100⟩
def Reg.MO_CTL.DEFTO : Fld := ⟨0x70000, 0, 20, 2000⟩
def Reg.MO_STAT.UNCLEAN : Fld := ⟨0x70008, 2, 1, 0⟩
def Reg.MO_STAT.DISCARD : Fld := ⟨0x70008, 1, 1, 0⟩
def Reg.MO_STAT.CFGERR : Fld := ⟨0x70008, 0, 1, 0⟩
def Reg.MO_DISC_CNT.COUNT : Fld := ⟨0x70010, 0, 48, 0⟩
def Reg.MO_LOADTO_CNT.COUNT : Fld := ⟨0x70018, 0, 48, 0⟩
def Reg.MO_LATEACK_CNT.COUNT : Fld := ⟨0x70020, 0, 48, 0⟩
def Reg.MO_DRAINDROP_CNT.COUNT : Fld := ⟨0x70028, 0, 48, 0⟩
def Reg.MO_RGN_BASE.BASE (n : Nat) : Fld := ⟨0x71000 + 32 * n, 12, 40, 0⟩
def Reg.MO_RGN_LAST.LAST (n : Nat) : Fld := ⟨0x71008 + 32 * n, 12, 40, 0⟩
def Reg.MO_RGN_CTL.TOUT (n : Nat) : Fld := ⟨0x71010 + 32 * n, 4, 20, 0⟩
def Reg.MO_RGN_CTL.TYPE (n : Nat) : Fld := ⟨0x71010 + 32 * n, 1, 2, 0⟩
def Reg.MO_RGN_CTL.EN (n : Nat) : Fld := ⟨0x71010 + 32 * n, 0, 1, 0⟩
def Reg.FL_CTL.RECLAIM : Fld := ⟨0x80000, 16, 8, 8⟩
def Reg.FL_CTL.RDTHR : Fld := ⟨0x80000, 0, 16, 100⟩
def Reg.FL_STAT.CFGERR : Fld := ⟨0x80008, 3, 1, 0⟩
def Reg.FL_STAT.FULL : Fld := ⟨0x80008, 2, 1, 0⟩
def Reg.FL_STAT.DEGRADED : Fld := ⟨0x80008, 1, 1, 0⟩
def Reg.FL_STAT.READY : Fld := ⟨0x80008, 0, 1, 0⟩
def Reg.FL_LIFE.PCT : Fld := ⟨0x80018, 0, 8, 0⟩
def Reg.FL_CORR_CNT.COUNT : Fld := ⟨0x80020, 0, 48, 0⟩
def Reg.FL_UNC_CNT.COUNT : Fld := ⟨0x80028, 0, 48, 0⟩
def Reg.FL_RELOC_CNT.COUNT : Fld := ⟨0x80030, 0, 48, 0⟩
def Reg.PM_REFUSE_CNT.COUNT : Fld := ⟨0x80038, 0, 48, 0⟩
def Reg.PM_STALL_CNT.COUNT (n : Nat) : Fld := ⟨0x80100 + 8 * n, 0, 48, 0⟩
def Reg.FL_CHSTAT.TEMP (n : Nat) : Fld := ⟨0x80200 + 4 * n, 8, 8, 0⟩
def Reg.FL_CHSTAT.STATE (n : Nat) : Fld := ⟨0x80200 + 4 * n, 0, 2, 0⟩
def Reg.LR_CTL.CEBOND : Fld := ⟨0x90000, 8, 8, 4⟩
def Reg.LR_CTL.TRTHR : Fld := ⟨0x90000, 0, 8, 3⟩
def Reg.LR_STAT.NORECORD : Fld := ⟨0x90008, 4, 1, 0⟩
def Reg.LR_STAT.NOSPARE : Fld := ⟨0x90008, 3, 1, 0⟩
def Reg.LR_STAT.DEGRADED : Fld := ⟨0x90008, 2, 1, 0⟩
def Reg.LR_STAT.RETIRED : Fld := ⟨0x90008, 1, 1, 0⟩
def Reg.LR_STAT.CFGERR : Fld := ⟨0x90008, 0, 1, 0⟩
def Reg.LR_TRANS_CNT.COUNT : Fld := ⟨0x90010, 0, 48, 0⟩
def Reg.LR_RETIRE_CNT.COUNT : Fld := ⟨0x90018, 0, 48, 0⟩
def Reg.LR_FENCEDROP_CNT.COUNT : Fld := ⟨0x90020, 0, 48, 0⟩
def Reg.LR_DISAGREE_CNT.COUNT : Fld := ⟨0x90028, 0, 48, 0⟩
def Reg.LR_LSTAT.BUNDLES (n : Nat) : Fld := ⟨0x91000 + 32 * n, 8, 6, 0⟩
def Reg.LR_LSTAT.WIDTH (n : Nat) : Fld := ⟨0x91000 + 32 * n, 0, 2, 0⟩
def Reg.LR_CRC_CNT.COUNT (n : Nat) : Fld := ⟨0x91008 + 32 * n, 0, 48, 0⟩
def Reg.LR_REPLAY_CNT.COUNT (n : Nat) : Fld := ⟨0x91010 + 32 * n, 0, 48, 0⟩
def Reg.LR_RECAL_CNT.COUNT (n : Nat) : Fld := ⟨0x91018 + 32 * n, 0, 48, 0⟩
def Reg.CG_CTL.ALARMTHR : Fld := ⟨0xa0000, 1, 16, 256⟩
def Reg.CG_CTL.EN : Fld := ⟨0xa0000, 0, 1, 0⟩
def Reg.CG_STAT.LINKUP : Fld := ⟨0xa0008, 2, 1, 0⟩
def Reg.CG_STAT.PRESENT : Fld := ⟨0xa0008, 1, 1, 0⟩
def Reg.CG_STAT.CFGERR : Fld := ⟨0xa0008, 0, 1, 0⟩
def Reg.CG_REFUSE_CNT.COUNT : Fld := ⟨0xa0010, 0, 48, 0⟩
def Reg.CG_HOLD_CNT.COUNT : Fld := ⟨0xa0018, 0, 48, 0⟩
def Reg.CG_WBASE.BASE (n : Nat) : Fld := ⟨0xa0100 + 24 * n, 12, 40, 0⟩
def Reg.CG_WLAST.LAST (n : Nat) : Fld := ⟨0xa0108 + 24 * n, 12, 40, 0⟩
def Reg.CG_WCTL.EN (n : Nat) : Fld := ⟨0xa0110 + 24 * n, 63, 1, 0⟩
def Reg.CG_WCTL.RATE (n : Nat) : Fld := ⟨0xa0110 + 24 * n, 32, 16, 0⟩
def Reg.CG_WCTL.TYPES (n : Nat) : Fld := ⟨0xa0110 + 24 * n, 16, 3, 0⟩
def Reg.CG_WCTL.CTXID (n : Nat) : Fld := ⟨0xa0110 + 24 * n, 0, 16, 0⟩
def Reg.PW_CTL.DOZEEN : Fld := ⟨0xb0000, 16, 1, 1⟩
def Reg.PW_CTL.DOZEIDLE : Fld := ⟨0xb0000, 0, 16, 2000⟩
def Reg.PW_STAT.OVER : Fld := ⟨0xb0008, 5, 1, 0⟩
def Reg.PW_STAT.CALDRIFT : Fld := ⟨0xb0008, 4, 1, 0⟩
def Reg.PW_STAT.ENTFAIL : Fld := ⟨0xb0008, 3, 1, 0⟩
def Reg.PW_STAT.BROWN : Fld := ⟨0xb0008, 2, 1, 0⟩
def Reg.PW_STAT.THROT : Fld := ⟨0xb0008, 1, 1, 0⟩
def Reg.PW_STAT.CFGERR : Fld := ⟨0xb0008, 0, 1, 0⟩
def Reg.PW_SUP.VIN : Fld := ⟨0xb0010, 12, 10, 0⟩
def Reg.PW_SUP.HYST : Fld := ⟨0xb0010, 6, 6, 10⟩
def Reg.PW_SUP.WARN : Fld := ⟨0xb0010, 0, 6, 10⟩
def Reg.PW_CAP.WIN : Fld := ⟨0xb0018, 24, 8, 50⟩
def Reg.PW_CAP.WATTS : Fld := ⟨0xb0018, 0, 13, 4800⟩
def Reg.PW_THERM.THROT : Fld := ⟨0xb0020, 16, 8, 100⟩
def Reg.PW_THERM.WARN : Fld := ⟨0xb0020, 8, 8, 95⟩
def Reg.PW_THERM.MAXT : Fld := ⟨0xb0020, 0, 8, 0⟩
def Reg.PW_DROOP.THR : Fld := ⟨0xb0028, 0, 6, 35⟩
def Reg.PW_EST.G : Fld := ⟨0xb0030, 16, 5, 16⟩
def Reg.PW_EST.WATTS : Fld := ⟨0xb0030, 0, 13, 0⟩
def Reg.PW_BROWN_CNT.COUNT : Fld := ⟨0xb0038, 0, 48, 0⟩
def Reg.PW_THROT_CNT.COUNT : Fld := ⟨0xb0040, 0, 48, 0⟩
def Reg.PW_RLIM.WIN (n : Nat) : Fld := ⟨0xb1000 + 32 * n, 16, 6, 10⟩
/-- PW_RLIM.LIMIT; its reset value is the limit of Table 17.1. -/
def Reg.PW_RLIM.LIMIT (n : Nat) : Fld := ⟨0xb1000 + 32 * n, 0, 10, railLimit n⟩
def Reg.PW_RSTAT.FRAC (n : Nat) : Fld := ⟨0xb1008 + 32 * n, 16, 5, 16⟩
def Reg.PW_RSTAT.EST (n : Nat) : Fld := ⟨0xb1008 + 32 * n, 0, 16, 0⟩
def Reg.PW_RLEAK.LEAK (n : Nat) : Fld := ⟨0xb1010 + 32 * n, 0, 16, 0⟩
def Reg.PW_ROVER_CNT.COUNT (n : Nat) : Fld := ⟨0xb1018 + 32 * n, 0, 48, 0⟩
def Reg.PW_DROOP_CNT.COUNT (n : Nat) : Fld := ⟨0xb1800 + 8 * n, 0, 48, 0⟩
def Reg.PW_WGT.WEIGHT (n : Nat) : Fld := ⟨0xb2000 + 8 * n, 0, 24, 0⟩
def Reg.HP_CTL.PERSTRST : Fld := ⟨0xc0000, 0, 1, 1⟩
def Reg.HP_STAT.CFGERR : Fld := ⟨0xc0008, 3, 1, 0⟩
def Reg.HP_STAT.SESSION : Fld := ⟨0xc0008, 2, 1, 0⟩
def Reg.HP_STAT.LINKUP : Fld := ⟨0xc0008, 1, 1, 0⟩
def Reg.HP_STAT.DETACHED : Fld := ⟨0xc0008, 0, 1, 0⟩
def Reg.HP_W4BASE.BASE : Fld := ⟨0xc0010, 20, 32, 0⟩
def Reg.HP_UR_CNT.COUNT : Fld := ⟨0xc0020, 0, 48, 0⟩
def Reg.HP_REFUSE_CNT.COUNT : Fld := ⟨0xc0028, 0, 48, 0⟩
def Reg.HP_DATADROP_CNT.COUNT : Fld := ⟨0xc0030, 0, 48, 0⟩
def Reg.HP_HELDDROP_CNT.COUNT : Fld := ⟨0xc0038, 0, 48, 0⟩
def Reg.OB_PCTL.EN (n : Nat) : Fld := ⟨0xd1000 + 64 * n, 16, 1, 0⟩
def Reg.OB_PCTL.DEFCTX (n : Nat) : Fld := ⟨0xd1000 + 64 * n, 0, 16, 1⟩
def Reg.OB_PSTAT.RATE (n : Nat) : Fld := ⟨0xd1008 + 64 * n, 8, 4, 0⟩
def Reg.OB_PSTAT.WIDTH (n : Nat) : Fld := ⟨0xd1008 + 64 * n, 5, 3, 0⟩
def Reg.OB_XLAT.BUS (n : Nat) : Fld := ⟨0xd1010 + 64 * n, 0, 64, 0⟩
def Reg.OB_UR_CNT.COUNT (n : Nat) : Fld := ⟨0xd1018 + 64 * n, 0, 48, 0⟩
def Reg.OB_REFUSE_CNT.COUNT (n : Nat) : Fld := ⟨0xd1020 + 64 * n, 0, 48, 0⟩
def Reg.OB_WBASE.PAGE (n : Nat) : Fld := ⟨0xd2000 + 24 * n, 12, 40, 0⟩
def Reg.OB_WLAST.PAGE (n : Nat) : Fld := ⟨0xd2008 + 24 * n, 12, 40, 0⟩
def Reg.OB_WCTL.EN (n : Nat) : Fld := ⟨0xd2010 + 24 * n, 31, 1, 0⟩
def Reg.OB_WCTL.W (n : Nat) : Fld := ⟨0xd2010 + 24 * n, 17, 1, 0⟩
def Reg.OB_WCTL.R (n : Nat) : Fld := ⟨0xd2010 + 24 * n, 16, 1, 0⟩
def Reg.OB_WCTL.CTXID (n : Nat) : Fld := ⟨0xd2010 + 24 * n, 0, 16, 0⟩
def Reg.OB_PMAP.EN (n : Nat) : Fld := ⟨0xd3000 + 8 * n, 63, 1, 0⟩
def Reg.OB_PMAP.PORTS (n : Nat) : Fld := ⟨0xd3000 + 8 * n, 36, 4, 0⟩
def Reg.OB_PMAP.PASID (n : Nat) : Fld := ⟨0xd3000 + 8 * n, 16, 20, 0⟩
def Reg.OB_PMAP.CTXID (n : Nat) : Fld := ⟨0xd3000 + 8 * n, 0, 16, 0⟩
def Reg.TC_STAT.BYPASS : Fld := ⟨0xe0000, 7, 1, 1⟩
def Reg.TC_STAT.ADDR : Fld := ⟨0xe0000, 0, 7, 0⟩
def Reg.TC_CRC_CNT.COUNT : Fld := ⟨0xe0008, 0, 48, 0⟩
def Reg.TC_TTLDROP_CNT.COUNT : Fld := ⟨0xe0010, 0, 48, 0⟩
def Reg.TC_FWDDROP_CNT.COUNT : Fld := ⟨0xe0018, 0, 48, 0⟩
def Reg.ST_STAT.CFGERR : Fld := ⟨0xf0000, 7, 1, 0⟩
def Reg.ST_STAT.LOADERR : Fld := ⟨0xf0000, 6, 1, 0⟩
def Reg.ST_STAT.STATE : Fld := ⟨0xf0000, 0, 4, 0⟩
def Reg.ST_SRC.ADDR : Fld := ⟨0xf0010, 12, 52, 0⟩
def Reg.ST_LEN.LEN : Fld := ⟨0xf0018, 0, 27, 0⟩
def Reg.TRL_STAT.CFGERR : Fld := ⟨0x100000, 5, 1, 0⟩
def Reg.TRL_STAT.MB2BUSY : Fld := ⟨0x100000, 4, 1, 0⟩
def Reg.TRL_STAT.MB1BUSY : Fld := ⟨0x100000, 3, 1, 0⟩
def Reg.TRL_STAT.TAMPER : Fld := ⟨0x100000, 2, 1, 0⟩
def Reg.TRL_STAT.IDOK : Fld := ⟨0x100000, 1, 1, 0⟩
def Reg.TRL_STAT.BOOTED : Fld := ⟨0x100000, 0, 1, 0⟩
def Reg.TRL_BVER.VERSION : Fld := ⟨0x100008, 0, 32, 0⟩
def Reg.TRL_SVN.SVN : Fld := ⟨0x100010, 0, 32, 0⟩
def Reg.TRL_UCREV.UCREV : Fld := ⟨0x100018, 0, 32, 0⟩
def Reg.TRL_AUTHFAIL_CNT.COUNT : Fld := ⟨0x100020, 0, 48, 0⟩
def Reg.TRL_DBGDENY_CNT.COUNT : Fld := ⟨0x100028, 0, 48, 0⟩
def Reg.DL_TAIL.TAIL : Fld := ⟨0x180000, 0, 32, 0⟩
def Reg.DL_NODE.NODE : Fld := ⟨0x180008, 0, 20, 0⟩
def Reg.TR_CTL.INITOWN : Fld := ⟨0x200000, 0, 16, 1⟩
def Reg.TR_STAT.FRFULL : Fld := ⟨0x200008, 2, 1, 0⟩
def Reg.TR_STAT.BADRES : Fld := ⟨0x200008, 1, 1, 0⟩
def Reg.TR_STAT.CFGERR : Fld := ⟨0x200008, 0, 1, 0⟩
def Reg.TR_FAULT_CNT.COUNT : Fld := ⟨0x200010, 0, 48, 0⟩
def Reg.TR_TIMEOUT_CNT.COUNT : Fld := ⟨0x200018, 0, 48, 0⟩
def Reg.TR_BADRES_CNT.COUNT : Fld := ⟨0x200020, 0, 48, 0⟩
def Reg.EC_CTL.MAINT : Fld := ⟨0x400000, 0, 1, 1⟩
def Reg.EC_STAT.BADCMPL : Fld := ⟨0x400008, 1, 1, 0⟩
def Reg.EC_STAT.CFGERR : Fld := ⟨0x400008, 0, 1, 0⟩
def Reg.EC_BADCMPL_CNT.COUNT : Fld := ⟨0x400028, 0, 48, 0⟩
def Reg.EC_WAKESRC.VALID : Fld := ⟨0x400030, 31, 1, 0⟩
def Reg.EC_WAKESRC.SRC : Fld := ⟨0x400030, 0, 10, 0⟩
def Reg.EC_NMUW.EN (n : Nat) : Fld := ⟨0x403000 + 8 * n, 31, 1, 0⟩
def Reg.EC_NMUW.SRC (n : Nat) : Fld := ⟨0x403000 + 8 * n, 0, 10, 0⟩
def Reg.SORT_CTL.SORTEN : Fld := ⟨0x800000, 1, 1, 0⟩
def Reg.SORT_CTL.EN : Fld := ⟨0x800000, 0, 1, 0⟩
def Reg.SORT_STAT.LBDEAD : Fld := ⟨0x800008, 3, 1, 0⟩
def Reg.SORT_STAT.CFGERR : Fld := ⟨0x800008, 2, 1, 0⟩
def Reg.SORT_STAT.CRFULL : Fld := ⟨0x800008, 1, 1, 0⟩
def Reg.SORT_STAT.QSTOPPED : Fld := ⟨0x800008, 0, 1, 0⟩
def Reg.SORT_ADMIT_CNT.COUNT : Fld := ⟨0x800010, 0, 48, 0⟩
def Reg.SORT_DEFER_CNT.COUNT : Fld := ⟨0x800018, 0, 48, 0⟩
def Reg.SORT_REJECT_CNT.COUNT : Fld := ⟨0x800020, 0, 48, 0⟩
def Reg.SORT_CRSTALL_CNT.COUNT : Fld := ⟨0x800028, 0, 48, 0⟩
def Reg.SORT_REC_CNT.COUNT : Fld := ⟨0x800030, 0, 48, 0⟩

/-! The map by block; each row is a register of Table 22.5. -/

def regRows0 : List RegRow := [
  ⟨.GBL_ID, 0x0, 0, 1, 8, []⟩,
  ⟨.GBL_SERIAL0, 0x8, 0, 1, 8, []⟩,
  ⟨.GBL_SERIAL1, 0x10, 0, 1, 8, []⟩,
  ⟨.GBL_CAP, 0x18, 0, 1, 8, []⟩,
  ⟨.GBL_CTL, 0x20, 0, 1, 4, [⟨0, 1, .rw, 0, .l, true⟩]⟩,
  ⟨.GBL_STAT, 0x28, 0, 1, 4, [⟨2, 1, .w1c, 0, .c, false⟩, ⟨1, 1, .w1c, 0, .c, false⟩, ⟨0, 1, .w1c, 0, .c, false⟩]⟩,
  ⟨.GBL_FOREIGN_CNT, 0x30, 0, 1, 8, [⟨0, 48, .ro, 0, .c, false⟩]⟩,
  ⟨.GBL_SCRATCH, 0x40, 8, 4, 8, [⟨0, 64, .rw, 0, .t, false⟩]⟩,
  ⟨.NT_NOW, 0x10000, 0, 1, 8, [⟨0, 64, .ro, 0, .t, false⟩]⟩,
  ⟨.NT_CTL, 0x10008, 0, 1, 4, [⟨2, 1, .rw, 0, .t, false⟩, ⟨1, 1, .rw, 0, .t, false⟩, ⟨0, 1, .rw, 0, .t, false⟩]⟩,
  ⟨.NT_FREQ, 0x10010, 0, 1, 8, [⟨0, 40, .rw, 0, .t, false⟩]⟩,
  ⟨.NT_STEP, 0x10018, 0, 1, 8, [⟨0, 64, .wo, 0, .t, false⟩]⟩]

def regRows1 : List RegRow := [
  ⟨.NT_STAT, 0x10020, 0, 1, 4, [⟨3, 1, .w1c, 0, .t, false⟩, ⟨2, 1, .w1c, 0, .t, false⟩, ⟨1, 1, .w1c, 0, .t, false⟩, ⟨0, 1, .ro, 0, .t, false⟩]⟩,
  ⟨.NT_PPSCAP, 0x10028, 0, 1, 8, [⟨0, 64, .ro, 0, .t, false⟩]⟩,
  ⟨.NT_PPSCOMP, 0x10030, 0, 1, 4, [⟨0, 16, .rw, 0, .t, false⟩]⟩,
  ⟨.NT_ALARM, 0x10038, 0, 1, 8, [⟨0, 64, .rw, 0xffffffffffffffff, .t, false⟩]⟩,
  ⟨.RND_CTL, 0x10040, 0, 1, 4, [⟨1, 2, .rw, 1, .t, false⟩, ⟨0, 1, .rw, 0, .t, false⟩]⟩,
  ⟨.RND_PERIOD, 0x10048, 0, 1, 4, [⟨0, 14, .rw, 100, .t, false⟩]⟩,
  ⟨.RND_NUM, 0x10050, 0, 1, 8, [⟨0, 48, .ro, 0, .t, false⟩]⟩,
  ⟨.RND_STAT, 0x10058, 0, 1, 4, [⟨0, 1, .w1c, 0, .t, false⟩]⟩,
  ⟨.RND_SKIP_CNT, 0x10060, 0, 1, 8, [⟨0, 48, .ro, 0, .t, false⟩]⟩,
  ⟨.RND_LATE_CNT, 0x10068, 0, 1, 8, [⟨0, 48, .ro, 0, .t, false⟩]⟩,
  ⟨.RND_EXCUSED_CNT, 0x10070, 0, 1, 8, [⟨0, 48, .ro, 0, .t, false⟩]⟩,
  ⟨.NF_SRSEED, 0x20000, 0, 1, 8, [⟨0, 64, .rw, 0, .l, false⟩]⟩]

def regRows2 : List RegRow := [
  ⟨.NF_SRCTL, 0x20008, 0, 1, 4, [⟨0, 1, .rw, 1, .l, false⟩]⟩,
  ⟨.CT_CTL, 0x30000, 0, 1, 4, [⟨0, 8, .rw, 16, .l, false⟩]⟩,
  ⟨.CT_TSET, 0x31000, 64, 256, 8, [⟨10, 1, .ro, 0, .f, false⟩, ⟨0, 10, .ro, 0, .f, false⟩]⟩,
  ⟨.CT_TOKDROP_CNT, 0x31008, 64, 256, 8, [⟨0, 48, .ro, 0, .c, false⟩]⟩,
  ⟨.CT_TOKSAT_CNT, 0x31010, 64, 256, 8, [⟨0, 48, .ro, 0, .c, false⟩]⟩,
  ⟨.CT_SPCORR_CNT, 0x31018, 64, 256, 8, [⟨0, 48, .ro, 0, .c, false⟩]⟩,
  ⟨.CT_SPUNC_CNT, 0x31020, 64, 256, 8, [⟨0, 48, .ro, 0, .c, false⟩]⟩,
  ⟨.CT_TRAP_CNT, 0x31028, 64, 256, 8, [⟨0, 48, .ro, 0, .c, false⟩]⟩,
  ⟨.TG_CTL, 0x40000, 0, 1, 4, [⟨0, 8, .rw, 4, .l, false⟩]⟩,
  ⟨.TG_RESIDENT, 0x41000, 64, 256, 8, []⟩,
  ⟨.TG_TRAP_CNT, 0x41008, 64, 256, 8, [⟨0, 48, .ro, 0, .c, false⟩]⟩,
  ⟨.TG_MISMATCH_CNT, 0x41010, 64, 256, 8, [⟨0, 48, .ro, 0, .c, false⟩]⟩]

def regRows3 : List RegRow := [
  ⟨.TG_BWDOG_CNT, 0x41018, 64, 256, 8, [⟨0, 48, .ro, 0, .c, false⟩]⟩,
  ⟨.TG_AMOCOMB_CNT, 0x41020, 64, 256, 8, [⟨0, 48, .ro, 0, .c, false⟩]⟩,
  ⟨.MEM_CTL, 0x50000, 0, 1, 4, [⟨16, 16, .rw, 0, .l, true⟩, ⟨1, 1, .rw, 1, .l, false⟩, ⟨0, 1, .w1s, 0, .l, false⟩]⟩,
  ⟨.MEM_T1SIZE, 0x50008, 0, 1, 4, []⟩,
  ⟨.MEM_PRIO, 0x50010, 0, 1, 8, [⟨32, 16, .rw, 16000, .l, true⟩, ⟨16, 16, .rw, 4000, .l, true⟩, ⟨0, 16, .rw, 2000, .l, true⟩]⟩,
  ⟨.MEM_RAS, 0x50018, 0, 1, 4, [⟨0, 8, .rw, 16, .l, true⟩]⟩,
  ⟨.MEM_STAT, 0x50020, 0, 1, 4, [⟨3, 1, .w1c, 0, .c, false⟩, ⟨2, 1, .w1c, 0, .c, false⟩, ⟨1, 1, .w1c, 0, .c, false⟩, ⟨0, 1, .w1c, 0, .c, false⟩]⟩,
  ⟨.MEM_LOCWIN, 0x50100, 8, 8, 8, [⟨9, 6, .rw, 0, .l, true⟩, ⟨3, 6, .rw, 0, .l, true⟩, ⟨0, 1, .rw, 0, .l, true⟩]⟩,
  ⟨.MEM_DSTAT, 0x51000, 64, 24, 4, [⟨8, 8, .ro, 0, .f, false⟩, ⟨4, 2, .ro, 0, .f, false⟩, ⟨3, 1, .ro, 0, .f, false⟩, ⟨0, 1, .ro, 0, .f, false⟩]⟩,
  ⟨.MEM_CORR_CNT, 0x51008, 64, 24, 8, [⟨0, 48, .ro, 0, .c, false⟩]⟩,
  ⟨.MEM_UNC_CNT, 0x51010, 64, 24, 8, [⟨0, 48, .ro, 0, .c, false⟩]⟩,
  ⟨.MEM_SCRUB_POS, 0x51018, 64, 24, 8, [⟨48, 16, .ro, 0, .f, false⟩, ⟨0, 36, .ro, 0, .f, false⟩]⟩]

def regRows4 : List RegRow := [
  ⟨.MEM_RETIRE, 0x52000, 8, 256, 8, [⟨21, 31, .rw, 0, .l, true⟩, ⟨3, 2, .ro, 0, .l, false⟩, ⟨1, 2, .rw, 0, .l, true⟩]⟩,
  ⟨.COH_STAT, 0x60000, 0, 1, 4, [⟨1, 1, .w1c, 0, .c, false⟩, ⟨0, 1, .w1c, 0, .c, false⟩]⟩,
  ⟨.COH_HCFG, 0x61000, 64, 5, 4, [⟨0, 3, .rw, 2, .l, true⟩]⟩,
  ⟨.COH_DIR_OCC, 0x61008, 64, 5, 8, []⟩,
  ⟨.COH_DIRBI_CNT, 0x61010, 64, 5, 8, [⟨0, 48, .ro, 0, .c, false⟩]⟩,
  ⟨.COH_WBDISC_CNT, 0x61018, 64, 5, 8, [⟨0, 48, .ro, 0, .c, false⟩]⟩,
  ⟨.COH_CROSS_CNT, 0x61020, 64, 5, 8, [⟨0, 48, .ro, 0, .c, false⟩]⟩,
  ⟨.COH_DENY_CNT, 0x61028, 64, 5, 8, [⟨0, 48, .ro, 0, .c, false⟩]⟩,
  ⟨.COH_UNC_CNT, 0x61030, 64, 5, 8, [⟨0, 48, .ro, 0, .c, false⟩]⟩,
  ⟨.COH_PROTERR_CNT, 0x61038, 64, 5, 8, [⟨0, 48, .ro, 0, .c, false⟩]⟩,
  ⟨.MO_CTL, 0x70000, 0, 1, 4, [⟨20, 10, .rw, 100, .l, true⟩, ⟨0, 20, .rw, 2000, .l, true⟩]⟩,
  ⟨.MO_STAT, 0x70008, 0, 1, 4, [⟨2, 1, .ro, 0, .f, false⟩, ⟨1, 1, .w1c, 0, .c, false⟩, ⟨0, 1, .w1c, 0, .c, false⟩]⟩]

def regRows5 : List RegRow := [
  ⟨.MO_DISC_CNT, 0x70010, 0, 1, 8, [⟨0, 48, .ro, 0, .c, false⟩]⟩,
  ⟨.MO_LOADTO_CNT, 0x70018, 0, 1, 8, [⟨0, 48, .ro, 0, .c, false⟩]⟩,
  ⟨.MO_LATEACK_CNT, 0x70020, 0, 1, 8, [⟨0, 48, .ro, 0, .c, false⟩]⟩,
  ⟨.MO_DRAINDROP_CNT, 0x70028, 0, 1, 8, [⟨0, 48, .ro, 0, .c, false⟩]⟩,
  ⟨.MO_RGN_BASE, 0x71000, 32, 64, 8, [⟨12, 40, .rw, 0, .l, true⟩]⟩,
  ⟨.MO_RGN_LAST, 0x71008, 32, 64, 8, [⟨12, 40, .rw, 0, .l, true⟩]⟩,
  ⟨.MO_RGN_CTL, 0x71010, 32, 64, 4, [⟨4, 20, .rw, 0, .l, true⟩, ⟨1, 2, .rw, 0, .l, true⟩, ⟨0, 1, .rw, 0, .l, true⟩]⟩,
  ⟨.FL_CTL, 0x80000, 0, 1, 4, [⟨16, 8, .rw, 8, .l, true⟩, ⟨0, 16, .rw, 100, .l, true⟩]⟩,
  ⟨.FL_STAT, 0x80008, 0, 1, 4, [⟨3, 1, .w1c, 0, .c, false⟩, ⟨2, 1, .w1c, 0, .c, false⟩, ⟨1, 1, .ro, 0, .f, false⟩, ⟨0, 1, .ro, 0, .f, false⟩]⟩,
  ⟨.FL_MAPPED, 0x80010, 0, 1, 8, []⟩,
  ⟨.FL_LIFE, 0x80018, 0, 1, 4, [⟨0, 8, .ro, 0, .f, false⟩]⟩,
  ⟨.FL_CORR_CNT, 0x80020, 0, 1, 8, [⟨0, 48, .ro, 0, .c, false⟩]⟩]

def regRows6 : List RegRow := [
  ⟨.FL_UNC_CNT, 0x80028, 0, 1, 8, [⟨0, 48, .ro, 0, .c, false⟩]⟩,
  ⟨.FL_RELOC_CNT, 0x80030, 0, 1, 8, [⟨0, 48, .ro, 0, .c, false⟩]⟩,
  ⟨.PM_REFUSE_CNT, 0x80038, 0, 1, 8, [⟨0, 48, .ro, 0, .c, false⟩]⟩,
  ⟨.PM_STALL_CNT, 0x80100, 8, 24, 8, [⟨0, 48, .ro, 0, .c, false⟩]⟩,
  ⟨.FL_CHSTAT, 0x80200, 4, 32, 4, [⟨8, 8, .ro, 0, .f, false⟩, ⟨0, 2, .ro, 0, .f, false⟩]⟩,
  ⟨.LR_CTL, 0x90000, 0, 1, 4, [⟨8, 8, .rw, 4, .l, true⟩, ⟨0, 8, .rw, 3, .l, true⟩]⟩,
  ⟨.LR_STAT, 0x90008, 0, 1, 4, [⟨4, 1, .ro, 0, .f, false⟩, ⟨3, 1, .w1c, 0, .c, false⟩, ⟨2, 1, .ro, 0, .f, false⟩, ⟨1, 1, .w1c, 0, .c, false⟩, ⟨0, 1, .w1c, 0, .c, false⟩]⟩,
  ⟨.LR_TRANS_CNT, 0x90010, 0, 1, 8, [⟨0, 48, .ro, 0, .c, false⟩]⟩,
  ⟨.LR_RETIRE_CNT, 0x90018, 0, 1, 8, [⟨0, 48, .ro, 0, .c, false⟩]⟩,
  ⟨.LR_FENCEDROP_CNT, 0x90020, 0, 1, 8, [⟨0, 48, .ro, 0, .c, false⟩]⟩,
  ⟨.LR_DISAGREE_CNT, 0x90028, 0, 1, 8, [⟨0, 48, .ro, 0, .c, false⟩]⟩,
  ⟨.LR_LSTAT, 0x91000, 32, 16, 4, [⟨8, 6, .ro, 0, .f, false⟩, ⟨0, 2, .ro, 0, .f, false⟩]⟩]

def regRows7 : List RegRow := [
  ⟨.LR_CRC_CNT, 0x91008, 32, 16, 8, [⟨0, 48, .ro, 0, .c, false⟩]⟩,
  ⟨.LR_REPLAY_CNT, 0x91010, 32, 16, 8, [⟨0, 48, .ro, 0, .c, false⟩]⟩,
  ⟨.LR_RECAL_CNT, 0x91018, 32, 16, 8, [⟨0, 48, .ro, 0, .c, false⟩]⟩,
  ⟨.LR_FMAP_TILE, 0x92000, 1, 288, 1, []⟩,
  ⟨.LR_FMAP_CORE, 0x92200, 1, 36, 1, []⟩,
  ⟨.CG_CTL, 0xa0000, 0, 1, 4, [⟨1, 16, .rw, 256, .l, true⟩, ⟨0, 1, .rw, 0, .l, true⟩]⟩,
  ⟨.CG_STAT, 0xa0008, 0, 1, 4, [⟨2, 1, .ro, 0, .f, false⟩, ⟨1, 1, .ro, 0, .f, false⟩, ⟨0, 1, .w1c, 0, .c, false⟩]⟩,
  ⟨.CG_REFUSE_CNT, 0xa0010, 0, 1, 8, [⟨0, 48, .ro, 0, .c, false⟩]⟩,
  ⟨.CG_HOLD_CNT, 0xa0018, 0, 1, 8, [⟨0, 48, .ro, 0, .c, false⟩]⟩,
  ⟨.CG_WBASE, 0xa0100, 24, 16, 8, [⟨12, 40, .rw, 0, .l, true⟩]⟩,
  ⟨.CG_WLAST, 0xa0108, 24, 16, 8, [⟨12, 40, .rw, 0, .l, true⟩]⟩,
  ⟨.CG_WCTL, 0xa0110, 24, 16, 8, [⟨63, 1, .rw, 0, .l, true⟩, ⟨32, 16, .rw, 0, .l, true⟩, ⟨16, 3, .rw, 0, .l, true⟩, ⟨0, 16, .rw, 0, .l, true⟩]⟩]

def regRows8 : List RegRow := [
  ⟨.PW_CTL, 0xb0000, 0, 1, 4, [⟨16, 1, .rw, 1, .l, true⟩, ⟨0, 16, .rw, 2000, .l, true⟩]⟩,
  ⟨.PW_STAT, 0xb0008, 0, 1, 4, [⟨5, 1, .w1c, 0, .c, false⟩, ⟨4, 1, .w1c, 0, .c, false⟩, ⟨3, 1, .w1c, 0, .c, false⟩, ⟨2, 1, .ro, 0, .f, false⟩, ⟨1, 1, .ro, 0, .f, false⟩, ⟨0, 1, .w1c, 0, .c, false⟩]⟩,
  ⟨.PW_SUP, 0xb0010, 0, 1, 4, [⟨12, 10, .ro, 0, .f, false⟩, ⟨6, 6, .rw, 10, .l, true⟩, ⟨0, 6, .rw, 10, .l, true⟩]⟩,
  ⟨.PW_CAP, 0xb0018, 0, 1, 4, [⟨24, 8, .rw, 50, .l, true⟩, ⟨0, 13, .rw, 4800, .l, true⟩]⟩,
  ⟨.PW_THERM, 0xb0020, 0, 1, 4, [⟨16, 8, .rw, 100, .l, true⟩, ⟨8, 8, .rw, 95, .l, true⟩, ⟨0, 8, .ro, 0, .f, false⟩]⟩,
  ⟨.PW_DROOP, 0xb0028, 0, 1, 4, [⟨0, 6, .rw, 35, .l, true⟩]⟩,
  ⟨.PW_EST, 0xb0030, 0, 1, 4, [⟨16, 5, .ro, 16, .f, false⟩, ⟨0, 13, .ro, 0, .f, false⟩]⟩,
  ⟨.PW_BROWN_CNT, 0xb0038, 0, 1, 8, [⟨0, 48, .ro, 0, .c, false⟩]⟩,
  ⟨.PW_THROT_CNT, 0xb0040, 0, 1, 8, [⟨0, 48, .ro, 0, .c, false⟩]⟩,
  ⟨.PW_RLIM, 0xb1000, 32, 16, 4, [⟨16, 6, .rw, 10, .l, true⟩, ⟨0, 10, .rw, 0, .l, true⟩]⟩,
  ⟨.PW_RSTAT, 0xb1008, 32, 16, 4, [⟨16, 5, .ro, 16, .f, false⟩, ⟨0, 16, .ro, 0, .f, false⟩]⟩,
  ⟨.PW_RLEAK, 0xb1010, 32, 16, 4, [⟨0, 16, .rw, 0, .r, true⟩]⟩]

def regRows9 : List RegRow := [
  ⟨.PW_ROVER_CNT, 0xb1018, 32, 16, 8, [⟨0, 48, .ro, 0, .c, false⟩]⟩,
  ⟨.PW_DROOP_CNT, 0xb1800, 8, 16, 8, [⟨0, 48, .ro, 0, .c, false⟩]⟩,
  ⟨.PW_WGT, 0xb2000, 8, 16, 4, [⟨0, 24, .rw, 0, .r, true⟩]⟩,
  ⟨.HP_CTL, 0xc0000, 0, 1, 4, [⟨0, 1, .rw, 1, .l, true⟩]⟩,
  ⟨.HP_STAT, 0xc0008, 0, 1, 4, [⟨3, 1, .w1c, 0, .c, false⟩, ⟨2, 1, .ro, 0, .f, false⟩, ⟨1, 1, .ro, 0, .f, false⟩, ⟨0, 1, .ro, 0, .f, false⟩]⟩,
  ⟨.HP_W4BASE, 0xc0010, 0, 1, 8, [⟨20, 32, .rw, 0, .l, false⟩]⟩,
  ⟨.HP_ATTACH, 0xc0018, 0, 1, 4, [⟨0, 1, .wo, 0, .c, false⟩]⟩,
  ⟨.HP_UR_CNT, 0xc0020, 0, 1, 8, [⟨0, 48, .ro, 0, .c, false⟩]⟩,
  ⟨.HP_REFUSE_CNT, 0xc0028, 0, 1, 8, [⟨0, 48, .ro, 0, .c, false⟩]⟩,
  ⟨.HP_DATADROP_CNT, 0xc0030, 0, 1, 8, [⟨0, 48, .ro, 0, .c, false⟩]⟩,
  ⟨.HP_HELDDROP_CNT, 0xc0038, 0, 1, 8, [⟨0, 48, .ro, 0, .c, false⟩]⟩,
  ⟨.HP_ATREC, 0xc0100, 0, 1, 64, []⟩]

def regRows10 : List RegRow := [
  ⟨.OB_PCTL, 0xd1000, 64, 4, 4, [⟨16, 1, .rw, 0, .l, true⟩, ⟨0, 16, .rw, 1, .l, true⟩]⟩,
  ⟨.OB_PSTAT, 0xd1008, 64, 4, 4, [⟨8, 4, .ro, 0, .f, false⟩, ⟨5, 3, .ro, 0, .f, false⟩]⟩,
  ⟨.OB_XLAT, 0xd1010, 64, 4, 8, [⟨0, 64, .rw, 0, .l, true⟩]⟩,
  ⟨.OB_UR_CNT, 0xd1018, 64, 4, 8, [⟨0, 48, .ro, 0, .c, false⟩]⟩,
  ⟨.OB_REFUSE_CNT, 0xd1020, 64, 4, 8, [⟨0, 48, .ro, 0, .c, false⟩]⟩,
  ⟨.OB_WBASE, 0xd2000, 24, 64, 8, [⟨12, 40, .rw, 0, .l, true⟩]⟩,
  ⟨.OB_WLAST, 0xd2008, 24, 64, 8, [⟨12, 40, .rw, 0, .l, true⟩]⟩,
  ⟨.OB_WCTL, 0xd2010, 24, 64, 4, [⟨31, 1, .rw, 0, .l, true⟩, ⟨17, 1, .rw, 0, .l, true⟩, ⟨16, 1, .rw, 0, .l, true⟩, ⟨0, 16, .rw, 0, .l, true⟩]⟩,
  ⟨.OB_PMAP, 0xd3000, 8, 64, 8, [⟨63, 1, .rw, 0, .l, true⟩, ⟨36, 4, .rw, 0, .l, true⟩, ⟨16, 20, .rw, 0, .l, true⟩, ⟨0, 16, .rw, 0, .l, true⟩]⟩,
  ⟨.TC_STAT, 0xe0000, 0, 1, 4, [⟨7, 1, .ro, 1, .f, false⟩, ⟨0, 7, .ro, 0, .f, false⟩]⟩,
  ⟨.TC_CRC_CNT, 0xe0008, 0, 1, 8, [⟨0, 48, .ro, 0, .c, false⟩]⟩,
  ⟨.TC_TTLDROP_CNT, 0xe0010, 0, 1, 8, [⟨0, 48, .ro, 0, .c, false⟩]⟩]

def regRows11 : List RegRow := [
  ⟨.TC_FWDDROP_CNT, 0xe0018, 0, 1, 8, [⟨0, 48, .ro, 0, .c, false⟩]⟩,
  ⟨.ST_STAT, 0xf0000, 0, 1, 4, [⟨7, 1, .w1c, 0, .t, false⟩, ⟨6, 1, .w1c, 0, .t, false⟩, ⟨0, 4, .ro, 0, .f, false⟩]⟩,
  ⟨.ST_RESET, 0xf0008, 0, 1, 4, [⟨8, 8, .wo, 0, .t, false⟩, ⟨0, 3, .wo, 0, .t, false⟩]⟩,
  ⟨.ST_SRC, 0xf0010, 0, 1, 8, [⟨12, 52, .rw, 0, .t, false⟩]⟩,
  ⟨.ST_LEN, 0xf0018, 0, 1, 4, [⟨0, 27, .rw, 0, .t, false⟩]⟩,
  ⟨.ST_GO, 0xf0020, 0, 1, 4, [⟨0, 2, .wo, 0, .t, false⟩]⟩,
  ⟨.ST_REC, 0xf0100, 0, 1, 512, []⟩,
  ⟨.TRL_STAT, 0x100000, 0, 1, 4, [⟨5, 1, .w1c, 0, .c, false⟩, ⟨4, 1, .ro, 0, .f, false⟩, ⟨3, 1, .ro, 0, .f, false⟩, ⟨2, 1, .ro, 0, .z, false⟩, ⟨1, 1, .ro, 0, .i, false⟩, ⟨0, 1, .ro, 0, .i, false⟩]⟩,
  ⟨.TRL_BVER, 0x100008, 0, 1, 4, [⟨0, 32, .ro, 0, .i, false⟩]⟩,
  ⟨.TRL_SVN, 0x100010, 0, 1, 4, [⟨0, 32, .ro, 0, .i, false⟩]⟩,
  ⟨.TRL_UCREV, 0x100018, 0, 1, 4, [⟨0, 32, .ro, 0, .i, false⟩]⟩,
  ⟨.TRL_AUTHFAIL_CNT, 0x100020, 0, 1, 8, [⟨0, 48, .ro, 0, .c, false⟩]⟩]

def regRows12 : List RegRow := [
  ⟨.TRL_DBGDENY_CNT, 0x100028, 0, 1, 8, [⟨0, 48, .ro, 0, .c, false⟩]⟩,
  ⟨.TRL_SLOT, 0x100100, 8, 64, 8, []⟩,
  ⟨.TRL_MB1_DOOR, 0x101000, 0, 1, 4, []⟩,
  ⟨.TRL_MB2_DOOR, 0x101008, 0, 1, 4, []⟩,
  ⟨.TRL_MB1_REQ, 0x102000, 0, 1, 4096, []⟩,
  ⟨.TRL_MB1_RSP, 0x103000, 0, 1, 4096, []⟩,
  ⟨.TRL_MB2_REQ, 0x104000, 0, 1, 4096, []⟩,
  ⟨.TRL_MB2_RSP, 0x105000, 0, 1, 4096, []⟩,
  ⟨.MSIX_TABLE, 0x110000, 0, 1, 4096, []⟩,
  ⟨.MSIX_PBA, 0x111000, 0, 1, 32, []⟩,
  ⟨.DL_TAIL, 0x180000, 0, 1, 4, [⟨0, 32, .ro, 0, .g, false⟩]⟩,
  ⟨.DL_NODE, 0x180008, 0, 1, 4, [⟨0, 20, .rw, 0, .g, true⟩]⟩]

def regRows13 : List RegRow := [
  ⟨.DL_ENTRY, 0x190000, 64, 4096, 64, []⟩,
  ⟨.TR_CTL, 0x200000, 0, 1, 4, [⟨0, 16, .rw, 1, .l, true⟩]⟩,
  ⟨.TR_STAT, 0x200008, 0, 1, 4, [⟨2, 1, .w1c, 0, .c, false⟩, ⟨1, 1, .w1c, 0, .c, false⟩, ⟨0, 1, .w1c, 0, .c, false⟩]⟩,
  ⟨.TR_FAULT_CNT, 0x200010, 0, 1, 8, [⟨0, 48, .ro, 0, .c, false⟩]⟩,
  ⟨.TR_TIMEOUT_CNT, 0x200018, 0, 1, 8, [⟨0, 48, .ro, 0, .c, false⟩]⟩,
  ⟨.TR_BADRES_CNT, 0x200020, 0, 1, 8, [⟨0, 48, .ro, 0, .c, false⟩]⟩,
  ⟨.TR_CTXNUM, 0x200028, 0, 1, 4, []⟩,
  ⟨.TR_FRCTX, 0x201000, 32, 64, 32, []⟩,
  ⟨.TR_RESUME, 0x300000, 4096, 64, 8, [⟨16, 2, .wo, 0, .c, false⟩, ⟨0, 16, .wo, 0, .c, false⟩]⟩,
  ⟨.EC_CTL, 0x400000, 0, 1, 4, [⟨0, 1, .rw, 1, .e, false⟩]⟩,
  ⟨.EC_STAT, 0x400008, 0, 1, 4, [⟨1, 1, .w1c, 0, .c, false⟩, ⟨0, 1, .w1c, 0, .c, false⟩]⟩,
  ⟨.EC_PEND, 0x400010, 0, 1, 4, [⟨0, 10, .wo, 0, .c, false⟩]⟩]

def regRows14 : List RegRow := [
  ⟨.EC_MASK, 0x400018, 0, 1, 4, [⟨0, 10, .wo, 0, .c, false⟩]⟩,
  ⟨.EC_UNMASK, 0x400020, 0, 1, 4, [⟨0, 10, .wo, 0, .c, false⟩]⟩,
  ⟨.EC_BADCMPL_CNT, 0x400028, 0, 1, 8, [⟨0, 48, .ro, 0, .c, false⟩]⟩,
  ⟨.EC_WAKESRC, 0x400030, 0, 1, 4, [⟨31, 1, .w1c, 0, .p, false⟩, ⟨0, 10, .ro, 0, .p, false⟩]⟩,
  ⟨.EC_SRC, 0x401000, 8, 1024, 4, []⟩,
  ⟨.EC_NMUW, 0x403000, 8, 64, 4, [⟨31, 1, .rw, 0, .e, false⟩, ⟨0, 10, .rw, 0, .e, false⟩]⟩,
  ⟨.EC_PEND_SET, 0x404000, 4, 32, 4, []⟩,
  ⟨.EC_PEND_CLR, 0x404080, 4, 32, 4, []⟩,
  ⟨.EC_MASK_SET, 0x404100, 4, 32, 4, []⟩,
  ⟨.EC_MASK_CLR, 0x404180, 4, 32, 4, []⟩,
  ⟨.EC_CLAIM, 0x410000, 4096, 321, 4, []⟩,
  ⟨.EC_COMPLETE, 0x410008, 4096, 321, 4, []⟩]

def regRows15 : List RegRow := [
  ⟨.EC_TSTAT, 0x410010, 4096, 321, 4, []⟩,
  ⟨.SORT_CTL, 0x800000, 0, 1, 4, [⟨1, 1, .rw, 0, .q, false⟩, ⟨0, 1, .rw, 0, .q, false⟩]⟩,
  ⟨.SORT_STAT, 0x800008, 0, 1, 4, [⟨3, 1, .w1c, 0, .c, false⟩, ⟨2, 1, .w1c, 0, .c, false⟩, ⟨1, 1, .w1c, 0, .c, false⟩, ⟨0, 1, .w1c, 0, .c, false⟩]⟩,
  ⟨.SORT_ADMIT_CNT, 0x800010, 0, 1, 8, [⟨0, 48, .ro, 0, .c, false⟩]⟩,
  ⟨.SORT_DEFER_CNT, 0x800018, 0, 1, 8, [⟨0, 48, .ro, 0, .c, false⟩]⟩,
  ⟨.SORT_REJECT_CNT, 0x800020, 0, 1, 8, [⟨0, 48, .ro, 0, .c, false⟩]⟩,
  ⟨.SORT_CRSTALL_CNT, 0x800028, 0, 1, 8, [⟨0, 48, .ro, 0, .c, false⟩]⟩,
  ⟨.SORT_REC_CNT, 0x800030, 0, 1, 8, [⟨0, 48, .ro, 0, .c, false⟩]⟩,
  ⟨.SORT_QCTX, 0x900000, 64, 16384, 64, []⟩,
  ⟨.SORT_CRCTX, 0xa00000, 32, 4096, 32, []⟩,
  ⟨.SORT_TSET, 0xa20000, 64, 1024, 64, []⟩,
  ⟨.SORT_LEDGER, 0xa30000, 8, 1024, 8, []⟩]

/-- Every register of the device (R599). -/
def regRows : List RegRow :=
  regRows0 ++ regRows1 ++ regRows2 ++ regRows3 ++ regRows4 ++ regRows5 ++ regRows6 ++ regRows7 ++ regRows8 ++ regRows9 ++ regRows10 ++ regRows11 ++ regRows12 ++ regRows13 ++ regRows14 ++ regRows15

/-- Does the row hold the byte at BAR0 offset `a`? Answers the register's index within its row and the byte within it. -/
def RegRow.at (r : RegRow) (a : Nat) : Option (Nat × Nat) :=
  if a < r.off then none
  else
    let i := if r.stride = 0 then 0 else (a - r.off) / r.stride
    let b := a - r.off - i * r.stride
    if i < r.count ∧ b < r.bytes then some (i, b) else none

/-- The register that holds the byte at BAR0 offset `a`, with its index and the byte within it (R599); none where no
register lies. -/
def findReg (a : Nat) : Option (RegRow × Nat × Nat) :=
  regRows.findSome? fun r => (r.at a).map fun p => (r, p.1, p.2)

/-- The field row that a field key names, if any. -/
def fieldRow (key : Nat) : Option (RegRow × FieldRow) :=
  match findReg (key / 64) with
  | some (r, i, _) =>
    (r.fields.find? fun f => (r.off + i * r.stride) * 64 + f.lo == key).map fun f => (r, f)
  | none => none

/-- The CFGERR bit of the block that a register belongs to (R470, R542, R604); none where the block has none. -/
def Reg.cfgErr : Reg → Option Fld
  | .GBL_ID | .GBL_SERIAL0 | .GBL_SERIAL1 | .GBL_CAP | .GBL_CTL | .GBL_STAT | .GBL_FOREIGN_CNT | .GBL_SCRATCH => some Reg.GBL_STAT.CFGERR
  | .NT_NOW | .NT_CTL | .NT_FREQ | .NT_STEP | .NT_STAT | .NT_PPSCAP | .NT_PPSCOMP | .NT_ALARM | .RND_CTL | .RND_PERIOD | .RND_NUM | .RND_STAT | .RND_SKIP_CNT | .RND_LATE_CNT | .RND_EXCUSED_CNT => some Reg.RND_STAT.CFGERR
  | .NF_SRSEED | .NF_SRCTL | .CT_CTL | .CT_TSET | .CT_TOKDROP_CNT | .CT_TOKSAT_CNT | .CT_SPCORR_CNT | .CT_SPUNC_CNT | .CT_TRAP_CNT | .TG_CTL | .TG_RESIDENT | .TG_TRAP_CNT | .TG_MISMATCH_CNT | .TG_BWDOG_CNT | .TG_AMOCOMB_CNT | .TC_STAT | .TC_CRC_CNT | .TC_TTLDROP_CNT | .TC_FWDDROP_CNT | .MSIX_TABLE | .MSIX_PBA | .DL_TAIL | .DL_NODE | .DL_ENTRY => none
  | .MEM_CTL | .MEM_T1SIZE | .MEM_PRIO | .MEM_RAS | .MEM_STAT | .MEM_LOCWIN | .MEM_DSTAT | .MEM_CORR_CNT | .MEM_UNC_CNT | .MEM_SCRUB_POS | .MEM_RETIRE => some Reg.MEM_STAT.CFGERR
  | .COH_STAT | .COH_HCFG | .COH_DIR_OCC | .COH_DIRBI_CNT | .COH_WBDISC_CNT | .COH_CROSS_CNT | .COH_DENY_CNT | .COH_UNC_CNT | .COH_PROTERR_CNT => some Reg.COH_STAT.CFGERR
  | .MO_CTL | .MO_STAT | .MO_DISC_CNT | .MO_LOADTO_CNT | .MO_LATEACK_CNT | .MO_DRAINDROP_CNT | .MO_RGN_BASE | .MO_RGN_LAST | .MO_RGN_CTL => some Reg.MO_STAT.CFGERR
  | .FL_CTL | .FL_STAT | .FL_MAPPED | .FL_LIFE | .FL_CORR_CNT | .FL_UNC_CNT | .FL_RELOC_CNT | .PM_REFUSE_CNT | .PM_STALL_CNT | .FL_CHSTAT => some Reg.FL_STAT.CFGERR
  | .LR_CTL | .LR_STAT | .LR_TRANS_CNT | .LR_RETIRE_CNT | .LR_FENCEDROP_CNT | .LR_DISAGREE_CNT | .LR_LSTAT | .LR_CRC_CNT | .LR_REPLAY_CNT | .LR_RECAL_CNT | .LR_FMAP_TILE | .LR_FMAP_CORE => some Reg.LR_STAT.CFGERR
  | .CG_CTL | .CG_STAT | .CG_REFUSE_CNT | .CG_HOLD_CNT | .CG_WBASE | .CG_WLAST | .CG_WCTL => some Reg.CG_STAT.CFGERR
  | .PW_CTL | .PW_STAT | .PW_SUP | .PW_CAP | .PW_THERM | .PW_DROOP | .PW_EST | .PW_BROWN_CNT | .PW_THROT_CNT | .PW_RLIM | .PW_RSTAT | .PW_RLEAK | .PW_ROVER_CNT | .PW_DROOP_CNT | .PW_WGT => some Reg.PW_STAT.CFGERR
  | .HP_CTL | .HP_STAT | .HP_W4BASE | .HP_ATTACH | .HP_UR_CNT | .HP_REFUSE_CNT | .HP_DATADROP_CNT | .HP_HELDDROP_CNT | .HP_ATREC | .OB_PCTL | .OB_PSTAT | .OB_XLAT | .OB_UR_CNT | .OB_REFUSE_CNT | .OB_WBASE | .OB_WLAST | .OB_WCTL | .OB_PMAP => some Reg.HP_STAT.CFGERR
  | .ST_STAT | .ST_RESET | .ST_SRC | .ST_LEN | .ST_GO | .ST_REC => some Reg.ST_STAT.CFGERR
  | .TRL_STAT | .TRL_BVER | .TRL_SVN | .TRL_UCREV | .TRL_AUTHFAIL_CNT | .TRL_DBGDENY_CNT | .TRL_SLOT | .TRL_MB1_DOOR | .TRL_MB2_DOOR | .TRL_MB1_REQ | .TRL_MB1_RSP | .TRL_MB2_REQ | .TRL_MB2_RSP => some Reg.TRL_STAT.CFGERR
  | .TR_CTL | .TR_STAT | .TR_FAULT_CNT | .TR_TIMEOUT_CNT | .TR_BADRES_CNT | .TR_CTXNUM | .TR_FRCTX | .TR_RESUME => some Reg.TR_STAT.CFGERR
  | .EC_CTL | .EC_STAT | .EC_PEND | .EC_MASK | .EC_UNMASK | .EC_BADCMPL_CNT | .EC_WAKESRC | .EC_SRC | .EC_NMUW | .EC_PEND_SET | .EC_PEND_CLR | .EC_MASK_SET | .EC_MASK_CLR | .EC_CLAIM | .EC_COMPLETE | .EC_TSTAT => some Reg.EC_STAT.CFGERR
  | .SORT_CTL | .SORT_STAT | .SORT_ADMIT_CNT | .SORT_DEFER_CNT | .SORT_REJECT_CNT | .SORT_CRSTALL_CNT | .SORT_REC_CNT | .SORT_QCTX | .SORT_CRCTX | .SORT_TSET | .SORT_LEDGER => some Reg.SORT_STAT.CFGERR

end Sys2Proof.Machine
end

