-- ==== Sys2Proof/Machine/Types.lean ====
section
/-! DEFINITION. The parts of the machine's state, chapter by chapter: plain records, each with the rule of spec/ that names
it. A field that no rule names is the model's own and says so. -/

namespace Sys2Proof.Machine

/-- What is fixed at manufacture, and the epoch of lost contents. -/
structure Ident where
  /-- FLS-7200G, with GDDR-7 (Table 0.1); a guest die is fitted (R608; Log 10). -/
  g : Bool := false
  guest : Bool := false
  /-- The 16-byte serial number, and the tray's slot pins (R537). -/
  serial : BitVec 128 := 0
  slot : BitVec 6 := 0
  /-- TEST_EN at power-on (R617). -/
  testEn : Bool := false
  /-- Root ports whose PRSNT_N is high: no adapter is fitted (R613; Log 10). -/
  unfitted : List Nat := []
  /-- The loss that gave Tier 1 its unlisted contents, how many losses there have been, and what the unlisted bytes of a 64 KiB
  range read as where they do not follow that rule: zero, or the contents of a loss. The model's own (Log 4). -/
  epoch : Nat := 0
  losses : Nat := 0
  fill : AMap (Option Nat) := []
  deriving DecidableEq, Repr

/-! ## Node time and rounds (chapter 2) -/

/-- Working state of the node-time unit beside the node-time block. -/
structure TimeSt where
  /-- The model's own: cycles of 250 ps of reference time since power-on (R5). -/
  cycle : Nat := 0
  /-- Fraction of NT_NOW below one nanosecond, in units of 1 / (2^18 × 10^9) ns (R38; Log 11). -/
  frac : Nat := 0
  /-- Cycles left of the hold of a backward step (R40). -/
  hold : Nat := 0
  /-- Offset in ns that the correction in progress removes, and the cycles it still runs (R43). -/
  ppsOffset : Int := 0
  ppsLeft : Nat := 0
  /-- NT_ALARM is armed (R45). -/
  armed : Bool := false
  /-- Node time of the round's tick, or of the enabling of rounds before the first tick (R46, R51). -/
  tickBase : Nat := 0
  /-- A tick has occurred since rounds were enabled (R51). -/
  ticked : Bool := false
  /-- Beats of the present round that have begun (R52). -/
  beats : Nat := 0
  /-- The last edge relayed on PPS_OUT: its polarity, and the cycle at which it leaves (R539). -/
  ppsOut : Option (Bool × Nat) := none
  deriving DecidableEq, Repr

/-- The values in force of the registers that take effect at a tick (R149, R182, R315). -/
structure TickRegs where
  wdog : Nat := 16
  seed : Nat := 0
  tilemix : Bool := true
  bwdog : Nat := 4
  deriving DecidableEq, Repr

/-! ## Event controller (chapter 16) -/

/-- A source: its pending, active and mask bits, its target (R471), and the cycle of its last assertion (R484). -/
structure Src where
  pend : Bool := false
  active : Bool := false
  masked : Bool := true
  target : Nat := 64
  since : Nat := 0
  deriving DecidableEq, Repr

structure EventSt where
  /-- Sources 1 to 1,023 that are not in their reset state. -/
  src : AMap Src := []
  /-- SYS event-signal messages from base and compute dies on their way to the controller's input (R472). -/
  signals : List Nat := []
  /-- Asynchronous latches of sources 1 to 8 (R489). -/
  latches : List Nat := []
  /-- Sources 32 to 63 recorded by the night mail unit in Night (R491). -/
  recorded : List Nat := []
  /-- Sources that start a wake: asserted while asleep, or while an entry was in progress (R488, R492). -/
  wake : List Nat := []
  /-- PBA bits of the MSI-X vectors (R478). -/
  pba : List Nat := []
  /-- MSI-X table: doublewords 0–1,023 that have been written; the vector control word of a vector resets to 1 (Log 20). -/
  msix : AMap Nat := []
  /-- MSI-X Enable 1 and Function Mask 0 in the host port's configuration space (R478; Log 20). -/
  msixOn : Bool := false
  /-- Vectors that the host has enabled (R478; Log 20). -/
  vectors : Nat := 0
  /-- Changes of the external-interrupt lines of targets 0 to 64, oldest first: the cycle from which a line has its value, the target, the
  value (R477). -/
  lines : List (Nat × Nat × Bool) := []
  /-- MSI-X messages that left on the host port, newest first: vector, address, data (R478). -/
  sent : List (Nat × Nat × Nat) := []
  deriving DecidableEq, Repr

/-! ## Dead letters (chapter 21) -/

/-- A dead-letter entry (Table 21.2). -/
structure DeadLetter where
  postmark : Nat
  num : Nat
  cause : Nat
  kind : Nat
  unit : Nat
  phys : Nat
  ctx : Nat
  queue : Nat
  seq : Nat
  bytes : Nat
  addr : Nat
  age : Nat
  node : Nat
  tout : Nat
  merged : Nat
  deriving DecidableEq, Repr

/-! ## The sorter (chapter 3) -/

/-- A queue's pigeonhole (Table 3.1) and the sorter's working state for it. CRWAIT and DETACHED are formed from the
ring and from HP_STAT when the pigeonhole is read. -/
structure Pigeon where
  /-- RBASE as an address. -/
  rbase : Nat := 0
  k : Nat := 0
  loc : Bool := false
  pasid : Nat := 0
  cring : Nat := 0
  ctx : Nat := 0
  prio : Nat := 0
  head : Nat := 0
  tail : Nat := 0
  inflight : Nat := 0
  nextSeq : Nat := 0
  lastStat : Nat := 0
  slotWait : Bool := false
  syncWait : Bool := false
  defer : Bool := false
  error : Bool := false
  en : Bool := false
  defRnd : Nat := 0
  /-- The head has been deferred in round DEFRND and not yet consumed (R87). -/
  deferred : Bool := false
  readyTime : Nat := 0
  /-- The fetch of the head descriptor is under way (R70, R87). -/
  fetching : Bool := false
  /-- A QCLOSE of the queue is in progress (R73, R82). -/
  closing : Bool := false
  /-- Descriptors read from a service-host ring and held while the host is detached, oldest first (R522). -/
  held : List (BitVec 512) := []
  deriving DecidableEq, Repr

/-- A completion record on its way to its ring (Table 3.9), with what decides its flag byte (R107, R108). -/
structure CRecord where
  postmark : Nat
  seq : Nat
  queue : Nat
  status : Nat
  flushed : Nat := 0
  used : Nat := 0
  fault : Nat := 0
  throt : Nat := 0
  dropped : Nat := 0
  errcnt : Nat := 0
  regc : Bool := false
  /-- INFLIGHT of the queue counts the record's descriptor (R106). -/
  counted : Bool := true
  /-- Ports that carried data writes of the descriptor with their last addresses, and whether the zero-length reads of R524 have
  been sent. -/
  ports : AMap Nat := []
  asked : Bool := false
  deriving DecidableEq, Repr

/-- A completion-ring context (Table 3.8) and the records that wait for it (R106). -/
structure Ring where
  base : Nat := 0
  j : Nat := 0
  loc : Bool := false
  headAddr : Nat := 0
  pasid : Nat := 0
  evsrc : Nat := 0
  ctx : Nat := 0
  en : Bool := false
  tail : Nat := 0
  /-- H, the head count last read at HEADADDR (R106). -/
  h : Nat := 0
  /-- Records formed and not written, oldest first. -/
  waiting : List CRecord := []
  deriving DecidableEq, Repr

/-- A tile set (R83) with its ledger (R55). -/
structure TSet where
  mask : BitVec 256 := 0
  owner : Nat := 0
  shared : Bool := false
  en : Bool := false
  balance : Int := 0
  /-- Its ledger was built at the last tick: a set that is not live is newly enabled at the next one (R86, R114). -/
  live : Bool := false
  deriving DecidableEq, Repr

/-- A tile-set change that waits for the next tick (R85). -/
structure TSetChange where
  set : Nat
  /-- none: TSCLEAR. -/
  define : Option (BitVec 256 × Nat × Bool)
  queue : Nat
  seq : Nat
  /-- A TSCLEAR of a set that would not be enabled after the tick has no effect (R85). -/
  effect : Bool := true
  deriving DecidableEq, Repr

/-- Where a tile's part of a descriptor stands (R91, R93). -/
inductive PartSt where
  /-- Its delivery packet has not been sent (R92) or has not arrived. -/
  | sent
  /-- It occupies a delivery slot, or waits at the tile for one of the holds of R93. -/
  | arrived
  /-- It is the tile's running part. -/
  | running
  /-- It has ended at the tile and has not been reported (R91). -/
  | ended
  /-- It has been reported. -/
  | reported
  deriving DecidableEq, Repr

structure Part where
  tile : Nat
  st : PartSt := .sent
  deriving DecidableEq, Repr

/-- What a context gives a descriptor at its dispatch (R370). -/
structure CtxSnap where
  root : Nat := 0
  ptctx : Nat := 0
  pasid : Nat := 0
  fring : Nat := 0
  ftimeout : Nat := 0
  deriving DecidableEq, Repr

/-- The stores of a job's record or ledger entries that left for a port: those of the tile with numbers from `first` to below `before`.
`col` is the column of a record's output tile, none for the strip's entries (R264). -/
structure LedgerWrite where
  strip : Nat
  col : Option Nat
  tile : Nat
  first : Nat
  before : Nat
  deriving DecidableEq, Repr

/-- A descriptor that has been consumed and has not completed. -/
structure Flight where
  queue : Nat
  seq : Nat
  desc : BitVec 512
  snap : CtxSnap := {}
  /-- Tile work: the tile set, its tiles' parts in ascending logical order. -/
  tset : Nat := 0
  parts : List Part := []
  /-- ORDER is 1 and the delivery packets have not been sent (R92). -/
  ordered : Bool := false
  /-- Its start under R61 has come. -/
  started : Bool := false
  /-- Cycles since the start, and those among them held for faults and for throttling (R61). -/
  cycles : Nat := 0
  faultHeld : Nat := 0
  throtHeld : Nat := 0
  /-- A tick has fallen before its completion (R60); its unheld cycles since the last tick, the debits made for them
  (R62), and whether any cycle since its first tick was unheld (R65). -/
  late : Bool := false
  lateUnheld : Nat := 0
  debits : Nat := 0
  anyUnheld : Bool := false
  /-- The abort that occurred first (R591); 0 for none. -/
  abort : Nat := 0
  dropped : Nat := 0
  errcnt : Nat := 0
  flushed : Nat := 0
  /-- Last address that its data writes reached on root ports 0–3 and the host port, 4 (R524). -/
  ports : AMap Nat := []
  /-- The job of a GEMM, GGEMM or CHAIN, as its blocks gave it when it was checked (R248, R249). -/
  job : Job := {}
  /-- Accumulated words of the K ranges of an output tile whose other ranges are not complete, by work unit (R102). -/
  partials : AMap (List Nat) := []
  /-- Output tiles of a job with a ledger whose records have been posted to their home tile: strip and column (R264). -/
  posted : List (Nat × Nat) := []
  /-- Strips whose home tile has posted: the ledger entries of the strip's 128 rows, R0 and R1 in turn as FP32 bits, or none where the
  ledger cannot complete (R264, R272). -/
  strips : AMap (Option (List Nat)) := []
  /-- What a post has to see acknowledged before it is made (R264). -/
  acks : List LedgerWrite := []
  /-- A tile has found a program of the job's chains invalid (R258). -/
  badProg : Bool := false
  /-- Management and synchronization: accepted, and waiting for its completion event; the round of its dispatch. -/
  waiting : Bool := false
  round : Nat := 0
  /-- Management, sorting mode and synchronization: its own step has been made. -/
  acted : Bool := false
  deriving DecidableEq, Repr

structure SorterSt where
  pigeons : AMap Pigeon := []
  rings : AMap Ring := []
  tsets : AMap TSet := []
  changes : List TSetChange := []
  /-- Consumed descriptors in order of consumption. -/
  flights : List Flight := []
  /-- Sorting-mode descriptors in dispatch order; the first runs (R113). -/
  sorting : List (Nat × Nat) := []
  /-- The sorting-mode descriptor at the front has made its passes. -/
  sortDone : Bool := false
  /-- Tile sets written through SORT_TSET since the last tick (R114). -/
  written : List Nat := []
  /-- The enabled set that held each tile at the last tick (R148). -/
  members : AMap Nat := []
  /-- The sorter selects no queue: a stop (R582) or an entry to Nap or Night (R513) is in progress. -/
  halted : Bool := false
  deriving DecidableEq, Repr

/-! ## The tile (chapters 4, 6, 7 and 9) -/

/-- An entry of the merging buffer (R139, R141): its bytes and mask, and the cycle of its allocation. -/
structure MergeEntry where
  line : Nat
  data : Line := 0
  mask : BitVec 128 := 0
  draining : Bool := false
  since : Nat := 0
  /-- Its stores' context, the bytes whose last store is of type UCM (Table 4.7, case 12), and whether its line is one of service-host
  bus addresses. -/
  ctx : Nat := 0
  umask : BitVec 128 := 0
  host : Bool := false
  deriving DecidableEq, Repr

/-- Why a control core does not go on. -/
inductive CoreWait where
  | none
  /-- A load blocked on a line: destination, address, size, sign, whether the line is kept (R139, Table 4.7 case 9), and its effective
  type. -/
  | fill (rd : Nat) (addr : Nat) (size : Nat) (sext : Bool) (float : Bool) (keep : Bool) (eff : Nat)
  /-- TTAKE of a counter: destination, counter, amount; TTEST likewise (R127). -/
  | take (rd c n : Nat)
  | test (rd c n : Nat)
  /-- TSUM on an empty FIFO (R123). -/
  | summary (rd : Nat)
  /-- A FENCE (R411), and a TPOST with release, with x[rs1] and the counter (R125). -/
  | fence (pred succ : Nat)
  | post (v : W64) (c : Nat)
  /-- TEND (R121). -/
  | ending
  /-- A TPUSH to a full queue: engine, destination, command; and a TKLAUNCH while a kernel is resident (R123, R289). -/
  | push (e : Engine) (rd : Nat) (cmd : BitVec 128)
  | launch (rd : Nat) (addr : Nat)
  deriving DecidableEq, Repr

/-- The control core of a tile and its caches (R117 to R142). -/
structure CoreSt where
  running : Bool := false
  pc : W64 := 0
  x : AMap W64 := []
  f : AMap W64 := []
  fcsr : Nat := 0
  /-- Tile microcode runs it in M-mode (R118). -/
  mmode : Bool := false
  wait : CoreWait := .none
  /-- Valid lines of the instruction cache, by virtual line (R142). -/
  icache : List Nat := []
  /-- Pocket cache lines, most recently used first, and the eviction buffer, newest first (R139). -/
  pocket : List (Nat × Line) := []
  evict : List (Nat × Line) := []
  merge : List MergeEntry := []
  /-- Granule reserved by LR (R403). -/
  resv : Option Nat := none
  /-- A drained store of the core was discarded (R411: a discard notice is due). -/
  notices : Nat := 0
  /-- Consecutive collection ticks that its TTAKE, TTEST, TSUM or stall has waited (R130). -/
  waitTicks : Nat := 0
  /-- TKLAUNCH launches made since the part began (R289). -/
  launches : Nat := 0
  /-- Instructions retired: CSR instret (R118). -/
  retired : Nat := 0
  deriving DecidableEq, Repr

/-- One engine's queue (R132). A started command is in `started`, oldest first, with whether its effect is complete. -/
structure EngineSt where
  queue : List (BitVec 128) := []
  started : List (BitVec 128 × Bool) := []
  /-- The head's take has been performed (R132). -/
  taken : Bool := false
  /-- Ticks that the head has waited (R130). -/
  waitTicks : Nat := 0
  ar : AMap W64 := []
  sr : AMap W64 := []
  /-- Commands that have completed since the tile's last reset: the model's own, it numbers the commands. -/
  ended : Nat := 0
  deriving DecidableEq, Repr

/-- Accumulator bank states (Table 6.9). -/
inductive BankSt where
  | free | accum | closing | tray | acc64 | close64
  deriving DecidableEq, Repr

/-- A bank: its state, and its 128 × 128 words in row order as FP32, INT32 or FP64 bits; an FP64 tile is listed at bank 0. -/
structure Bank where
  st : BankSt := .free
  words : List Nat := []
  deriving DecidableEq, Repr

/-- Word type of an out-tray entry (R211). -/
inductive WordTy where
  | fp32 | int32 | fp64
  deriving DecidableEq, Repr

structure TrayEntry where
  bank : Nat
  ty : WordTy
  tag : Nat
  deriving DecidableEq, Repr

/-- A slot of the in-tray: 128 A row lines and their scales, with the tag of R212. -/
structure InSlot where
  full : Bool := false
  /-- A command that reads it has started and has not completed. -/
  used : Bool := false
  fmt : Nat := 0
  kc : Nat := 0
  /-- Element codes of A, row by row. -/
  elems : List (List Nat) := []
  scales : List (List Nat) := []
  deriving DecidableEq, Repr

/-- The matrix engine (chapter 6). -/
structure MatrixSt where
  modeValid : Bool := false
  pitchValid : Bool := false
  /-- Payloads of the last MX.SETM and MX.SETP (R189). -/
  mode : BitVec 128 := 0
  pitch : BitVec 128 := 0
  banks : List Bank := [{}, {}, {}, {}]
  tray : List TrayEntry := []
  /-- DONE commands whose last write has not landed, in order: bank, word type, tag (R211). -/
  closing : List TrayEntry := []
  /-- The in-tray, oldest slot first (R212). -/
  inTray : List InSlot := []
  /-- Sliced FP64: what MX.EXP keeps of each row and column, the 128 × 128 accumulators, and the exact sums of special elements
  (R202, R204, R207). -/
  rows : List Expo := []
  cols : List Expo := []
  acc64 : List Int := []
  /-- Whether a cell of the 128 × 128 has taken a nonzero term (R156). -/
  live64 : List Bool := []
  special : AMap FV := []
  /-- Generator states of the 128 column lanes as their stream was opened, and the rounding steps made since (R198); none opened:
  state 0. -/
  gens : List W64 := []
  steps : Nat := 0
  deriving DecidableEq, Repr

/-- A run of the vector engine that has started and not ended (R235, R242). -/
structure RunSt where
  tag : Nat
  slot : Nat
  /-- Summary entries to push at its end, in index order (R235, R236). -/
  summaries : List W64
  /-- It fills the in-tray slot that it reserved. -/
  toTray : Bool
  deriving DecidableEq, Repr

/-- The vector engine (chapter 7). -/
structure VectorSt where
  /-- Program slots: the valid ones with their instructions (R221, R240). -/
  programs : AMap (List W64) := []
  /-- Payloads of VE.SETIN by IDX, for valid settings (R239, R240). -/
  streams : AMap (BitVec 128) := []
  /-- COLOP of the last run, 0 when the accumulators are invalid (R233), and the accumulators. -/
  colOp : Nat := 0
  cols : List Nat := []
  /-- Generator states of the 128 lanes (R227); 0 where no stream has been opened. -/
  gens : List W64 := []
  runs : List RunSt := []
  deriving DecidableEq, Repr

/-- A lane of a thread group (R277 to R283, R295). -/
structure Lane where
  x : AMap W64 := []
  pc : W64 := 0
  fcsr : Nat := 0
  exited : Bool := false
  /-- Waiting at block barrier 0–15, or at 16: GSYNC (R299, R301), with the mask of GSYNC. -/
  wait : Option Nat := none
  mask : Nat := 0
  /-- Generator state of SRND (R284). -/
  gen : W64 := 0
  resv : Option Nat := none
  retired : Nat := 0
  /-- Ticks through which it has waited, or been runnable without issuing (R303). -/
  waitTicks : Nat := 0
  deriving DecidableEq, Repr

/-- A resident group. -/
structure Group where
  block : Nat
  g : Nat
  pipe : Nat := 0
  lanes : List Lane := []
  halted : Bool := false
  /-- The issuing set recorded at a halting EBREAK (R313). -/
  haltSet : Nat := 0
  /-- STEP has been given while the group's progress (`groupWork`) stood at this count (R313). -/
  stepAt : Option Nat := none
  /-- The issuing set of its last memory instruction, as a mask (Table 9.5). -/
  lastSet : Nat := 0
  deriving DecidableEq, Repr

/-- A resident block: its local slot and its barriers' arrival counts (R293, R299). -/
structure Block where
  num : Nat
  slot : Nat := 0
  counts : List Nat := List.replicate 16 0
  deriving DecidableEq, Repr

/-- A kernel resident on a tile (R285 to R293). -/
structure Kernel where
  /-- Bytes 0–47 of its body or launch block (Table 9.2). -/
  body : BitVec 384 := 0
  /-- DONECNT when the kernel came from TKLAUNCH with DONEEN (R289). -/
  done : Option Nat := none
  /-- Started by TKLAUNCH. -/
  launched : Bool := false
  /-- Tile index (a4), next block number to start, and the number after the last block of this tile (R287). -/
  index : Nat := 0
  next : Nat := 0
  stop : Nat := 0
  blocks : List Block := []
  groups : List Group := []
  /-- The thread L1: lines with their data (R305). -/
  l1 : List (Nat × Line) := []
  /-- A fatal trap has stopped the groups: the debug record to write, and whether an uncorrectable read caused it (R311). -/
  trapped : Option (List Byte × Bool) := none
  /-- The numbers of the record's stores at a port, from the first to below the second, whose acknowledgement is awaited (R311). -/
  recordOut : Option (Nat × Nat) := none
  deriving DecidableEq, Repr

/-- A token post on its way to another tile (R129): the sender, the receiving tile, counter and increment. -/
structure Post where
  sender : Nat
  tile : Nat
  c : Nat
  n : Nat
  deriving DecidableEq, Repr

/-- Reset and clear states of a tile (R148, R581). -/
inductive TileMode where
  | normal
  /-- Reset drain: the microseconds of MO_CTL.DRAINTO counted from this cycle (R416). -/
  | draining (since : Nat)
  /-- The 512 cycles of a reset, begun at this cycle (R581). -/
  | resetting (since : Nat)
  /-- Clearing its scratchpad since this cycle, for the set that CT_TSET names at the clear's end (R148). -/
  | clearing (since : Nat) (set : Option Nat)
  /-- No tile stands behind the logical number (R461). -/
  | absent
  deriving DecidableEq, Repr

/-- A GEMM, GGEMM or CHAIN part between its commands (chapter 8). -/
structure ChainSt where
  /-- Units of its share that it has run (R101). -/
  next : Nat := 0
  /-- Held output tiles by number: element codes and scales of their rows (R265). -/
  held : AMap (List (List Nat × List Nat)) := []
  /-- Its units are done and it waits for posts (R266, R272). -/
  waiting : Bool := false
  deriving DecidableEq, Repr

/-- One logical tile. -/
structure Tile where
  /-- Delivery slots in delivery order: queue and sequence number (R91). -/
  slots : List (Nat × Nat) := []
  /-- Packets that wait at the tile (R93). -/
  waiting : List (Nat × Nat) := []
  /-- The part at the head of the slots has started. -/
  active : Bool := false
  mode : TileMode := .normal
  /-- Clears that are due, oldest first: the set that the tile belongs to after each, and the old set's descriptors, admitted before
  the tick, that must end before it (R148). -/
  clears : List (Option Nat × List (Nat × Nat)) := []
  core : CoreSt := {}
  ld : EngineSt := {}
  mx : EngineSt := {}
  ve : EngineSt := {}
  st : EngineSt := {}
  tokens : AMap Nat := []
  fifo : List W64 := []
  matrix : MatrixSt := {}
  vector : VectorSt := {}
  kernel : Option Kernel := none
  chain : ChainSt := {}
  /-- Scratchpad bytes written since its last clear or loss, by byte address (R143). -/
  sp : AMap Byte := []
  /-- Epoch of the scratchpad's undefined contents; none once it has been cleared (R148, Log 4). -/
  spLost : Option Nat := some 0
  /-- 64-bit words of the scratchpad that cannot be corrected, by number (R147). -/
  spBad : List Nat := []
  /-- The FLUSHED flags: bit 0 matrix, 1 vector, 2 thread-group, 3 feed (R172). -/
  flags : Nat := 0
  /-- Dozing (R512), and the cycle since which it is idle. -/
  doze : Bool := false
  idleSince : Nat := 0
  deriving DecidableEq, Repr

/-! ## Memories (chapter 10) -/

/-- A request in the queue of a memory channel (R326, R327). -/
structure MemReq where
  /-- Class P0 to P3. -/
  cls : Nat
  line : Nat
  /-- Cycle of its arrival. -/
  at_ : Nat
  write : Bool
  /-- Pseudo-channel of an HBM stack that it goes to; 0 for a GDDR-7 channel (Table 10.2). -/
  pch : Nat := 0
  /-- Errors that the line had at a read's request (Log 121). -/
  errs : LineErrors := {}
  /-- A scrub step's read: the device offset of the step's first line (R333). -/
  span : Option Nat := none
  deriving DecidableEq, Repr

/-- A memory device: HBM stack 0–7, or GDDR-7 channel 8–23 (Table 10.6). -/
structure MemDev where
  queue : List MemReq := []
  /-- Errors of stored lines, by line (R330 to R332). -/
  errors : AMap LineErrors := []
  /-- Corrected lines of the present scrub pass (R335). -/
  corrected : List Nat := []
  /-- Lines read by the scrub and found correctable, not yet written back, in order of their reads (R334). -/
  scrub : List Nat := []
  /-- Service slots since the last served request while throttled, by pseudo-channel (R329). -/
  slots : AMap Nat := []
  /-- Refresh commands performed: the model's own, for R328 states only how often they come. -/
  refreshes : Nat := 0
  deriving DecidableEq, Repr

/-! ## Coherence (chapter 11) -/

/-- Line states at a caching agent (Table 11.5); I is not held. -/
inductive CState where
  | m | o | e | s | isD | imD | smA | omA | miA | oiA | eiA | iiA
  deriving DecidableEq, Repr

/-- A line at a caching agent: its state, bytes, the context recorded with it (R354), and the tag of the agent's request
for it. -/
structure CLine where
  st : CState
  data : Line := 0
  ctx : Nat := 0
  txn : Nat := 0
  /-- Context of the Chk that the agent has sent for it (R354). -/
  chk : Nat := 0
  /-- The copy cannot be corrected (R363). -/
  bad : Bool := false
  deriving DecidableEq, Repr

/-- What a home awaits for the request that it serves (R362). -/
structure Serve where
  req : Msg
  /-- Agents whose SnpRsp is awaited, and whose WbData is awaited. -/
  rsp : List Nat := []
  wb : List Nat := []
  /-- The data of a WrFull, WrPart, WbM or WbO: whether it is still awaited, and what came. -/
  needData : Bool := false
  got : Option (Line × BitVec 128) := none
  /-- The requester's data or grant has been sent or is on its way from the owner; its CompAck has come; a request that ends
  without CompAck starts as acknowledged. -/
  answered : Bool := false
  acked : Bool := false
  deriving DecidableEq, Repr

/-- A directory entry (R355). -/
structure Dir where
  owner : Option Nat := none
  /-- The owner is in O, as far as the home knows. -/
  inO : Bool := false
  sharers : List Nat := []
  deriving DecidableEq, Repr

/-- What a unit's access to one line gives (R317, R332, R375). -/
inductive Got where
  | data (l : Line)
  | refused
  | unmapped
  | bad
  deriving DecidableEq, Repr

/-- An access that a unit holding no lines makes through its agent (R345, R346): the request's kind and tag, the class in which memory
serves it, the bytes of a write, the tile that writes and whether its core does, and the answer. -/
structure UnitReq where
  agent : Nat
  kind : MsgKind
  line : Nat
  txn : Nat := 0
  cls : Nat := 0
  data : Line := 0
  mask : BitVec 128 := 0
  tile : Option Nat := none
  core : Bool := false
  got : Option Got := none
  deriving DecidableEq, Repr

/-- State of the coherence protocol (chapter 11). -/
structure CohSt where
  /-- Messages on the four virtual channels, in no order (R348). -/
  net : List Msg := []
  /-- Lines of the caching agents 0x00–0x23, by agent × 2^45 + line. -/
  lines : AMap CLine := []
  /-- Lines least recently used first, as keys of `lines`, for replacement (R360). -/
  lru : List Nat := []
  /-- Home-portion copies: bytes and whether dirty, by line (R357). -/
  copies : AMap (Line × Bool) := []
  copyLru : List Nat := []
  /-- Directory entries by line, and lines least recently used first (R355, R356). -/
  dir : AMap Dir := []
  dirLru : List Nat := []
  /-- Requests being served, and requests waiting, by line (R352). -/
  serving : AMap Serve := []
  waiting : AMap (List Msg) := []
  /-- Tags of the requests that hold a credit, by requester × 8 + home (R349, R350); a local request carries none and counts as 0. -/
  used : AMap (List Nat) := []
  /-- Last tag used by each agent. -/
  txn : AMap Nat := []
  /-- Presence vectors of the base dies' lines, by base die × 2^45 + line: the clusters whose pocket caches may hold the line (R347). -/
  presence : AMap (BitVec 18) := []
  /-- WbData that reached the home before it awaited them (R348, R350). -/
  early : List Msg := []
  /-- The line whose directory entry is being freed for a waiting request, by that request's line (R356). -/
  evicting : AMap Nat := []
  /-- Lines whose home-portion copy cannot be corrected (R363; Log 124). -/
  badHome : List Nat := []
  /-- The access that a unit is making within the present command (R345; Log 22). -/
  unit : Option UnitReq := none
  /-- Accesses that a Deny refused and that their agent has not yet reported to the access: agent, line, context (R354). -/
  denied : List (Nat × Nat × Nat) := []
  /-- Uncached accesses of a node core that were discarded or abandoned: agent and tag (R415). -/
  late : List (Nat × Nat) := []
  /-- Lines delivered uncorrectable to an agent and not yet reported to the access (R363). -/
  spoiled : List (Nat × Nat) := []
  /-- Held lines of an OWNSET in progress: granules (R379). -/
  heldGranules : List Nat := []
  /-- RSIZE of base dies 0 to 3 as the L2's last start took it (Table 11.12). -/
  rsize : List Nat := [2, 2, 2, 2]
  deriving DecidableEq, Repr

/-- An uncached access of a node core that waits for Data or Cmp: destination, address, size, sign. -/
structure UncAccess where
  write : Bool
  rd : Nat := 0
  addr : Nat := 0
  size : Nat := 0
  txn : Nat := 0
  dev : Bool := false
  /-- Access timer at its issue, and its timeout in µs (R402, R412). -/
  issued : Nat := 0
  tout : Nat := 0
  deriving DecidableEq, Repr

/-- A FENCE of a node core that has waited for accesses (R411): the uncached accesses by tag and the accesses by number that its
predecessor set holds, and its successor set. -/
structure HartFence where
  txns : List Nat
  ids : List Nat
  succ : Nat
  deriving DecidableEq, Repr

/-- Modes of a node core (R27). -/
inductive HartMode where
  | machine | supervisor | user
  deriving DecidableEq, Repr

/-- A node core's hart: what its rows read and write (R361 to R369, R403, R407). -/
structure Hart where
  /-- Released from reset (Table 20.3). -/
  running : Bool := false
  /-- Integer, floating-point and vector registers, the last of VLEN 256 (R27). -/
  x : AMap W64 := []
  f : AMap W64 := []
  v : AMap (BitVec 256) := []
  /-- Mode: machine, supervisor or user (R27). -/
  mode : HartMode := .machine
  /-- CSR mflsctx, 0x7C0 (R369). -/
  mflsctx : Nat := 1
  resv : Option Nat := none
  unc : List UncAccess := []
  fences : List HartFence := []
  /-- Precise access faults taken (R317, R375). -/
  faults : Nat := 0
  /-- Machine checks reported to the node operating system (R462). -/
  checks : Nat := 0
  /-- Idle in WFI (R513). -/
  wfi : Bool := false
  deriving DecidableEq, Repr

/-! ## Contexts, ownership and page faults (chapter 12) -/

/-- A segment entry (Table 12.5). -/
structure Seg where
  base : Nat
  limit : Nat
  pbase : Nat
  tier : Nat
  paged : Bool
  w : Bool
  r : Bool
  deriving DecidableEq, Repr

/-- Quota of a context in one tier (R438): CAP in granules, none for no limit, and MOVEB. -/
structure Quota where
  cap : Option Nat := none
  moveb : Nat := 0
  deriving DecidableEq, Repr

/-- Sealing of a context (R560, R562, R572). -/
inductive Seal where
  /-- Opened with SEALED 0. -/
  | plain
  | unsealed
  | sealed
  | broken
  deriving DecidableEq, Repr

/-- An open context. -/
structure Ctx where
  sealing : Seal := .plain
  /-- TKEY and SEALMEAS of its seal (R562). -/
  tkey : List Byte := []
  sealmeas : List Byte := []
  /-- Its Tier 1 and flash key pairs (R557, R562). -/
  keys : List Byte := []
  ftimeout : Nat := 255
  fring : Nat := 0
  ptctx : Nat := 1
  root : Nat := 0
  pasid : Nat := 0
  /-- Valid segments by number. -/
  segs : AMap Seg := []
  /-- Quotas by tier 0–2. -/
  quotas : AMap Quota := []
  deriving DecidableEq, Repr

/-- An ownership entry (Table 12.3). -/
structure Own where
  owner : Nat := 0
  mode : Nat := 0
  sro : Bool := false
  sset : Nat := 0
  deriving DecidableEq, Repr

/-- The structures of Table 12.8 that hold leaves. -/
inductive TlbId where
  | itlb (t : Nat) | dtlb (t : Nat) | thread (t : Nat) | engine (t : Nat) | hub
  deriving DecidableEq, Repr

/-- A cached leaf: the context, the first virtual page it maps, how many 4 KiB pages, and its entry. -/
structure TlbEntry where
  id : TlbId
  ctx : Nat
  page : Nat
  pages : Nat
  pte : Nat
  level : Nat
  deriving DecidableEq, Repr

/-- A cached non-leaf entry: walk cache of base die 0–3 or of the hub (4), level of the table it names, the virtual
address bits above it, and that table's address. -/
structure WalkEntry where
  die : Nat
  ctx : Nat
  level : Nat
  tag : Nat
  table : Nat
  deriving DecidableEq, Repr

/-- Who waits on a page fault (Table 12.10, SOURCE and UNIT). -/
inductive Waiter where
  | core (t : Nat)
  | group (t block g : Nat)
  | fill (t : Nat)
  | store (t : Nat)
  | mover (m : Nat)
  | microcode (q seq : Nat)
  deriving DecidableEq, Repr

/-- An access that a page fault stalls: its unit and ACCESS code, its descriptor, and the round in which it first faulted (R390, R393). -/
structure Stalled where
  w : Waiter
  access : Nat
  queue : Nat
  seq : Nat
  first : Nat
  deriving DecidableEq, Repr

/-- A page that a stalled access waits for, or that a resume has answered: `fail` says that the resume fails the access (R392). -/
structure Resumed where
  by_ : Stalled
  page : Nat
  fail : Bool := false
  deriving DecidableEq, Repr

/-- An outstanding page fault (R389 to R394). -/
structure PFault where
  ring : Nat
  id : Nat
  ctx : Nat
  va : Nat
  cause : Nat
  access : Nat
  level : Nat
  pte : Nat
  who : Waiter
  queue : Nat
  seq : Nat
  postmark : Nat
  /-- Round in which the access first faulted (R393, R394), and its AGE when the record was formed. -/
  first : Nat
  age : Nat := 0
  /-- UNIT of its record (Table 12.10). -/
  unit : Nat := 0
  /-- The accesses of `who` and of those joined to it (R390). -/
  joined : List Stalled := []
  deriving DecidableEq, Repr

/-- A fault-ring context (Table 12.9). -/
structure FRing where
  base : Nat := 0
  j : Nat := 0
  loc : Bool := false
  headAddr : Nat := 0
  pasid : Nat := 0
  evsrc : Nat := 0
  ctx : Nat := 0
  en : Bool := false
  tail : Nat := 0
  h : Nat := 0
  nextId : Nat := 0
  /-- Records formed and not written, oldest first (R389). -/
  waiting : List PFault := []
  deriving DecidableEq, Repr

/-- An OWNSET or SHARESET in progress: the granules to do and the new entry, or the share-set change (R379). -/
structure OwnJob where
  queue : Nat
  seq : Nat
  granules : Nat
  first : Nat
  entry : Own
  /-- A SHARESET removal: set and member. -/
  leave : Option (Nat × Nat) := none
  deriving DecidableEq, Repr

structure XlatSt where
  /-- Open contexts beside 0x0000. -/
  ctxs : AMap Ctx := [(1, {}), (2, { ptctx := 2 })]
  /-- Ownership entries that differ from the default of R377, by granule. -/
  own : AMap Own := []
  /-- INITOWN taken when LOCK was set; none before (R377). -/
  initOwn : Option Nat := none
  /-- Members of the share sets (R376). -/
  shares : AMap (List Nat) := []
  tlb : List TlbEntry := []
  walks : List WalkEntry := []
  rings : AMap FRing := []
  faults : List PFault := []
  /-- Accesses whose fault has been resumed and that have not been made again (R392, R393). -/
  resumed : List Resumed := []
  /-- Accesses whose fault lies beyond a limit of R390: they stall until room is freed. -/
  beyond : List Resumed := []
  jobs : List OwnJob := []
  deriving DecidableEq, Repr

/-! ## Outstanding accesses (chapter 13) -/

/-- Who issued an access (Table 21.2, KIND and UNIT). -/
inductive AccUnit where
  | hart (h : Nat) | core (t : Nat) | thread (t block g : Nat) | fill (t : Nat) | store (t : Nat) | mover (m : Nat) | hubIo
  deriving DecidableEq, Repr

/-- An access to a target beyond the coherent memory that has left its unit and is not answered (R409, R412). -/
structure Access where
  id : Nat
  unit : AccUnit
  write : Bool
  /-- Effective type DEV (R408), for FENCE (R410). -/
  dev : Bool
  addr : Nat
  bytes : Nat
  /-- Bytes of a store. -/
  data : List Byte := []
  /-- Destination register of a core's load, and how the data is extended; the lane of a thread's load. -/
  rd : Nat := 0
  sext : Bool := false
  float : Bool := false
  lane : Nat := 0
  /-- Number of the store-engine command that made it (R133). -/
  cmd : Nat := 0
  /-- Virtual address of a lane's load, for the debug record (Table 9.5). -/
  va : Nat := 0
  ctx : Nat := 0
  desc : Option (Nat × Nat) := none
  /-- The bus address at the service host, where the access goes there through a host leaf. -/
  host : Option Nat := none
  /-- Root port and bus address that an access to an outbound window goes to (R532). -/
  port : Option (Nat × Nat) := none
  /-- The record that the write brings to a ring in service-host memory: whether the ring is a fault ring, its number, and the record
  without its flag (R527). -/
  mail : Option (Bool × Nat × List Byte) := none
  /-- What a bulk unit's read has brought: its bytes, or none for an abandoned read. -/
  got : Option (List (Option Byte)) := none
  /-- Access timer at its issue, in ns, and its timeout in µs (R402, R412). -/
  issued : Nat := 0
  tout : Nat := 0
  deriving DecidableEq, Repr

structure OrderSt where
  out : List Access := []
  nextId : Nat := 0
  /-- Accesses discarded or abandoned whose answers may still come (R415). -/
  late : List Nat := []
  /-- Accesses of cores and lanes to coherent lines that have left their units and are not performed; a store among them that has been
  discarded has an answer (R412 to R414). -/
  tried : List Access := []
  /-- The access timer in ns, its fraction, and the last whole microsecond tested (R412). -/
  timer : Nat := 0
  frac : Nat := 0
  tested : Nat := 0
  deriving DecidableEq, Repr

/-! ## Parcel movers and the flash tier (chapter 14) -/

/-- A parcel mover's descriptor (R421). -/
structure Mover where
  queue : Nat
  seq : Nat
  desc : BitVec 512
  snap : CtxSnap
  /-- Destination bytes that have been written or counted as lost, and bytes of the source image of an UNPACK that are done. -/
  pos : Nat := 0
  image : Nat := 0
  /-- Flash granules that the next step needs and that have not been read (R434). -/
  want : List Nat := []
  /-- Node time at which it came to wait for the first of them (R437, R441). -/
  wantAt : Nat := 0
  /-- Flash granules that have been read for the next step: granule, and bytes, or none where uncorrectable. -/
  buf : List (Nat × Option (List Byte)) := []
  /-- Flash granules that wait to be programmed: granule, bytes of the move in it, and its bytes; one that is none keeps its old
  value. -/
  out : List (Nat × Nat × List (Option Byte)) := []
  /-- Its bytes have all moved, or it has ended early. -/
  done : Bool := false
  deriving DecidableEq, Repr

/-- A flash channel (R431 to R435). -/
structure Channel where
  /-- Erased blocks on it, and reclaim ahead of writes (R432). -/
  erased : Nat := 0
  reclaim : Bool := false
  /-- Granules programmed on it: the model's own (Log 40). -/
  programs : Nat := 0
  /-- Reads of a block since its last erase, by block (R433). -/
  reads : AMap Nat := []
  /-- Erases of a block, by block (R433). -/
  wear : AMap Nat := []
  deriving DecidableEq, Repr

structure FlashSt where
  /-- Mapped granules, with the channel that holds each (R430, R431). -/
  map : AMap Nat := []
  channels : AMap Channel := []
  /-- Channel of the next granule written (R431). -/
  next : Nat := 0
  /-- Parity stripe of each mapped granule, the channels of each stripe's members in the order in which they were programmed, its parity
  last, and the stripe that fills (R431). -/
  stripe : AMap Nat := []
  stripes : AMap (List Nat) := []
  filling : Nat := 0
  /-- Blocks erased (Log 40). -/
  erases : Nat := 0
  /-- Journal entries since the last checkpoint, and the clean-stop mark as the journal's last entry (R417, R436). -/
  journal : Nat := 0
  /-- Checkpoint and journal reads of the map made so far (R326). -/
  mapReads : Nat := 0
  clean : Bool := false
  /-- Bytes of each context's parcel moves in each tier in the present round, by context × 4 + tier (R440). -/
  rate : AMap Nat := []
  deriving DecidableEq, Repr

/-! ## Service host (chapter 18) -/

structure HostSt where
  /-- Held mail: whether the ring is a fault ring, its number, and the record without its flag (R527). -/
  held : List (Bool × Nat × List Byte) := []
  /-- The attach record of the last detach (Table 18.4): node time, GEN, CAUSE, QDET, RDET; HELDDROP, and HP_DATADROP_CNT at the
  detach. -/
  detachPm : Nat := 0
  gen : Nat := 0
  cause : Nat := 0
  qdet : Nat := 0
  rdet : Nat := 0
  heldDrop : Nat := 0
  dataAt : Nat := 0
  /-- An attach is in progress (R530). -/
  attaching : Bool := false
  /-- HOST_PERST_N is low (R525, R616). -/
  perst : Bool := false
  /-- Tray chain: letters held for forwarding and letters of the module's own to send, oldest first (R538). -/
  forward : List (List Byte) := []
  sendQ : List (List Byte) := []
  /-- Letters that have left on CHAIN_OUT, newest first. -/
  chainOut : List (List Byte) := []
  /-- Cycle since which CHAIN_IN has been idle (R540). -/
  chainIdle : Nat := 0
  /-- Cycle at which the next letter can start on CHAIN_OUT (R536), and SEQ of the next letter of the module's own. -/
  chainBusy : Nat := 0
  letterSeq : Nat := 0
  deriving DecidableEq, Repr

/-! ## Tarle (chapter 19) -/

/-- A debug session (R565, R566). -/
structure DebugSession where
  ctx : Nat
  ops : Nat
  expiry : Nat
  /-- Groups that it has halted: tile, block, group. -/
  halted : List (Nat × Nat × Nat) := []
  deriving DecidableEq, Repr

/-- A selective IDE stream (R556, R557). -/
inductive IdeSt where
  | keyed | secure | insecure
  deriving DecidableEq, Repr

/-- One mailbox (R567): its request and response pages by byte, where not zero. -/
structure Mailbox where
  req : AMap Byte := []
  rsp : AMap Byte := []
  deriving DecidableEq, Repr

structure TarleSt where
  /-- Measurement slots, 32 bytes each, where not zero (R550). -/
  slots : AMap (List Byte) := []
  /-- Identity key d, vendor key and identity certificate (R548, R549). -/
  d : List Byte := []
  vkey : List Byte := []
  cert : List Byte := []
  mailboxes : List Mailbox := [{}, {}]
  /-- Letters of TYPE 0x01 that wait for Tarle, oldest first (R569). -/
  letters : List (List Byte) := []
  /-- Nonces that SEALNONCE and DBGNONCE issued and that are unused, by context (R562, R565). -/
  sealNonce : AMap (List Byte) := []
  dbgNonce : AMap (List Byte) := []
  dbgKey : Option (List Byte) := none
  portDigest : AMap (List Byte) := []
  /-- Contexts for which a debug token has been accepted since power-on (R565). -/
  debugSeen : List Nat := []
  /-- Debug sessions by handle 0–7 (R565). -/
  sessions : AMap DebugSession := []
  /-- SPDM sessions 0–3: whether FINISH has completed (R554, R555), and the responses sent, newest first. -/
  spdm : AMap Bool := []
  answers : List (List Byte) := []
  /-- IDE streams by port × 4 + stream; port 4 is the host port. -/
  ide : AMap IdeSt := []
  /-- Components of the accepted bundle by TYPE (R546), as held for reloads. -/
  components : AMap (List Byte) := []
  /-- A Tarle-only reset is in progress (R571). -/
  resetting : Bool := false
  /-- Draws of the entropy source so far. -/
  draws : Nat := 0
  deriving DecidableEq, Repr

/-! ## Links, repair and the customs gate (chapter 15) -/

/-- One direction of an interposer link (R443 to R450). -/
structure LinkDir where
  /-- Last SEQ accepted by the receiver, and whether it waits for a replay (R447). -/
  rx : Nat := 127
  nak : Bool := false
  /-- A flit has been discarded since the link's last recalibration (R452). -/
  errored : Bool := false
  /-- Failed wires of a bundle, 0–33 data and spare, 34 valid, 35 clock, as bundle × 36 + wire (R449). -/
  wires : List Nat := []
  /-- Retired bundles (R449). -/
  bundles : List Nat := []
  trained : Bool := false
  /-- Replay buffer of the transmitter, oldest flit first, and those of its flits still to be sent again (R447). -/
  replay : List (BitVec 2048) := []
  again : List (BitVec 2048) := []
  /-- Credits that the other direction's flits have returned, by channel: REQ, SNP, RSP, DAT, SYS (Table 15.2). -/
  credits : AMap Nat := []
  /-- Units received of the message that began last, its header first (R448). -/
  units : List (BitVec 128) := []
  deriving DecidableEq, Repr

structure RepairSt where
  links : AMap LinkDir := []
  /-- Physical tile, die × 36 + number, of each logical tile, where it differs from die × 36 + number in the die (R23, R459). -/
  phys : AMap Nat := []
  /-- Physical core of each hart, where it differs (R28). -/
  cores : AMap Nat := []
  /-- Retired physical tiles, cores and cluster router stops, with their fence bits, and those among them that the assembly test
  had retired (R454, R463). -/
  retired : List Nat := []
  retiredCores : List Nat := []
  retiredRouters : List Nat := []
  assembly : List Nat := []
  assemblyCores : List Nat := []
  /-- Failed elements by group, retired to spares within their units. -/
  elements : List UnitRef := []
  /-- Forwarding maps of the groups of columns, lanes and wires that have a failed element: the positions that carry the group's
  logical identities, in order (R184, R454, R459). -/
  maps : AMap (List Nat) := []
  /-- Logical tiles that the present beat's retirements have moved, with the spares they took (R460). -/
  moved : List (Nat × Nat) := []
  /-- Units that errors have named and that wait for their test, with the last round in which it was deferred (R59), and units under
  test (R457). -/
  tests : List (UnitRef × Option Nat) := []
  testing : List UnitRef := []
  /-- Links out of service for recalibration, and the next hub and ring link of the rotation (R452). -/
  recal : List Nat := []
  nextHub : Nat := 0
  nextRing : Nat := 0
  /-- Transient classifications with their rounds (R458). -/
  transients : List (UnitRef × Nat) := []
  /-- Corrections traced to a bond group in the present round (R457). -/
  bond : List UnitRef := []
  deriving DecidableEq, Repr

/-- A guest request at the customs gate (R466): its header, bytes and byte mask. -/
structure GuestReq where
  hdr : BitVec 128
  bytes : List Byte := []
  mask : BitVec 128 := 0
  /-- It is not well formed (R466). -/
  bad : Bool := false
  deriving DecidableEq, Repr

structure GateSt where
  /-- Whole microsecond of node time of the last refill: the model's own (R468). -/
  refilled : Nat := 0
  /-- Byte allowance of each window (R468). -/
  allowance : AMap Nat := []
  /-- Requests that wait at the gate, oldest first. -/
  waiting : List GuestReq := []
  /-- Answers sent to the guest, newest first: header and bytes. -/
  answers : List (BitVec 128 × List Byte) := []
  deriving DecidableEq, Repr

/-! ## Power states (chapter 17) -/

/-- Run, an entry to Nap or Night in progress, the two sleeping states, and no rail but VA (R513, R516, R582). -/
inductive Sleep where
  | run
  | entering (night : Bool) (round limit : Nat)
  | nap
  | night
  deriving DecidableEq, Repr

/-- A rail's limiter (R498, R499, R505, R506). -/
structure RailSt where
  /-- Current samples in mA, newest first, as many as the longest window holds. -/
  samples : List Nat := []
  /-- Samples of the present beat (R500). -/
  beat : List Nat := []
  /-- Its fraction in sixteenths, and whether its pause is in force. -/
  frac : Nat := 16
  paused : Bool := false
  /-- Cycle until which the set point is raised by 10 mV (R505). -/
  raised : Nat := 0
  /-- Droop domains whose clocks are stretched (R506). -/
  stretched : List Nat := []
  /-- Consecutive beats in which telemetry and estimate differed (R500). -/
  drift : Nat := 0
  deriving DecidableEq, Repr

structure PowerSt where
  sleep : Sleep := .run
  rails : AMap RailSt := []
  /-- Input power of the last beats in mW, newest first, and the pause of R501. -/
  inputs : List Nat := []
  capPause : Bool := false
  /-- Thermal fractions of compute dies 0–7, base dies 8–11 and the hub, 12, where below 16 (R510). -/
  thermal : AMap Nat := []
  /-- Sensors, 16 · die + sensor, whose crossing of the warning level has been reported (R510). -/
  warned : List Nat := []
  /-- A module reset, 2, or a Tarle-only reset, 4, that follows the wake (R580). -/
  after : Option Nat := none
  /-- The mailbox that asked for the present entry (R513, R514). -/
  asker : Option Nat := none
  /-- Cause and readings kept by Tarle after a trip, for the start record (R511). -/
  trip : Option (Nat × List Int) := none
  /-- The next tick, the first after a wake, rebuilds every ledger without a debt (R516). -/
  fresh : Bool := false
  /-- The PW_CAP value of a SETCAP request, in force from the next beat (R502). -/
  capNext : Option Nat := none
  deriving DecidableEq, Repr

/-! ## Start-up (chapter 20) -/

/-- Why the device stands in OFF: a power-off, a supply loss, a thermal trip, or a release of MATE_N (R509, R511, R582, R615). -/
inductive OffCause where
  | stop | supply | trip | mate
  deriving DecidableEq, Repr

/-- What a start's self-test has found, for the start record (Table 20.5). -/
structure TestReport where
  usable : List Nat := []
  cores : Nat := 0
  links : Nat := 0
  nret : Nat := 0
  nreadmit : Nat := 0
  nasm : Nat := 0
  /-- Entries of Table 20.2 in their order. -/
  entries : List Nat := []
  deriving DecidableEq, Repr

structure StartSt where
  /-- Calibration section of the module record (Table 20.1). -/
  calibration : List Byte := []
  /-- MATE_N is low and the input bus is charged (R614). -/
  mated : Bool := true
  /-- Every rail but VA is off, or every rail (R509, R511, R582, R615). -/
  off : Option OffCause := none
  /-- Start of Table 20.5: KIND of the present start, GEN, and the latches for FLAGS. -/
  begun : Bool := false
  kind : Nat := 1
  gen : Nat := 0
  supplyLoss : Bool := false
  forced : Bool := false
  /-- The clean-stop mark of the previous run was absent at this start (R417). -/
  unclean : Bool := false
  /-- The held module record and boot bundle. -/
  record : List Byte := []
  bundle : List Byte := []
  /-- KIND of the file whose fetch through the host port is under way (R575). -/
  fetch : Option Nat := none
  /-- Bytes that letters of TYPE 0x03 have brought, by KIND × 2^32 + offset, and each file's length once its LAST letter has come
  (R576). -/
  parts : AMap Byte := []
  lengths : AMap Nat := []
  report : TestReport := {}
  /-- The start record, ST_REC (R584). -/
  startRec : List Byte := []
  /-- A stop in progress: its KIND, and the round at which its LIMIT passes (R582). -/
  stop : Option (Nat × Nat) := none
  deriving DecidableEq, Repr

end Sys2Proof.Machine
end

