-- ==== Sys2Proof/Machine/State.lean ====
section
/-! DEFINITION. The state of the block as plain data, its reset, and the reasons for which a step can stop. -/

namespace Sys2Proof.Machine

/-- Faults. The manual gives every access and every command an effect (an access to an address that does not exist reads
as R317 says), so no meaning stops with a fault. -/
inductive Fault where
  deriving DecidableEq, Repr

/-- Refusals. -/
inductive Refusal where
  /-- Raised by an arm of `exec` whose command has no meaning yet. Safe. -/
  | notModelled (mnemonic : String)
  deriving DecidableEq, Repr

/-- The machine. -/
structure State where
  /-- Commands that wait, first in, first out. -/
  pending : List Instr := []
  /-- Register fields that have been set since power-on, by `Fld.key`; any other field holds its reset value (R607). -/
  flds : AMap Nat := []
  /-- Bytes of Tier 0, Tier 1 and the flash window by physical address, in canonical form (Table 10.1). -/
  mem : List Host.Cell := []
  /-- Bytes of the service host's memory by host bus address, in canonical form (Log 12). -/
  hostMem : List Host.Cell := []
  ident : Ident := {}
  time : TimeSt := {}
  tick : TickRegs := {}
  ec : EventSt := {}
  /-- Dead-letter entries by index, at most 4,096 (R594). -/
  letters : AMap DeadLetter := []
  sorter : SorterSt := {}
  /-- Logical tiles that are not in their reset state. -/
  tiles : AMap Tile := []
  /-- Token posts on their way between tiles (R129). -/
  posts : List Post := []
  power : PowerSt := {}
  start : StartSt := {}
  repair : RepairSt := {}
  /-- Busy parcel movers 0–31 (R421). -/
  movers : AMap Mover := []
  flash : FlashSt := {}
  host : HostSt := {}
  gate : GateSt := {}
  tarle : TarleSt := {}
  /-- Memory devices that are not in their reset state (Table 10.6). -/
  devs : AMap MemDev := []
  coh : CohSt := {}
  xlat : XlatSt := {}
  order : OrderSt := {}
  /-- Harts 0–31 that are not in their reset state. -/
  harts : AMap Hart := []
  /-- High words that 32-bit reads of low words have latched, by requester (Tarle 0, hart h 1 + h, the host port 33): the BAR0 offset
  of the 64-bit register, and the word (R601). -/
  shadows : AMap (Nat × Nat) := []
  /-- Number of free values drawn: the model's own (Log 3). -/
  free : Nat := 0
  /-- Data that the last reading command returned to its sender: the model's own (Log 13). -/
  answer : List Byte := []
  deriving DecidableEq, Repr

/-- The machine at power-on reset (Table 20.3, time 0; R607): every field at its reset value. -/
def State.reset : State := {}

end Sys2Proof.Machine
end

