-- ==== Sys2Proof/Machine/Ops.lean ====
section
/-! DEFINITION. Named operations on sparse maps, register fields, bytes of memory, and free values. -/

namespace Sys2Proof.Machine

/-! ## Sparse maps with rising keys -/

/-- The value at key `k`, or `d` where the key is not listed. -/
def AMap.getD {α : Type} (m : AMap α) (k : Nat) (d : α) : α :=
  match m with
  | [] => d
  | (k', v) :: rest => if k' = k then v else AMap.getD rest k d

/-- The value at key `k`, if the key is listed. -/
def AMap.get? {α : Type} (m : AMap α) (k : Nat) : Option α :=
  match m with
  | [] => none
  | (k', v) :: rest => if k' = k then some v else AMap.get? rest k

/-- The map with `v` at key `k`. -/
def AMap.put {α : Type} (m : AMap α) (k : Nat) (v : α) : AMap α :=
  match m with
  | [] => [(k, v)]
  | (k', v') :: rest =>
    if k < k' then (k, v) :: (k', v') :: rest
    else if k = k' then (k, v) :: rest
    else (k', v') :: AMap.put rest k v

/-- The map without key `k`. -/
def AMap.erase {α : Type} (m : AMap α) (k : Nat) : AMap α := m.filter fun p => p.1 != k

/-! ## Bytes of memory in canonical form -/

/-- Writes byte `b` at `a`: in rising order, and nothing listed where `b` is what an unlisted byte reads as. -/
def cellPut (dflt : Nat → Byte) (m : List Host.Cell) (a : Nat) (b : Byte) : List Host.Cell :=
  match m with
  | [] => if b = dflt a then [] else [(a, b)]
  | (a', b') :: rest =>
    if a < a' then (if b = dflt a then (a', b') :: rest else (a, b) :: (a', b') :: rest)
    else if a = a' then (if b = dflt a then rest else (a, b) :: rest)
    else (a', b') :: cellPut dflt rest a b

/-- The byte at `a`. -/
def cellGet (dflt : Nat → Byte) (m : List Host.Cell) (a : Nat) : Byte :=
  match m with
  | [] => dflt a
  | (a', b') :: rest => if a' = a then b' else if a < a' then dflt a else cellGet dflt rest a

/-- The canonical form: keys strictly rising, and no entry equal to what an unlisted byte reads as. -/
def cellsWf (dflt : Nat → Byte) : List Host.Cell → Bool
  | [] => true
  | [(a, b)] => b != dflt a
  | (a, b) :: (a', b') :: rest => b != dflt a && decide (a < a') && cellsWf dflt ((a', b') :: rest)

/-- Little-endian number of a list of bytes (R9). -/
def leNat : List Byte → Nat
  | [] => 0
  | b :: rest => b.toNat + 256 * leNat rest

/-- The `n` low bytes of `v`, lowest first (R9). -/
def leBytes : Nat → Nat → List Byte
  | 0, _ => []
  | n + 1, v => BitVec.ofNat 8 v :: leBytes n (v / 256)

/-! ## Fields of registers -/

namespace State

/-- The value of a register field. -/
def get (s : State) (f : Fld) : Nat := AMap.getD s.flds f.key f.reset

/-- The field set to `v`, cut to its width. -/
def set (s : State) (f : Fld) (v : Nat) : State := { s with flds := AMap.put s.flds f.key (v % 2 ^ f.len) }

/-- A one-bit field. -/
def flag (s : State) (f : Fld) : Bool := s.get f != 0

/-- A one-bit field set or cleared. -/
def setFlag (s : State) (f : Fld) (b : Bool) : State := s.set f (if b then 1 else 0)

/-- A counter raised by `n`, holding at 2^48 − 1 (R592). -/
def bump (s : State) (f : Fld) (n : Nat := 1) : State := s.set f (min (2 ^ 48 - 1) (s.get f + n))

/-- CFGERR, or another sticky bit, set. -/
def raise (s : State) (f : Fld) : State := s.set f 1

/-- Sets CFGERR of a register's block, where the block has one. -/
def cfgErr (s : State) (r : Reg) : State :=
  match r.cfgErr with
  | some f => s.raise f
  | none => s

/-- Node time in ns (R34). -/
def now (s : State) : Nat := s.get Reg.NT_NOW.NOW

/-- MEM_CTL.LOCK (R325). -/
def locked (s : State) : Bool := s.flag Reg.MEM_CTL.LOCK

/-! ## Free values -/

/-- The next free value, cut to `n` bits, and the state that has drawn it. -/
def draw (s : State) (n : Nat) : Nat × State :=
  ((Config.freeValue s.free).toNat % 2 ^ n, { s with free := s.free + 1 })

/-! ## Tiles -/

/-- Logical tile `n`. -/
def tile (s : State) (n : Nat) : Tile := AMap.getD s.tiles n {}

/-- Logical tile `n` changed by `f`. -/
def onTile (s : State) (n : Nat) (f : Tile → Tile) : State :=
  { s with tiles := AMap.put s.tiles n (f (s.tile n)) }

end State

end Sys2Proof.Machine
end

