-- ==== Sys2Proof/Machine/Events.lean ====
section
/-! DEFINITION. The event controller and the night mail unit (chapter 16), and the dead-letter log (chapter 21). -/

namespace Sys2Proof.Machine

/-- Sources that Table 16.1 marks reserved, and numbers that name no source (R471, R473). -/
def reservedSource (n : Nat) : Bool :=
  n = 0 || (14 ≤ n && n ≤ 31) || (72 ≤ n && n ≤ 127) || (773 ≤ n && n ≤ 895) || 1024 ≤ n

/-- A claimable source: pending, unmasked and not active (R476). -/
def Src.claimable (x : Src) : Bool := x.pend && !x.masked && !x.active

namespace State

def source (s : State) (n : Nat) : Src := AMap.getD s.ec.src n {}

/-- The best source of target `t`: its lowest-numbered claimable source (R476). -/
def best (s : State) (t : Nat) : Option Nat :=
  (s.ec.src.find? fun p => p.2.claimable && p.2.target == t).map (·.1)

/-- The source that a claim of target `t` would return: the lowest-numbered claimable one that asserted at least 40
cycles earlier (R484). -/
def bestSettled (s : State) (t : Nat) : Option Nat :=
  (s.ec.src.find? fun p => p.2.claimable && p.2.target == t && decide (p.2.since + 40 ≤ s.time.cycle)).map (·.1)

/-- The active source of target `t`, if it holds an active claim. -/
def activeAt (s : State) (t : Nat) : Option Nat :=
  (s.ec.src.find? fun p => p.2.active && p.2.target == t).map (·.1)

/-- Target `t` is presenting (R476). -/
def presenting (s : State) (t : Nat) : Bool := (s.activeAt t).isNone && (s.best t).isSome

/-- The line of target `t`, 18 cycles behind whether it is presenting (R477). -/
def line (s : State) (t : Nat) : Bool :=
  ((s.ec.lines.filter fun x => x.2.1 == t && decide (x.1 ≤ s.time.cycle)).getLast?.map fun x => x.2.2).getD false

/-- mip.MEIP and mip.SEIP of hart `h` (R477). -/
def meip (s : State) (h : Nat) : Bool := s.line (2 * h)
def seip (s : State) (h : Nat) : Bool := s.line (2 * h + 1)

/-- Whether target `t` is presenting has become `v`: its line follows 18 cycles later, an assertion counting from the cycle in which it
enters the target's candidates, 6 after it (R477, Table 16.2). A change that has not reached the line gives way to it. -/
def lineChanges (s : State) (t : Nat) (v : Bool) : State :=
  let now := s.time.cycle
  let from_ := if v then max now (((s.best t).map fun n => (s.source n).since + 6).getD now) else now
  let others := s.ec.lines.filter fun x => x.2.1 != t
  let mine := (s.ec.lines.filter fun x => x.2.1 == t && decide (x.1 ≤ now)).getLast?
  { s with ec := { s.ec with lines := others ++ mine.toList ++ [(from_ + 18, t, v)] } }

/-- Doubleword `i` of the MSI-X table; the vector control word of a vector resets to 1, masked (PCIe standard; Log 20). -/
def msixWord (s : State) (i : Nat) : Nat := AMap.getD s.ec.msix i (if i % 4 = 3 then 1 else 0)

/-- Vector `v` can send: the function enabled and not masked, the vector unmasked, the host attached (R478, Table 18.3). -/
def msixReady (s : State) (v : Nat) : Bool :=
  s.ec.msixOn && decide (v < s.ec.vectors) && s.msixWord (4 * v + 3) % 2 == 0 && s.flag Reg.HP_STAT.LINKUP && !s.flag Reg.HP_STAT.DETACHED

/-- Sends the MSI-X message of vector `v`. -/
def msixSend (s : State) (v : Nat) : State :=
  { s with ec := { s.ec with
      sent := (v, s.msixWord (4 * v) + 2 ^ 32 * s.msixWord (4 * v + 1), s.msixWord (4 * v + 2)) :: s.ec.sent
      pba := s.ec.pba.erase v } }

/-- What follows when whether target `t` is presenting changes from `b` (R478). -/
def presentEdge (s : State) (t : Nat) (b : Bool) : State :=
  if t < 65 then (if b = s.presenting t then s else s.lineChanges t (s.presenting t))
  else if s.ec.msixOn && decide (s.ec.vectors ≤ t - 65) then s
  else
    let v := t - 65
    match b, s.presenting t with
    | false, true =>
      if s.msixReady v then s.msixSend v
      else { s with ec := { s.ec with pba := if v ∈ s.ec.pba then s.ec.pba else v :: s.ec.pba } }
    | true, false => { s with ec := { s.ec with pba := s.ec.pba.erase v } }
    | _, _ => s

/-- Source `n` changed by `f`, with the messages that the change in presentation makes. -/
def onSource (s : State) (n : Nat) (f : Src → Src) : State :=
  let x := s.source n
  let y := f x
  let s' := { s with ec := { s.ec with src := AMap.put s.ec.src n y } }
  let s' := s'.presentEdge x.target (s.presenting x.target)
  if y.target = x.target then s' else s'.presentEdge y.target (s.presenting y.target)

/-- Sets the pending bit of `n` at the controller's input; an assertion while the bit is set merges into it (R471). -/
def setPend (s : State) (n : Nat) : State :=
  s.onSource n fun x => if x.pend then x else { x with pend := true, since := s.time.cycle }

/-- An enabled entry of the watch list names source `n` (R488). -/
def watched (s : State) (n : Nat) : Bool :=
  (List.range 64).any fun i => s.flag (Reg.EC_NMUW.EN i) && s.get (Reg.EC_NMUW.SRC i) == n

/-- Source `n` wakes the device: named in the watch list, or privileged (R488, R489). -/
def wakes (s : State) (n : Nat) : Bool := (1 ≤ n && n ≤ 8) || s.watched n

def addWake (s : State) (n : Nat) : State :=
  if s.wakes n && !s.ec.wake.contains n then { s with ec := { s.ec with wake := n :: s.ec.wake } } else s

/-- Source `n` asserts (R471, R473). In Nap and Night a privileged source is latched (R489), and a watched or latched source
starts a wake (R488); in Night only sources 1–8 and 32–63 assert, and the night mail unit records the latter (R490,
R491). During an entry, a watched source's assertion is remembered for the wake (R492). -/
def assertSource (s : State) (n : Nat) : State :=
  if reservedSource n then s
  else
    match s.power.sleep with
    | .run => s.setPend n
    | .entering _ _ _ => (s.setPend n).addWake n
    | .nap =>
      if n ≤ 8 then ({ s with ec := { s.ec with latches := if s.ec.latches.contains n then s.ec.latches else n :: s.ec.latches } }).addWake n
      else (s.setPend n).addWake n
    | .night =>
      if n ≤ 8 then ({ s with ec := { s.ec with latches := if s.ec.latches.contains n then s.ec.latches else n :: s.ec.latches } }).addWake n
      else if 32 ≤ n && n ≤ 63 then
        ({ s with ec := { s.ec with recorded := if s.ec.recorded.contains n then s.ec.recorded else n :: s.ec.recorded } }).addWake n
      else s

/-- A base or compute die sends an event-signal message (R472). -/
def signal (s : State) (n : Nat) : State := { s with ec := { s.ec with signals := s.ec.signals ++ [n] } }

/-- A claim read of target `t` (R479, R484): the source returned, 0 for none. -/
def claim (s : State) (t : Nat) : Nat × State :=
  match s.activeAt t, s.bestSettled t with
  | none, some n => (n, s.onSource n fun x => { x with pend := false, active := true })
  | _, _ => (0, s)

/-- A completion write of source `n` to target `t` (R480). -/
def complete (s : State) (t n : Nat) : State :=
  if (s.source n).active && (s.source n).target == t && n != 0 then s.onSource n fun x => { x with active := false }
  else (s.raise Reg.EC_STAT.BADCMPL).bump Reg.EC_BADCMPL_CNT.COUNT

/-- A pend write of source `n` (R485). -/
def pendWrite (s : State) (n : Nat) : State :=
  if n = 0 then s
  else if reservedSource n || (n ≤ 8 && !s.flag Reg.EC_CTL.MAINT) then s.raise Reg.EC_STAT.CFGERR
  else s.assertSource n

/-- The mask bit of source `n` set or cleared (R485); a write of 0 is ignored. -/
def maskWrite (s : State) (n : Nat) (m : Bool) : State :=
  if n = 0 then s else s.onSource n fun x => { x with masked := m }

/-- The sources of word `w` whose bits are set in `v`, ascending; source 0 is none. -/
def wordSources (w v : Nat) : List Nat :=
  ((List.range 32).filter fun i => v.testBit i && 32 * w + i != 0).map fun i => 32 * w + i

/-- The four bit-array windows (R486). -/
inductive Window where
  | pendSet | pendClr | maskSet | maskClr
  deriving DecidableEq, Repr

/-- Current array word `w` of a window; bit 0 of word 0 always reads 0, and all read 0 while MAINT is 0 (R486). -/
def windowRead (s : State) (k : Window) (w : Nat) : Nat :=
  if !s.flag Reg.EC_CTL.MAINT then 0
  else
    (List.range 32).foldl (fun acc i =>
      let x := s.source (32 * w + i)
      let b := match k with
        | .pendSet | .pendClr => x.pend
        | .maskSet | .maskClr => x.masked
      if b && 32 * w + i != 0 then acc + 2 ^ i else acc) 0

/-- A write to word `w` of a window (R486). -/
def windowWrite (s : State) (k : Window) (w v : Nat) : State :=
  if !s.flag Reg.EC_CTL.MAINT then s.raise Reg.EC_STAT.CFGERR
  else
    (wordSources w v).foldl (fun s n =>
      match k with
      | .pendSet => if reservedSource n then s.raise Reg.EC_STAT.CFGERR else s.assertSource n
      | .pendClr => s.onSource n fun x => { x with pend := false }
      | .maskSet => s.onSource n fun x => { x with masked := true }
      | .maskClr => s.onSource n fun x => { x with masked := false }) s

/-- A write of EC_SRC.TARGET (R487). -/
def routeWrite (s : State) (n t : Nat) : State :=
  if !s.flag Reg.EC_CTL.MAINT || 321 ≤ t || (s.source n).active then s.raise Reg.EC_STAT.CFGERR
  else s.onSource n fun x => { x with target := t }

/-- Loss of the host link or PERST: every MSI-X target releases its active claim (R483). -/
def releaseMsixClaims (s : State) : State :=
  (s.ec.src.filter fun p => p.2.active && decide (65 ≤ p.2.target)).foldl
    (fun s p => s.onSource p.1 fun x => { x with active := false, pend := true }) s

/-! ## Dead letters -/

/-- Entry `p` stands after entry `e` of the same microsecond: by CAUSE, then by UNIT (R594). -/
def letterAfter (e p : DeadLetter) : Bool :=
  decide (e.cause < p.cause) || (e.cause == p.cause && decide (e.unit < p.unit))

/-- Puts entry `e` at DL_TAIL `tail`, before those entries of its microsecond `us` that R594 orders after it; each of these moves up
by one. -/
def placeLetter (us : Nat) (e : DeadLetter) : Nat → Nat → AMap DeadLetter → AMap DeadLetter
  | 0, tail, m => AMap.put m (tail % 4096) { e with num := tail }
  | fuel + 1, tail, m =>
    let below := (tail + 2 ^ 32 - 1) % 2 ^ 32
    match AMap.get? m (below % 4096) with
    | some p =>
      if p.num = below ∧ p.postmark / 1000 = us ∧ letterAfter e p then
        placeLetter us e fuel below (AMap.put m (tail % 4096) { p with num := tail })
      else AMap.put m (tail % 4096) { e with num := tail }
    | none => AMap.put m (tail % 4096) { e with num := tail }

/-- Writes or merges a dead-letter entry (R594, R595): an event with the cause, unit and context of an entry of the same
microsecond raises that entry's MERGED. Every entry written raises source 64. -/
def deadLetter (s : State) (e : DeadLetter) : State :=
  let us := s.now / 1000
  match s.letters.find? fun p =>
      p.2.cause == e.cause && p.2.unit == e.unit && p.2.ctx == e.ctx && p.2.postmark / 1000 == us with
  | some (i, p) => { s with letters := AMap.put s.letters i { p with merged := min 0xFFFF (p.merged + 1) } }
  | none =>
    let tail := s.get Reg.DL_TAIL.TAIL
    let e := { e with postmark := s.now, node := s.get Reg.DL_NODE.NODE, merged := 0 }
    (({ s with letters := placeLetter us e 4095 tail s.letters }).set Reg.DL_TAIL.TAIL (tail + 1)).assertSource 64

end State

/-- The 64 bytes of a dead-letter entry (Table 21.2). -/
def DeadLetter.toBytes (e : DeadLetter) : List Byte :=
  leBytes 8 e.postmark ++ leBytes 4 e.num ++ leBytes 1 e.cause ++ leBytes 1 e.kind ++ leBytes 1 e.unit ++ leBytes 1 0
    ++ leBytes 4 e.phys ++ leBytes 2 e.ctx ++ leBytes 2 e.queue ++ leBytes 4 e.seq ++ leBytes 4 e.bytes
    ++ leBytes 8 e.addr ++ leBytes 8 e.age ++ leBytes 4 e.node ++ leBytes 4 e.tout ++ leBytes 2 e.merged ++ leBytes 6 0

end Sys2Proof.Machine
end

