-- ==== Sys2Proof/Machine/Memory.lean ====
section
/-! DEFINITION. Memory: the physical address map, the placement of lines, bytes and lines of the memories, channel requests,
correction and the retirement of granules (chapter 10), and region types (chapter 13). -/

namespace Sys2Proof.Machine

/-- Ranges of Table 10.1. -/
inductive Space where
  | tier0 | tier1 | device | flash | outbound
  deriving DecidableEq, Repr

/-- End of the memory's own Tier 0 (Table 10.1). -/
def tier0End : Nat := 0x0080_0000_0000
/-- The device-reserved region (R318). -/
def reservedBase : Nat := 0x007F_0000_0000
def tier1Base : Nat := 0x0100_0000_0000
def deviceBase : Nat := 0x0F00_0000_0000
def flashBase : Nat := 0x4000_0000_0000
def outboundBase : Nat := 0x8000_0000_0000

namespace State

/-- Enabled GDDR-7 channels in ascending order (R321); none in the FLS-7200H. -/
def t1Channels (s : State) : List Nat :=
  if s.ident.g then (List.range 16).filter fun j => (s.get Reg.MEM_CTL.T1EN).testBit j else []

/-- NCH (R321). -/
def nch (s : State) : Nat := s.t1Channels.length

/-- The range of Table 10.1 that holds `a`, where it is mapped. -/
def space (s : State) (a : Nat) : Option Space :=
  if a < tier0End then some .tier0
  else if tier1Base ≤ a && a < tier1Base + 0x1_0000_0000 * s.nch then some .tier1
  else if deviceBase ≤ a && a < deviceBase + 0x1_0000_0000 then some .device
  else if flashBase ≤ a && a < outboundBase then some .flash
  else if outboundBase ≤ a && a < 2 ^ 52 then some .outbound
  else none

/-- Coherent memory: Tier 0 and Tier 1 (R341). -/
def coherent (s : State) (a : Nat) : Bool :=
  match s.space a with
  | some .tier0 | some .tier1 => true
  | _ => false

/-- The enabled stack-local window that holds Tier 0 address `a`: its base and size (R324). -/
def localWindow (s : State) (a : Nat) : Option (Nat × Nat) :=
  (List.range 8).findSome? fun w =>
    let b := s.get (Reg.MEM_LOCWIN.BASE w) * 2 ^ 33
    let n := (s.get (Reg.MEM_LOCWIN.SIZEM1 w) + 1) * 2 ^ 33
    if s.flag (Reg.MEM_LOCWIN.EN w) && b ≤ a && a < b + n then some (b, n) else none

/-- Device and device offset of a Tier 0 or Tier 1 address: HBM stack 0–7, or 8 + GDDR-7 channel (R322, R323, R324). -/
def place (s : State) (a : Nat) : Nat × Nat :=
  if a < tier0End then
    match s.localWindow a with
    | some (b, n) => ((a - b) / (n / 8), b / 8 + (a - b) % (n / 8))
    | none => ((a / 2 ^ 12 % 8).xor (a / 2 ^ 20 % 8), (a / 2 ^ 15) * 2 ^ 12 + a % 2 ^ 12)
  else
    let o := a - tier1Base
    let c := o / 4096
    let e := s.t1Channels
    (8 + e.getD (c % e.length) 0, c / e.length * 4096 + o % 4096)

/-- Home of a line of coherent memory: base die 0–3, or 4 for the hub (R343). -/
def homeOf (s : State) (line : Nat) : Nat :=
  if line * 128 < tier0End then (s.place (line * 128)).1 / 2 else 4

/-- Home of base die: the base die of a logical tile (R22, R24). -/
def dieOf (_ : State) (t : Nat) : Nat := t / 64

/-- Granule number of an address (R373). -/
def granule (_ : State) (a : Nat) : Nat := a / 2 ^ 21

/-- The granule is in a MEM_RETIRE entry of the given state (R335 to R337). -/
def retireState (s : State) (g st : Nat) : Bool :=
  (List.range 256).any fun e => s.get (Reg.MEM_RETIRE.STATE e) == st && s.get (Reg.MEM_RETIRE.GRANULE e) == g

/-- A RETIRED granule (R337). -/
def retired (s : State) (g : Nat) : Bool := s.retireState g 2

/-! ## Bytes and lines as the memory devices hold them -/

/-- The byte that an unlisted address reads as: zero in Tier 0, which a start zeroes, and in an unmapped flash granule (R577,
R427); in Tier 1 the undefined contents of the epoch (R585; Log 4). -/
def dflt (s : State) (a : Nat) : Byte :=
  match AMap.get? s.ident.fill (a / 65536) with
  | some (some e) => Config.lostByte e a
  | some none => 0
  | none => if tier1Base ≤ a && a < deviceBase then Config.lostByte s.ident.epoch a else 0

/-- The 64 KiB ranges `gs` read as zero throughout. -/
def zeroRanges (s : State) (gs : List Nat) : State :=
  { s with
    mem := s.mem.filter fun c => !gs.contains (c.1 / 65536)
    ident := { s.ident with fill := gs.foldl (fun m g =>
      if tier1Base ≤ g * 65536 && g * 65536 < deviceBase then AMap.put m g none else AMap.erase m g) s.ident.fill } }

/-- The contents of the 64 KiB ranges `gs` above Tier 0 are lost: under a new key, or with their memory (R558, R585; Log 4). -/
def loseRanges (s : State) (gs : List Nat) : State :=
  let gs := gs.filter fun g => decide (tier1Base ≤ g * 65536)
  { s with
    mem := s.mem.filter fun c => !gs.contains (c.1 / 65536)
    ident := { s.ident with
      losses := s.ident.losses + 1
      fill := gs.foldl (fun m g => AMap.put m g (some (s.ident.losses + 1))) s.ident.fill } }

/-- The contents of Tier 1 are lost. -/
def loseTier1 (s : State) : State :=
  let t1 (a : Nat) : Bool := decide (tier1Base ≤ a) && decide (a < deviceBase)
  { s with
    mem := s.mem.filter fun c => !t1 c.1
    ident := { s.ident with
      losses := s.ident.losses + 1
      epoch := s.ident.losses + 1
      fill := s.ident.fill.filter fun p => !t1 (p.1 * 65536) } }

def memGet (s : State) (a : Nat) : Byte := cellGet s.dflt s.mem a

def memPut (s : State) (a : Nat) (b : Byte) : State := { s with mem := cellPut s.dflt s.mem a b }

/-- The `n` bytes from `a`. -/
def memBytes (s : State) (a n : Nat) : List Byte := (List.range n).map fun i => s.memGet (a + i)

def memWrite (s : State) (a : Nat) (bs : List Byte) : State :=
  match bs with
  | [] => s
  | b :: rest => (s.memPut a b).memWrite (a + 1) rest

/-- Bytes of the service host's memory, which read as zero where nothing was written (Log 12). -/
def hostGet (s : State) (a : Nat) : Byte := cellGet (fun _ => 0) s.hostMem a

def hostWrite (s : State) (a : Nat) (bs : List Byte) : State :=
  match bs with
  | [] => s
  | b :: rest => ({ s with hostMem := cellPut (fun _ => 0) s.hostMem a b }).hostWrite (a + 1) rest

def hostBytes (s : State) (a n : Nat) : List Byte := (List.range n).map fun i => s.hostGet (a + i)

/-- Memory device `d` of Table 10.6. -/
def dev (s : State) (d : Nat) : MemDev := AMap.getD s.devs d {}

def onDev (s : State) (d : Nat) (f : MemDev → MemDev) : State := { s with devs := AMap.put s.devs d (f (s.dev d)) }

/-- Pseudo-channel of an offset of device `d` (R327; Log 120). -/
def pchOf (d off : Nat) : Nat := if d < 8 then (Config.pseudoChannel off).val else 0

/-- What the decoding of a line of device `d` gives: corrections made, and whether it is uncorrectable (R330 to R332; Log 121). -/
def decodeErrors (d : Nat) (e : LineErrors) : Nat × Bool :=
  let fixed := if e.fixed then 1 else 0
  if d < 8 then ((if e.half0 = 1 then 1 else 0) + (if e.half1 = 1 then 1 else 0) + fixed, 2 ≤ e.half0.val || 2 ≤ e.half1.val)
  else (fixed, e.edc == 5 || e.lost)

/-- Errors of a stored line. -/
def lineErrors (s : State) (line : Nat) : LineErrors := AMap.getD (s.dev (s.place (line * 128)).1).errors line {}

/-- A stored line cannot be corrected. -/
def lineBad (s : State) (line : Nat) : Bool := (decodeErrors (s.place (line * 128)).1 (s.lineErrors line)).2

/-- A request of class `cls` reaches the channel of its line (R326). -/
def request (s : State) (cls line : Nat) (write : Bool) : State :=
  let p := s.place (line * 128)
  s.onDev p.1 fun m => { m with
    queue := m.queue ++ [{ cls := cls, line := line, at_ := s.time.cycle, write := write, pch := pchOf p.1 p.2,
                           errs := if write then {} else AMap.getD m.errors line {} }]
    scrub := if write then m.scrub.filter (· != line) else m.scrub }

end State

/-- The 128 bytes of a line. -/
def lineToBytes (l : Line) : List Byte := (List.range 128).map fun i => l.extractLsb' (8 * i) 8

def lineOfBytes (bs : List Byte) : Line := BitVec.ofNat 1024 (leNat (bs.take 128))

/-- Byte `i` of the line replaced. -/
def lineSetByte (l : Line) (i : Nat) (b : Byte) : Line :=
  (l &&& ~~~(BitVec.ofNat 1024 (255 <<< (8 * i)))) ||| (BitVec.ofNat 1024 (b.toNat <<< (8 * i)))

/-- The bytes of `d` under mask `m` over those of `l`. -/
def lineMerge (l d : Line) (m : BitVec 128) : Line :=
  (List.range 128).foldl (fun acc i => if m.getLsbD i then lineSetByte acc i (d.extractLsb' (8 * i) 8) else acc) l

/-- The mask of `n` bytes from byte `i`. -/
def byteMask (i n : Nat) : BitVec 128 := BitVec.ofNat 128 ((2 ^ n - 1) <<< i)

namespace State

/-- The line as DRAM holds it. -/
def dramLine (s : State) (line : Nat) : Line := lineOfBytes (s.memBytes (line * 128) 128)

/-- A line read of DRAM in class `cls`: none where it cannot be corrected, which counts in MEM_UNC_CNT and makes the granule
PENDING when the request is served (R332, R335). -/
def dramRead (s : State) (cls line : Nat) : Option Line × State :=
  let s' := s.request cls line false
  if s.lineBad line then (none, s') else (some (s.dramLine line), s')

/-- A line written to DRAM; new contents are correctable again. -/
def dramWrite (s : State) (cls line : Nat) (l : Line) : State :=
  let d := (s.place (line * 128)).1
  let s := s.request cls line true
  let s := s.onDev d fun m => { m with errors := AMap.erase m.errors line }
  s.memWrite (line * 128) (lineToBytes l)

/-- A granule becomes PENDING for `cause` 1 or 2 (R335, R338): entered in the lowest FREE entry unless it is in one. -/
def granulePending (s : State) (g cause : Nat) : State :=
  if s.retireState g 1 || s.retireState g 2 then s
  else
    match (List.range 256).find? fun e => s.get (Reg.MEM_RETIRE.STATE e) == 0 with
    | some e =>
      ((((s.set (Reg.MEM_RETIRE.GRANULE e) g).set (Reg.MEM_RETIRE.CAUSE e) cause).set (Reg.MEM_RETIRE.STATE e) 1).raise
        Reg.MEM_STAT.RETPEND).signal 65
    | none => (s.raise Reg.MEM_STAT.RETFULL).signal 65

/-- Corrections made in one read of a line of device `d` counted (R332), and the granule PENDING when CETHR distinct lines of it, on
whatever devices they lie, have been corrected in the devices' present scrub passes (R335). -/
def correction (s : State) (d line n : Nat) : State :=
  let s := (List.range n).foldl (fun (s : State) _ => s.bump (Reg.MEM_CORR_CNT.COUNT d)) s
  let s := s.onDev d fun m => { m with corrected := if m.corrected.contains line then m.corrected else line :: m.corrected }
  let g := line * 128 / 2 ^ 21
  let thr := s.get Reg.MEM_RAS.CETHR
  let lines := s.devs.foldl (fun n p => n + (p.2.corrected.filter fun l => l * 128 / 2 ^ 21 == g).length) 0
  if thr != 0 && thr ≤ lines then s.granulePending g 2 else s

/-! ## Region types (chapter 13) -/

/-- The lowest-numbered enabled region entry that holds `a` (R400). -/
def regionOf (s : State) (a : Nat) : Option Nat :=
  (List.range 64).find? fun i =>
    s.flag (Reg.MO_RGN_CTL.EN i) && s.get (Reg.MO_RGN_BASE.BASE i) ≤ a / 4096 && a / 4096 ≤ s.get (Reg.MO_RGN_LAST.LAST i)

/-- Effective type of an access to physical address `a` with page-attribute type `pa`: 0 WB, 1 UCM, 2 DEV (R400). -/
def effType (s : State) (a : Nat) (host : Bool) (pa : Nat) : Nat :=
  let c := s.coherent a
  let rt :=
    if host then 1
    else
      match s.regionOf a with
      | some i => s.get (Reg.MO_RGN_CTL.TYPE i)
      | none => if c then 0 else 2
  let t := max rt pa
  if t = 0 && (host || !c) then 1 else t

/-- Access timeout in µs of an access to `a` (R402). -/
def timeoutOf (s : State) (a : Nat) (host : Bool) : Nat :=
  if host then s.get Reg.MO_CTL.DEFTO
  else
    match s.regionOf a with
    | some i => if s.get (Reg.MO_RGN_CTL.TOUT i) = 0 then s.get Reg.MO_CTL.DEFTO else s.get (Reg.MO_RGN_CTL.TOUT i)
    | none => s.get Reg.MO_CTL.DEFTO

end State

end Sys2Proof.Machine
end

