-- ==== Sys2Proof/Machine/Routes.lean ====
section
/-! DEFINITION. The die links as the coherence messages see them (R449 to R451), the dies of the agents (Table 11.1), and the clusters of
the tiles (R347). -/

namespace Sys2Proof.Machine

/-- Wires of a bundle that have failed, its forwarded clock, 35, apart. -/
def badWires (x : LinkDir) (b : Nat) : Nat := (x.wires.filter fun w => w / 36 == b && w % 36 != 35).length

/-- A bundle that works: not retired, its clock and all but two of its wires good (R449). -/
def bundleWorks (x : LinkDir) (b : Nat) : Bool :=
  !x.bundles.contains b && !x.wires.contains (b * 36 + 35) && badWires x b ≤ 2

def workingBundles (x : LinkDir) : Nat := ((List.range 32).filter (bundleWorks x)).length

/-- WIDTH of LR_LSTAT: 0 full, 1 half, 2 failed, 3 not trained (R450). -/
def linkWidth (x : LinkDir) : Nat :=
  if !x.trained then 3 else if workingBundles x = 32 then 0 else if 16 ≤ workingBundles x then 1 else 2

/-- A message that carries a line's bytes (R350). -/
def carriesLine (m : Msg) : Bool := m.kind == MsgKind.data || m.kind == MsgKind.wbData

namespace State

def link (s : State) (dir : Nat) : LinkDir := AMap.getD s.repair.links dir {}

/-- Direction `dir` changed by `f`, with what LR_LSTAT shows of it. -/
def onLink (s : State) (dir : Nat) (f : LinkDir → LinkDir) : State :=
  let x := f (s.link dir)
  let s := { s with repair := { s.repair with links := AMap.put s.repair.links dir x } }
  (s.set (Reg.LR_LSTAT.BUNDLES dir) (workingBundles x)).set (Reg.LR_LSTAT.WIDTH dir) (linkWidth x)

/-- Link `l` has failed: one of its directions has (R450). -/
def linkFailed (s : State) (l : Nat) : Bool :=
  linkWidth (s.link (2 * l)) == 2 || linkWidth (s.link (2 * l + 1)) == 2

/-- A link runs below full width (Table 20.5). -/
def linkBelow (s : State) (l : Nat) : Bool :=
  linkWidth (s.link (2 * l)) != 0 || linkWidth (s.link (2 * l + 1)) != 0

/-- `n` ring links from BDi upward, or downward, all work. -/
def ringUp (s : State) (i n : Nat) : Bool := (List.range n).all fun k => !s.linkFailed (4 + (i + k) % 4)

/-- Base dies `i` and `j` reach each other round the ring; never through the hub (R451). -/
def ringJoined (s : State) (i j : Nat) : Bool :=
  s.ringUp i ((j + 4 - i) % 4) || s.ringUp j ((i + 4 - j) % 4)

/-- A hub link and the ring lead to BDn. -/
def hubJoined (s : State) (n : Nat) : Bool := (List.range 4).any fun m => !s.linkFailed m && s.ringJoined m n

/-- Two dies are without a route (R451). Die 4 is the hub. -/
def noRoute (s : State) : Bool :=
  (List.range 4).any fun i => !s.hubJoined i || (List.range 4).any fun j => !s.ringJoined i j

/-- A reserved agent number (Table 11.1). -/
def reservedAgent (n : Nat) : Bool := (0x25 ≤ n && n ≤ 0x27) || 0x2D ≤ n

/-- Die of an agent: base die 0–3, or 4 for the hub (Table 11.1). -/
def agentDie (n : Nat) : Nat := if 0x20 ≤ n && n < 0x24 then n - 0x20 else if 0x28 ≤ n && n < 0x2C then n - 0x28 else 4

/-- A route leads from one die to another (R451). -/
def routed (s : State) (a b : Nat) : Bool :=
  if a = b then true else if a = 4 then s.hubJoined b else if b = 4 then s.hubJoined a else s.ringJoined a b

/-- Physical tile of a logical tile, compute die × 36 + number in the die (R23, R459). -/
def physTile (s : State) (t : Nat) : Nat := AMap.getD s.repair.phys t (t / 32 * 36 + t % 32)

/-- Cluster of a logical tile among the 18 of its base die (R22, R347). -/
def clusterOf (s : State) (t : Nat) : Nat := t / 32 % 2 * 9 + s.physTile t % 36 / 4

end State

end Sys2Proof.Machine
end

