-- ==== Sys2Proof/Machine/Coherence.lean ====
section
/-! DEFINITION. The coherence protocol (chapter 11): agents, homes, the ownership check, the requests that an agent sends, what a
home does with a request and with the answers it awaits, and what an agent does with a snoop and with an answer. -/

namespace Sys2Proof.Machine

/-- Key of a line at a caching agent. -/
def clineKey (a line : Nat) : Nat := a * 2 ^ 45 + line

/-- Opcode of a message within its channel (Table 11.4). -/
def opcOf : MsgKind → Nat
  | .rdS => 1 | .rdM => 2 | .upg => 3 | .rdCur => 4 | .wrFull => 5 | .wrPart => 6 | .wbM => 7 | .wbO => 8 | .evE => 9
  | .chk => 10 | .snpS => 1 | .snpM => 2 | .snpI => 3 | .snpC => 4 | .snpRsp => 1 | .compAck => 2 | .gntM => 3 | .cmp => 4
  | .relAck => 5 | .deny => 6 | .pErr => 7 | .crdRet => 8 | .data => 1 | .wbData => 2 | .reserved _ c => c.val

/-- Virtual channel of a message: 0 REQ, 1 SNP, 2 RSP, 3 DAT (R348, Table 11.4). -/
def vcOf : MsgKind → Nat
  | .rdS | .rdM | .upg | .rdCur | .wrFull | .wrPart | .wbM | .wbO | .evE | .chk => 0
  | .snpS | .snpM | .snpI | .snpC => 1
  | .snpRsp | .compAck | .gntM | .cmp | .relAck | .deny | .pErr | .crdRet => 2
  | .data | .wbData => 3
  | .reserved v _ => v.val

/-- A message whose opcode is reserved (R351). -/
def reservedKind : MsgKind → Bool
  | .reserved _ _ => true
  | _ => false

/-- Field ST of Table 11.3. -/
def stCode : LineSt → Nat
  | .i => 0 | .s => 1 | .e => 2 | .o => 3 | .m => 4 | .reserved n => 5 + n.val

def stOf (n : Nat) : LineSt :=
  match n % 8 with
  | 0 => .i | 1 => .s | 2 => .e | 3 => .o | 4 => .m | k => .reserved (Fin.ofNat 3 (k - 5))

/-- The 128-bit header of a message, reserved bits zero (Table 11.3). -/
def headerOf (m : Msg) : BitVec 128 :=
  BitVec.ofNat 128 (opcOf m.kind % 16 + 2 ^ 6 * vcOf m.kind + 2 ^ 8 * m.src.toNat + 2 ^ 14 * m.dst.toNat + 2 ^ 20 * m.txn.toNat
    + 2 ^ 32 * m.fwd.toNat + 2 ^ 38 * stCode m.st + 2 ^ 41 * m.wb.toNat + 2 ^ 42 * m.xb.toNat + 2 ^ 43 * m.unc.toNat
    + 2 ^ 44 * m.line.toNat + 2 ^ 89 * m.ctx.toNat + 2 ^ 105 * m.ftxn.toNat)

/-- Stable and readable states (Table 11.6, column Load). -/
def CState.readable : CState → Bool
  | .m | .o | .e | .s | .smA | .omA => true
  | _ => false

/-- States in which the agent answers snoops with the line's bytes. -/
def CState.owns : CState → Bool
  | .m | .o | .e | .omA | .miA | .oiA | .eiA => true
  | _ => false

def CState.stable : CState → Bool
  | .m | .o | .e | .s => true
  | _ => false

namespace State

def hart (s : State) (h : Nat) : Hart := AMap.getD s.harts h {}
def onHart (s : State) (h : Nat) (f : Hart → Hart) : State := { s with harts := AMap.put s.harts h (f (s.hart h)) }

def cline (s : State) (a line : Nat) : Option CLine := (s.coh.lines.find? fun p => p.1 == clineKey a line).map (·.2)

def setCline (s : State) (a line : Nat) (c : CLine) : State :=
  let k := clineKey a line
  { s with coh := { s.coh with lines := AMap.put s.coh.lines k c, lru := s.coh.lru.erase k ++ [k] } }

def dropCline (s : State) (a line : Nat) : State :=
  let k := clineKey a line
  { s with coh := { s.coh with lines := AMap.erase s.coh.lines k, lru := s.coh.lru.erase k } }

def dirOf (s : State) (line : Nat) : Dir := AMap.getD s.coh.dir line {}

/-- The directory entry set; a line that no agent holds needs no entry (R355). -/
def setDir (s : State) (line : Nat) (d : Dir) : State :=
  if d.owner.isNone && d.sharers.isEmpty then
    { s with coh := { s.coh with dir := AMap.erase s.coh.dir line, dirLru := s.coh.dirLru.erase line } }
  else
    { s with coh := { s.coh with dir := AMap.put s.coh.dir line d, dirLru := s.coh.dirLru.erase line ++ [line] } }

/-- Every agent that the directory shows as a holder. -/
def holders (s : State) (line : Nat) : List Nat :=
  let d := s.dirOf line
  match d.owner with
  | some x => x :: d.sharers.filter (· != x)
  | none => d.sharers

/-- Lines whose directory entry is in use: a line that an agent holds, and one whose entry is being freed, until all responses and data
have arrived (R355, R356). -/
def dirLines (s : State) : List Nat :=
  s.coh.dir.map (·.1) ++ (s.coh.serving.filter fun p => p.2.req.kind == .snpI && !(s.coh.dir.any fun d => d.1 == p.1)).map (·.1)

/-- COH_DIR_OCC of home `h`: directory entries in use (Table 11.12). -/
def dirOcc (s : State) (h : Nat) : Nat := (s.dirLines.filter fun l => s.homeOf l == h).length

def serve? (s : State) (line : Nat) : Option Serve := (s.coh.serving.find? fun p => p.1 == line).map (·.2)
def setServe (s : State) (line : Nat) (v : Serve) : State :=
  { s with coh := { s.coh with serving := AMap.put s.coh.serving line v } }
def endServe (s : State) (line : Nat) : State := { s with coh := { s.coh with serving := AMap.erase s.coh.serving line } }

def send (s : State) (m : Msg) : State := { s with coh := { s.coh with net := s.coh.net ++ [m] } }
def unsend (s : State) (m : Msg) : State := { s with coh := { s.coh with net := s.coh.net.erase m } }

/-- The request that the unit at work sent or makes locally. -/
def unitReq? (s : State) (m : Msg) : Option UnitReq :=
  s.coh.unit.bind fun u => if u.agent = m.src.toNat ∧ u.txn = m.txn.toNat ∧ u.line = m.line.toNat ∧ u.kind = m.kind then some u else none

/-- The unit at work has its answer. -/
def unitGets (s : State) (g : Got) : State :=
  { s with coh := { s.coh with unit := s.coh.unit.map fun u => { u with got := some (u.got.getD g) } } }

/-! ## Ownership (chapter 12) -/

/-- The default entry of a granule (R377): the device-reserved region is Tarle's; once LOCK is set, a mapped granule of Tier 0
or Tier 1 that had no owner is INITOWN's. -/
def ownDefault (s : State) (g : Nat) : Own :=
  let a := g * 2 ^ 21
  if reservedBase ≤ a && a < tier0End then { mode := 1 }
  else
    match s.xlat.initOwn with
    | some o => if s.coherent a then { mode := 1, owner := o } else {}
    | none => {}

/-- The ownership entry of granule `g`; a RETIRED granule reads MODE 3 (R377). -/
def ownOf (s : State) (g : Nat) : Own :=
  let o := match s.xlat.own.find? fun p => p.1 == g with
    | some p => p.2
    | none => s.ownDefault g
  if s.retired g then { o with mode := 3 } else o

def members (s : State) (n : Nat) : List Nat := AMap.getD s.xlat.shares n []

/-- The ownership check (R374). -/
def ownCheck (s : State) (ctx g : Nat) (write : Bool) : Bool :=
  let o := s.ownOf g
  ctx == 0 || !s.locked || ((o.mode == 1 || o.mode == 2) && o.owner == ctx)
    || (o.mode == 2 && (s.members o.sset).contains ctx && (!o.sro || !write))

/-! ## Reservations and pocket caches -/

/-- Breaks the reservations on a granule of every holder but those excepted: a tile's core, a tile's lane, a hart (R404). -/
def breakReservations (s : State) (line : Nat) (exceptTile : Option Nat := none) (exceptHart : Option Nat := none) : State :=
  { s with
    tiles := s.tiles.map fun p =>
      let keepCore := exceptTile == some p.1
      let t := p.2
      let core := if t.core.resv == some line && !keepCore then { t.core with resv := none } else t.core
      let kernel := t.kernel.map fun k => { k with
        groups := k.groups.map fun g => { g with
          lanes := g.lanes.map fun l => if l.resv == some line then { l with resv := none } else l } }
      (p.1, { t with core := core, kernel := kernel })
    harts := s.harts.map fun p =>
      (p.1, if p.2.resv == some line && !(exceptHart == some p.1) then { p.2 with resv := none } else p.2) }

/-- Removes a line from the pocket cache and eviction buffer of tile `t`, and lets a fill of it keep nothing (Table 4.7, cases
8 and 9). -/
def pocketInvalidate (s : State) (t line : Nat) : State :=
  s.onTile t fun x => { x with core := { x.core with
    pocket := x.core.pocket.filter fun p => p.1 != line
    evict := x.core.evict.filter fun p => p.1 != line
    wait := match x.core.wait with
      | .fill rd a n g f k e => .fill rd a n g f (k && a / 128 != line) e
      | w => w } }

/-- Presence vector of a line at base die `d` (R347). -/
def presenceOf (s : State) (d line : Nat) : BitVec 18 := AMap.getD s.coh.presence (clineKey d line) 0

def setPresence (s : State) (d line : Nat) (v : BitVec 18) : State :=
  let k := clineKey d line
  { s with coh := { s.coh with
      presence := if v = 0 then AMap.erase s.coh.presence k else AMap.put s.coh.presence k v } }

/-- A pocket cache of tile `t` may come to hold the line: its cluster is marked (R347). -/
def markPresence (s : State) (t line : Nat) : State :=
  s.setPresence (s.dieOf t) line (s.presenceOf (s.dieOf t) line ||| BitVec.twoPow 18 (s.clusterOf t))

/-- The pocket-cache invalidations of base die `d` for a line: to every tile of each marked cluster but a writing one, whose cluster
stays marked (R347). -/
def dieInvalidate (s : State) (d line : Nat) (writer : Option Nat := none) : State :=
  let v := s.presenceOf d line
  let kept : BitVec 18 := match writer with
    | some w => if s.dieOf w = d then v &&& BitVec.twoPow 18 (s.clusterOf w) else 0
    | none => 0
  ((s.tiles.filter fun p => s.dieOf p.1 == d && writer != some p.1 && v.getLsbD (s.clusterOf p.1)).foldl
    (fun s p => s.pocketInvalidate p.1 line) s).setPresence d line kept

/-- What follows when agent `a` loses a line or its M state: reservations kept there go, and for a base die its pocket copies
when it no longer holds the line (R347, R404). -/
def agentLoses (s : State) (a line : Nat) : State :=
  if a < 32 then s.onHart a fun h => if h.resv == some line then { h with resv := none } else h
  else (s.dieInvalidate (a - 32) line).breakReservations line

/-- What follows when agent `a` keeps a line but loses its M state: reservations kept there go (R404). -/
def agentYields (s : State) (a line : Nat) : State :=
  if a < 32 then s.onHart a fun h => if h.resv == some line then { h with resv := none } else h else s.breakReservations line

/-! ## Requests of an agent -/

/-- Credits of Table 11.2. -/
def creditLimit (_ : State) (a h : Nat) : Nat :=
  if a < 32 then (if h = 4 then 16 else 24)
  else if a = 0x24 then (if h = 4 then 128 else 256)
  else if h = 4 then 96 else 256

/-- Tags of the requests of agent `a` that hold a credit of home `h`. -/
def tagsAt (s : State) (a h : Nat) : List Nat := AMap.getD s.coh.used (a * 8 + h) []

def creditsUsed (s : State) (a h : Nat) : Nat := (s.tagsAt a h).length

def creditTake (s : State) (a h t : Nat) : State :=
  { s with coh := { s.coh with used := AMap.put s.coh.used (a * 8 + h) (t :: s.tagsAt a h) } }

/-- The request with tag `t` gives its credit back (R349). -/
def creditReturn (s : State) (a h t : Nat) : State :=
  { s with coh := { s.coh with used := AMap.put s.coh.used (a * 8 + h) ((s.tagsAt a h).erase t) } }

/-- The first tag from `t` on that none of `used` is; no more requests are outstanding than credits allow, far fewer than tags. -/
def freeTag (used : List Nat) : Nat → Nat → Nat
  | 0, t => t
  | n + 1, t => if used.contains t then freeTag used n ((t + 1) % 4096) else t

/-- Agent `a` sends a request for a line against a free credit (R349): the request's tag, unique among its outstanding ones (R350), and
the new state, or none without a credit. -/
def sendReq (s : State) (k : MsgKind) (a line ctx : Nat) : Option (Nat × State) :=
  let h := s.homeOf line
  if s.creditsUsed a h < s.creditLimit a h then
    let t := freeTag ([0, 1, 2, 3, 4].flatMap (s.tagsAt a)) 4096 ((AMap.getD s.coh.txn a 0 + 1) % 4096)
    let s := { s with coh := { s.coh with txn := AMap.put s.coh.txn a t } }
    let s := s.creditTake a h t
    some (t, s.send { kind := k, src := BitVec.ofNat 6 a, dst := BitVec.ofNat 6 (0x28 + h), txn := BitVec.ofNat 12 t,
                      line := BitVec.ofNat 45 line, ctx := BitVec.ofNat 16 ctx })
  else none

/-- Sets and ways of an agent's L2: the remote portion of a base die (R344), or a node core's 1 MiB (Log 21). -/
def l2Sets (s : State) (a : Nat) : Nat × Nat :=
  if a < 32 then (512, 16) else (32768, 2 * s.coh.rsize.getD (a - 32) 2)

/-- Lines of agent `a` in a write-back buffer. -/
def buffered (s : State) (a : Nat) : Nat :=
  (s.coh.lines.filter fun p => p.1 / 2 ^ 45 == a &&
    (p.2.st == .miA || p.2.st == .oiA || p.2.st == .eiA || p.2.st == .iiA)).length

/-- Write-back buffers of an agent (R349). -/
def bufferLimit (a : Nat) : Nat := if a < 32 then 16 else 64

/-- Agent `a` replaces a line (Table 11.6, column Replace; R360): a line that goes back to its home needs a free write-back buffer (R349). -/
def replaceLine (s : State) (a line : Nat) : Option State :=
  match s.cline a line with
  | none => some s
  | some c =>
    let wb (k : MsgKind) (st : CState) (data : Bool) : Option State :=
      if bufferLimit a ≤ s.buffered a then none
      else
      match s.sendReq k a line 0 with
      | none => none
      | some (t, s) =>
        let s := if data then
            s.send { kind := .wbData, src := BitVec.ofNat 6 a, dst := BitVec.ofNat 6 (0x28 + s.homeOf line),
                     txn := BitVec.ofNat 12 t, line := BitVec.ofNat 45 line, data := c.data, mask := BitVec.allOnes 128,
                     unc := c.bad }
          else s
        some ((s.setCline a line { c with st := st, txn := t }).agentLoses a line)
    match c.st with
    | .m => wb .wbM .miA true
    | .o => wb .wbO .oiA true
    | .e => wb .evE .eiA false
    | .s => some ((s.dropCline a line).agentLoses a line)
    | _ => none

/-- Makes room for a line at agent `a`: where its set is full, the least recently used line in a stable state is replaced, with
a free write-back buffer (R359). -/
def makeRoom (s : State) (a line : Nat) : Option State :=
  let (sets, ways) := s.l2Sets a
  let inSet := s.coh.lru.filter fun k => k / 2 ^ 45 == a && k % 2 ^ 45 % sets == line % sets
  if inSet.length < ways then some s
  else if bufferLimit a ≤ s.buffered a then none
  else
    match inSet.find? fun k => match s.cline a (k % 2 ^ 45) with
        | some c => c.st.stable
        | none => false with
    | some k => s.replaceLine a (k % 2 ^ 45)
    | none => none

/-- Agent `a` asks for a line that it does not hold, or for ownership of a copy (Table 11.6, columns Load and Store). A request
that finds no credit or no room is made again later. -/
def requestLine (s : State) (a line ctx : Nat) (excl : Bool) : State :=
  match s.cline a line with
  | none =>
    match s.makeRoom a line with
    | none => s
    | some s =>
      match s.sendReq (if excl then .rdM else .rdS) a line ctx with
      | none => s
      | some (t, s) => s.setCline a line { st := if excl then .imD else .isD, ctx := ctx, txn := t }
  | some c =>
    if excl && (c.st == .s || c.st == .o) then
      match s.sendReq .upg a line ctx with
      | none => s
      | some (t, s) => s.setCline a line { c with st := if c.st == .s then .smA else .omA, txn := t }
    else s

/-- What an agent's copy gives an access of context `ctx` (R354, R360). -/
inductive Avail where
  | ready (c : CLine)
  /-- Not yet: a request or a Chk is on its way. -/
  | wait (s : State)
  /-- Refused by the ownership check, or delivered uncorrectable. -/
  | refused (s : State)
  | spoiled (s : State)
  deriving DecidableEq, Repr

/-- The line at agent `a` for a load, or with ownership for a store: ready, or what is asked for (R346, R354, R360). -/
def avail (s : State) (a line ctx : Nat) (excl : Bool) : Avail :=
  if s.coh.denied.contains (a, line, ctx) then
    .refused { s with coh := { s.coh with denied := s.coh.denied.erase (a, line, ctx) } }
  else if s.coh.spoiled.contains (a, line) then
    .spoiled { s with coh := { s.coh with spoiled := s.coh.spoiled.erase (a, line) } }
  else
    match s.cline a line with
    | none => .wait (s.requestLine a line ctx excl)
    | some c =>
      if c.bad && c.st.stable then .spoiled ((s.replaceLine a line).getD s)
      else if c.ctx != ctx then
        -- one Chk at a time for a line, in a stable state (R354, R359)
        if !c.st.stable || (s.coh.net.any fun m => (m.kind == .chk || m.kind == .cmp || m.kind == .deny) && m.line.toNat == line &&
            (m.src.toNat == a || m.dst.toNat == a)) then .wait s
        else
          match s.sendReq .chk a line ctx with
          | none => .wait s
          | some (t, s) => .wait (s.setCline a line { c with txn := t, chk := ctx })
      else if excl then
        (if c.st == .m || c.st == .e then .ready c else .wait (s.requestLine a line ctx true))
      else if c.st.readable then .ready c
      else .wait s

/-! ## Home data -/

/-- The home-portion copy of a line at its home. -/
def copy? (s : State) (line : Nat) : Option (Line × Bool) := (s.coh.copies.find? fun p => p.1 == line).map (·.2)

def dropCopy (s : State) (line : Nat) : State :=
  { s with coh := { s.coh with copies := AMap.erase s.coh.copies line, copyLru := s.coh.copyLru.erase line
                               badHome := s.coh.badHome.filter (· != line) } }

/-- The home portion of a base die takes a line; a full set first gives up its least recently used line, written to HBM in class P2
when dirty (R344, R347, R357). -/
def homePut (s : State) (line : Nat) (l : Line) (dirty : Bool) : State :=
  let h := s.homeOf line
  let ways := 16 - 2 * s.coh.rsize.getD h 2
  let same := s.coh.copyLru.filter fun x => x % 32768 == line % 32768 && s.homeOf x == h && x != line
  let s := match same with
    | v :: _ =>
      if same.length < ways then s
      else
        let s := s.agentLoses (0x20 + h) v
        match s.copy? v with
        | some (d, true) => if s.coh.badHome.contains v then s.dropCopy v else (s.dramWrite 2 v d).dropCopy v
        | _ => s.dropCopy v
    | [] => s
  { s with coh := { s.coh with copies := AMap.put s.coh.copies line (l, dirty)
                               copyLru := s.coh.copyLru.erase line ++ [line]
                               badHome := s.coh.badHome.filter (· != line) } }

/-- Writes a line into the home portion, marked dirty, or directly to GDDR-7 at the hub (R357). -/
def homeWrite (s : State) (line : Nat) (l : Line) : State :=
  if s.homeOf line = 4 then s.dramWrite 2 line l else s.homePut line l true

/-- Home data: the home-portion copy when one is present, otherwise DRAM (R357). A copy that cannot be corrected is not kept (R363). -/
def homeRead (s : State) (cls line : Nat) : Option Line × State :=
  match s.copy? line with
  | some (l, _) => if s.coh.badHome.contains line then (none, (s.agentLoses (0x20 + s.homeOf line) line).dropCopy line) else (some l, s)
  | none => s.dramRead cls line

/-- The data of a snooped agent on its way to the home, which awaits it (R362). -/
def comesHome (s : State) (m : Msg) : Bool :=
  match s.serve? m.line.toNat with
  | some v => m.kind == .wbData && !m.unc && m.txn == v.req.txn && (v.wb.contains m.src.toNat || v.rsp.contains m.src.toNat)
  | none => false

/-- The agent that owns a line: in a stable state or OM_A; or with a write-back or notice under way that the home has not taken. -/
def ownerLine (s : State) (line : Nat) : Option CLine :=
  let d := (s.dirOf line).owner
  (s.coh.lines.find? fun p => p.1 % 2 ^ 45 == line && p.2.st.owns &&
    (p.2.st.stable || p.2.st == .omA || d == some (p.1 / 2 ^ 45))).map (·.2)

/-- The current bytes of a line, wherever they are: at its owner, in a message that carries it with ownership or to the home, or
at the home. -/
def lineValue (s : State) (cls line : Nat) : Option Line × State :=
  match s.ownerLine line with
  | some c => (if c.bad then none else some c.data, s)
  | none =>
    match (s.coh.early ++ s.coh.net).find? fun m => m.line.toNat == line &&
        ((m.kind == .data && !m.unc && (m.st == .m || m.st == .e)) || s.comesHome m) with
    | some m => (some m.data, s)
    | none => s.homeRead cls line

/-- Bytes that nothing holds any more: those which a partial write leaves of a line that cannot be corrected (Log 4). -/
def lostLine (s : State) (line : Nat) : Line × State :=
  let n := s.ident.losses + 1
  (lineOfBytes ((List.range 128).map fun i => Config.lostByte n (line * 128 + i)), { s with ident := { s.ident with losses := n } })

/-! ## Answers of the home -/

def counter (s : State) (f : Nat → Fld) (line : Nat) : State := s.bump (f (s.homeOf line))

def reply (s : State) (k : MsgKind) (m : Msg) (st : LineSt := .i) (data : Line := 0) (unc : Bool := false) : State :=
  s.send { kind := k, src := m.dst, dst := m.src, txn := m.txn, line := m.line, st := st, data := data, unc := unc }

/-- A protocol error at the home (R364): counted, PROTERR set, source 67 raised. -/
def protocolError (s : State) (line : Nat) : State :=
  (((s.counter Reg.COH_PROTERR_CNT.COUNT line).raise Reg.COH_STAT.PROTERR)).signal 67

/-- A request of a home's own base die (R345): it crosses no link and takes no directory entry. -/
def isLocal (_ : State) (m : Msg) : Bool := m.src.toNat + 8 == m.dst.toNat && 0x20 ≤ m.src.toNat

def snoop (s : State) (k : MsgKind) (m : Msg) (x fwd : Nat) : State :=
  s.send { kind := k, src := m.dst, dst := BitVec.ofNat 6 x, txn := m.txn, ftxn := m.txn, line := m.line,
           fwd := BitVec.ofNat 6 fwd }

def snoopAll (s : State) (k : MsgKind) (m : Msg) (xs : List Nat) (fwd : Nat) : State :=
  xs.foldl (fun s x => s.snoop k m x fwd) s

/-- Sends Data from home data with the state granted, or Data with UNC where it cannot be corrected (R357, R363). A grant of M
drops the home-portion copy; a grant of E or M first takes the home portion's pocket copies and reservations (R347, R404). Answers whether the data
was good. -/
def homeData (s : State) (m : Msg) (st : LineSt) : Bool × State :=
  let line := m.line.toNat
  match s.homeRead (((s.unitReq? m).map (·.cls)).getD 0) line with
  | (none, s) => (false, (s.counter Reg.COH_UNC_CNT.COUNT line).reply .data m .i 0 true)
  | (some l, s) =>
    let s := if st == .e || st == .m then (s.dieInvalidate (s.homeOf line) line).breakReservations line else s
    let s := if st == .m then s.dropCopy line else s
    (true, s.reply .data m st l)

/-- Home data to the unit that made a local request (Table 11.7). -/
def localData (s : State) (m : Msg) : State :=
  match s.unitReq? m with
  | some u =>
    if u.got.isSome then s
    else if m.kind == .rdCur then
      match s.homeRead u.cls u.line with
      | (some l, s) => s.unitGets (.data l)
      | (none, s) => (s.counter Reg.COH_UNC_CNT.COUNT u.line).unitGets .bad
    else s.unitGets (.data 0)
  | none => s

/-- Ends the request being served for a line: a local one has its data or has been written. -/
def finish (s : State) (line : Nat) (crdRet : Bool) (m : Msg) : State :=
  let s := s.endServe line
  if s.isLocal m then (s.localData m).creditReturn m.src.toNat (s.homeOf line) m.txn.toNat
  else if crdRet then s.reply .crdRet m else s

/-- The sets of a home's directory (R355). -/
def dirFull (s : State) (line : Nat) : Bool :=
  let sets := if s.homeOf line = 4 then 16384 else 65536
  let ls := s.dirLines
  !ls.contains line && 16 ≤ (ls.filter fun l => s.homeOf l == s.homeOf line && l % sets == line % sets).length

/-- The least recently used entry of a full set whose line is not being served (R356). -/
def dirVictim (s : State) (line : Nat) : Option Nat :=
  let sets := if s.homeOf line = 4 then 16384 else 65536
  s.coh.dirLru.find? fun v => s.homeOf v == s.homeOf line && v % sets == line % sets && (s.serve? v).isNone

/-- When every awaited answer and datum is in, what the home does next for the request that it serves (Table 11.7). -/
def advance (s : State) (line : Nat) : State :=
  match s.serve? line with
  | none => s
  | some v =>
    if !v.rsp.isEmpty || !v.wb.isEmpty || v.needData then s
    else
      let m := v.req
      let r := m.src.toNat
      let d := s.dirOf line
      if v.answered then
        (if v.acked then s.finish line true m else s)
      else
        match m.kind with
        | .rdM =>
          if s.isLocal m then (s.setDir line {}).finish line false m
          else
            let (good, s) := s.homeData m .m
            (s.setDir line (if good then { owner := some r } else {})).setServe line { v with answered := true }
        | .upg =>
          if s.isLocal m then (s.setDir line {}).finish line false m
          else if d.owner == some r || d.sharers.contains r then
            let s := ((s.dieInvalidate (s.homeOf line) line).breakReservations line).dropCopy line
            ((s.reply .gntM m).setDir line { owner := some r }).setServe line { v with answered := true }
          else
            let (good, s) := s.homeData m .m
            (s.setDir line (if good then { owner := some r } else {})).setServe line { v with answered := true }
        | .wrFull | .wrPart =>
          let s := match v.got with
            | some (l, mask) =>
              match s.homeRead 2 line with
              | (some old, s) => s.homeWrite line (lineMerge old l mask)
              | (none, s) =>
                let (old, s) := s.lostLine line
                s.homeWrite line (lineMerge old l mask)
            | none => s
          let u := s.unitReq? m
          let tile := u.bind (·.tile)
          let s := s.dieInvalidate (s.homeOf line) line (if s.isLocal m then tile else none)
          let s := (s.breakReservations line (if u.any (·.core) then tile else none)).setDir line {}
          (if s.isLocal m then s else s.reply .cmp m).finish line false m
        | .wbM | .wbO =>
          let s :=
            if d.owner == some r then
              let s := match v.got with
                | some (l, _) => s.homeWrite line l
                | none => s
              s.setDir line (if m.kind == .wbM then {} else { sharers := d.sharers })
            else if v.got.isSome then s.counter Reg.COH_WBDISC_CNT.COUNT line
            else s
          (s.reply .relAck m).finish line false m
        | _ => s.finish line false m

/-- A WbData that came before the home awaited it, where the home now does (R348). -/
def takeEarly (s : State) (line : Nat) : State :=
  match s.serve? line with
  | none => s
  | some v =>
    let mine (m : Msg) : Bool := m.line.toNat == line && m.txn == v.req.txn
    let s := s.coh.early.foldl (fun (s : State) m =>
      match s.serve? line with
      | some v =>
        if mine m && v.wb.contains m.src.toNat then
          let s := if m.unc then s.counter Reg.COH_UNC_CNT.COUNT line else s.homeWrite line m.data
          s.setServe line { v with wb := v.wb.erase m.src.toNat }
        else if mine m && v.needData && m.src == v.req.src then
          let s := if m.unc then s.counter Reg.COH_UNC_CNT.COUNT line else s
          s.setServe line { v with needData := false, got := if m.unc then none else some (m.data, m.mask) }
        else s
      | none => s) s
    { s with coh := { s.coh with early := s.coh.early.filter fun m =>
      !(mine m && (v.wb.contains m.src.toNat || (v.needData && m.src == v.req.src))) } }

/-- The home takes a request for a line that it is not serving (Table 11.7). -/
def take (s : State) (m : Msg) : State :=
  let line := m.line.toNat
  let r := m.src.toNat
  let d := s.dirOf line
  let hs := (s.holders line).filter (· != r)
  let home := m.dst.toNat
  let grants := m.kind == .rdS || m.kind == .rdM || m.kind == .upg
  if grants && !s.isLocal m && s.dirFull line then
    -- the set is full: the victim's holders are invalidated, and the request waits (R356)
    let s := { s with coh := { s.coh with waiting := AMap.put s.coh.waiting line (m :: AMap.getD s.coh.waiting line []) } }
    if (AMap.get? s.coh.evicting line).any fun v => (s.serve? v).any fun x => x.req.kind == .snpI then s
    else
      match s.dirVictim line with
      | none => s
      | some v =>
        let vs := s.holders v
        let e : Msg := { kind := .snpI, src := m.dst, dst := m.dst, txn := 0, line := BitVec.ofNat 45 v }
        let s : State := { s with coh := { s.coh with evicting := AMap.put s.coh.evicting line v } }
        ((s.counter Reg.COH_DIRBI_CNT.COUNT line).setServe v { req := e, rsp := vs }).snoopAll .snpI e vs home
  else
    let s : State := { s with coh := { s.coh with evicting := AMap.erase s.coh.evicting line } }
    match m.kind with
    | .rdS =>
      match d.owner with
      | some x =>
        if x = r then s.protocolError line
        else if s.isLocal m then (s.setServe line { req := m, rsp := [x], acked := true, answered := true }).snoop .snpS m x home
        else (s.setServe line { req := m, rsp := [x], answered := true }).snoop .snpS m x r
      | none =>
        if s.isLocal m then s.finish line false m
        else
          let st := if d.sharers.isEmpty then LineSt.e else LineSt.s
          let (good, s) := s.homeData m st
          let s := if good then
              s.setDir line (if d.sharers.isEmpty then { owner := some r } else { sharers := r :: d.sharers.filter (· != r) })
            else s
          s.setServe line { req := m, answered := true }
    | .rdM =>
      match d.owner with
      | some x =>
        if x = r then s.protocolError line
        else if s.isLocal m then (s.setServe line { req := m, rsp := hs }).snoopAll .snpI m hs home
        else
          let others := hs.filter (· != x)
          (((s.setServe line { req := m, rsp := hs, answered := true }).snoop .snpM m x r).snoopAll .snpI m others home)
      | none => ((s.setServe line { req := m, rsp := hs }).snoopAll .snpI m hs home).advance line
    | .upg =>
      if d.owner == some r && !d.inO then s.protocolError line
      else if s.isLocal m || d.owner == some r || d.sharers.contains r then
        ((s.setServe line { req := m, rsp := hs }).snoopAll .snpI m hs home).advance line
      else
        match d.owner with
        | some x =>
          let others := hs.filter (· != x)
          (((s.setServe line { req := m, rsp := hs, answered := true }).snoop .snpM m x r).snoopAll .snpI m others home)
        | none => ((s.setServe line { req := m, rsp := hs }).snoopAll .snpI m hs home).advance line
    | .rdCur =>
      match d.owner with
      | some x =>
        if s.isLocal m then (s.setServe line { req := m, rsp := [x], acked := true, answered := true }).snoop .snpS m x home
        else (s.setServe line { req := m, rsp := [x], acked := true, answered := true }).snoop .snpC m x r
      | none => if s.isLocal m then s.finish line false m else (s.homeData m .i).2
    | .wrFull | .wrPart =>
      if s.isLocal m then
        let u := s.unitReq? m
        let got := u.map fun u => (u.data, u.mask)
        (((s.setServe line { req := m, rsp := hs, got := got }).snoopAll .snpI m hs home)).advance line
      else (((s.setServe line { req := m, rsp := hs, needData := true }).snoopAll .snpI m hs home).takeEarly line).advance line
    | .wbM | .wbO => ((s.setServe line { req := m, needData := true }).takeEarly line).advance line
    | .evE => (if d.owner == some r then s.setDir line { sharers := d.sharers } else s).reply .relAck m
    | _ => s

/-- A request reaches its home (R352, R353, R379): held while its granule changes hands, checked, then queued or taken. -/
def homeRequest (s : State) (m : Msg) : State :=
  let line := m.line.toNat
  let g := line * 128 / 2 ^ 21
  let wb := m.kind == .wbM || m.kind == .wbO || m.kind == .evE
  let write := !(m.kind == .rdS || m.kind == .rdCur || m.kind == .chk)
  if !(s.coh.net.contains m) then s
  else if s.coh.heldGranules.contains g && !wb && (s.unitReq? m).isNone then s
  else
    let s := s.unsend m
    if m.dst.toNat != 0x28 + s.homeOf line || !s.coherent (line * 128) || 0x24 < m.src.toNat then s.protocolError line
    else if !wb && (s.retired g || !s.ownCheck m.ctx.toNat g write) then
      -- the data of a refused write has nowhere to go
      let s : State := { s with coh := { s.coh with early := s.coh.early.filter fun x =>
        !(x.src == m.src && x.txn == m.txn && x.line == m.line) } }
      (s.counter Reg.COH_DENY_CNT.COUNT line).reply .deny m
    else if m.kind == .chk then s.reply .cmp m
    else if (s.serve? line).isSome || !(AMap.getD s.coh.waiting line []).isEmpty then
      { s with coh := { s.coh with waiting := AMap.put s.coh.waiting line (AMap.getD s.coh.waiting line [] ++ [m]) } }
    else s.take m

/-- The next waiting request of a line that is not being served (R352). -/
def dequeue (s : State) (line : Nat) : State :=
  if (s.serve? line).isSome then s
  else
    match AMap.getD s.coh.waiting line [] with
    | [] => s
    | m :: rest =>
      let w := if rest.isEmpty then AMap.erase s.coh.waiting line else AMap.put s.coh.waiting line rest
      { s with coh := { s.coh with waiting := w } }.take m

/-- The directory takes the state that a responder keeps (R362). -/
def dirFrom (s : State) (line x : Nat) (st : LineSt) : State :=
  let d := s.dirOf line
  let d := { d with owner := if d.owner == some x then none else d.owner, sharers := d.sharers.filter (· != x) }
  match st with
  | .s => s.setDir line { d with sharers := x :: d.sharers }
  | .e | .m => s.setDir line { d with owner := some x, inO := false }
  | .o => s.setDir line { d with owner := some x, inO := true }
  | _ => s.setDir line d

/-- A SnpRsp reaches the home (R361, R362, R363). One that the home does not await is accepted, and the home does not act on it (R348,
R362). -/
def homeSnpRsp (s : State) (m : Msg) : State :=
  let line := m.line.toNat
  let x := m.src.toNat
  match s.serve? line with
  | none => s.unsend m
  | some v =>
    if !(s.coh.net.contains m) then s
    else if !v.rsp.contains x then s.unsend m
    else
      let s := s.unsend m
      -- the owner's Data to the requester carried no usable bytes
      let s := if m.unc && !m.wb && m.fwd.toNat != 0x28 + s.homeOf line then s.counter Reg.COH_UNC_CNT.COUNT line else s
      let s := if m.xb then s.counter Reg.COH_CROSS_CNT.COUNT line else s
      let s := s.dirFrom line x (if m.unc then .i else m.st)
      -- the requester takes the state of the Data that the owner sent it
      let r := v.req.src.toNat
      let fwd := m.fwd.toNat == r && v.answered && !s.isLocal v.req && !m.unc
      let s := if fwd && v.req.kind == .rdS then s.dirFrom line r .s
        else if fwd && (v.req.kind == .rdM || v.req.kind == .upg) then s.dirFrom line r .m
        else s
      let v' := { v with rsp := v.rsp.erase x, wb := if m.wb then x :: v.wb else v.wb }
      let s := (s.setServe line v').takeEarly line
      if v.req.kind == .rdCur && !m.wb then s.finish line true v.req
      else s.advance line

/-- A WbData belongs to a request that is on its way, waits or is being served, or to a snoop that the home has sent for it. -/
def wbExpected (s : State) (m : Msg) : Bool :=
  let writes (k : MsgKind) : Bool := k == .wrFull || k == .wrPart || k == .wbM || k == .wbO
  let same (r : Msg) : Bool := writes r.kind && r.src == m.src && r.txn == m.txn && r.line == m.line
  s.coh.net.any same || (AMap.getD s.coh.waiting m.line.toNat []).any same
    || (s.serve? m.line.toNat).any fun v => same v.req || (m.txn == v.req.txn && (v.rsp.contains m.src.toNat || v.wb.contains m.src.toNat))

/-- A local read for which a holder's bytes could not be corrected (R363). -/
def localSpoilt (s : State) (v : Serve) (line : Nat) : State :=
  if s.isLocal v.req && (v.req.kind == .rdS || v.req.kind == .rdCur) then
    (if (s.unitReq? v.req).isSome then s.unitGets .bad
     else { s with coh := { s.coh with spoiled := (v.req.src.toNat, line) :: s.coh.spoiled } })
  else s

/-- A WbData reaches the home (R348, R357, R363): of a snooped agent, or of the writer itself. One that the home does not await yet is
kept; one that belongs to nothing is accepted and not acted on. -/
def homeWbData (s : State) (m : Msg) : State :=
  let line := m.line.toNat
  if !(s.coh.net.contains m) then s
  else
    let keep := s.wbExpected m
    let s := s.unsend m
    match s.serve? line with
    | some v =>
      if m.txn == v.req.txn && (v.wb.contains m.src.toNat || (v.needData && m.src == v.req.src)) then
        let s := if m.unc then s.localSpoilt v line else s
        (({ s with coh := { s.coh with early := s.coh.early ++ [m] } }).takeEarly line).advance line
      else if keep then { s with coh := { s.coh with early := s.coh.early ++ [m] } }
      else s
    | none => if keep then { s with coh := { s.coh with early := s.coh.early ++ [m] } } else s

/-- A CompAck reaches the home: the request ends, and its credit returns (Table 11.7, R349); any other is accepted and not acted on. -/
def homeCompAck (s : State) (m : Msg) : State :=
  let line := m.line.toNat
  match s.serve? line with
  | none => s.unsend m
  | some v =>
    if !(s.coh.net.contains m) then s
    else if v.req.src != m.src || v.req.txn != m.txn then s.unsend m
    else ((s.unsend m).setServe line { v with acked := true }).advance line

/-! ## What an agent does with a snoop (Table 11.6) -/

/-- An agent reports a message that it cannot have, with its tag and opcode (R364): ST has three bits, and carries the opcode's lowest
three (Log 125). -/
def agentError (s : State) (m : Msg) : State :=
  let line := m.line.toNat
  s.send { kind := .pErr, src := m.dst, dst := BitVec.ofNat 6 (0x28 + s.homeOf line), txn := m.txn, line := m.line,
           st := stOf (opcOf m.kind) }

def respond (s : State) (m : Msg) (st : LineSt) (wb xb unc : Bool) (data : Line) : State :=
  let s := s.send { kind := .snpRsp, src := m.dst, dst := m.src, txn := m.txn, ftxn := m.ftxn, line := m.line, st := st,
                    wb := wb, xb := xb, unc := unc, fwd := m.fwd }
  if wb then
    s.send { kind := .wbData, src := m.dst, dst := m.src, txn := m.ftxn, line := m.line, data := data,
             mask := BitVec.allOnes 128, unc := unc }
  else s

def forward (s : State) (m : Msg) (st : LineSt) (data : Line) (unc : Bool) : State :=
  s.send { kind := .data, src := m.dst, dst := m.fwd, txn := m.ftxn, ftxn := m.ftxn, line := m.line, st := st, data := data,
           unc := unc }

/-- The agent leaves the state that a snoop takes away. -/
def toState (s : State) (a line : Nat) (c : CLine) (st : Option CState) : State :=
  match st with
  | some k => if k == c.st then s else
      let s := s.setCline a line { c with st := k }
      if k == .imD || k == .iiA then s.agentLoses a line else s.agentYields a line
  | none => (s.dropCline a line).agentLoses a line

/-- A snoop reaches a caching agent (R360, R361, R363, R364). -/
def agentSnoop (s : State) (m : Msg) : State :=
  let a := m.dst.toNat
  let line := m.line.toNat
  if !(s.coh.net.contains m) then s
  else
    let s := s.unsend m
    if 0x24 ≤ a then s.agentError m
    else
      match s.cline a line with
      | none => if m.kind == .snpI then s.respond m .i false false false 0 else s.agentError m
      | some c =>
        let home := m.fwd.toNat == 0x28 + s.homeOf line
        if c.bad && c.st.owns && m.kind != .snpI then
          -- an owner whose copy cannot be corrected answers UNC on its data and its SnpRsp, and enters I (R363)
          let dirty := c.st == .m || c.st == .o || c.st == .omA || c.st == .miA || c.st == .oiA
          let s := if home then s else s.forward m .i 0 true
          let s := s.respond m .i (home && dirty) false true 0
          match c.st with
          | .miA | .oiA | .eiA => s.toState a line c (some .iiA)
          | .omA => s.toState a line c (some .imD)
          | _ => s.toState a line c none
        else
          match m.kind, c.st with
          | .snpC, .m => (s.forward m .i c.data false).respond m .m false false false 0
          | .snpC, .o | .snpC, .omA => (s.forward m .i c.data false).respond m .o false false false 0
          | .snpC, .e => (s.forward m .i c.data false).respond m .e false false false 0
          | .snpC, .miA => (s.forward m .i c.data false).respond m .m false true false 0
          | .snpC, .oiA => (s.forward m .i c.data false).respond m .o false true false 0
          | .snpC, .eiA => (s.forward m .i c.data false).respond m .e false true false 0
          | .snpS, .m =>
            if home then (s.toState a line c (some .s)).respond m .s true false c.bad c.data
            else ((s.toState a line c (some .o)).forward m .s c.data false).respond m .o false false false 0
          | .snpS, .o =>
            if home then (s.toState a line c (some .s)).respond m .s true false c.bad c.data
            else (s.forward m .s c.data false).respond m .o false false false 0
          | .snpS, .omA =>
            if home then (s.toState a line c (some .smA)).respond m .s true false c.bad c.data
            else (s.forward m .s c.data false).respond m .o false false false 0
          | .snpS, .e =>
            let s := s.toState a line c (some .s)
            if home then s.respond m .s false false false 0
            else (s.forward m .s c.data false).respond m .s false false false 0
          | .snpS, .miA | .snpS, .oiA =>
            let s := s.toState a line c (some .iiA)
            let s := if home then s else s.forward m .s c.data false
            s.respond m .i true true c.bad c.data
          | .snpS, .eiA =>
            let s := s.toState a line c (some .iiA)
            let s := if home then s else s.forward m .s c.data false
            s.respond m .i false true false 0
          | .snpM, .m | .snpM, .o | .snpM, .e =>
            ((s.toState a line c none).forward m .m c.data false).respond m .i false false false 0
          | .snpM, .omA =>
            ((s.toState a line c (some .imD)).forward m .m c.data false).respond m .i false false false 0
          | .snpM, .miA | .snpM, .oiA | .snpM, .eiA =>
            ((s.toState a line c (some .iiA)).forward m .m c.data false).respond m .i false true false 0
          | .snpI, .m | .snpI, .o => (s.toState a line c none).respond m .i true false c.bad c.data
          | .snpI, .e | .snpI, .s => (s.toState a line c none).respond m .i false false false 0
          | .snpI, .isD | .snpI, .imD => s.respond m .i false false false 0
          | .snpI, .smA => (s.toState a line c (some .imD)).respond m .i false false false 0
          | .snpI, .omA => (s.toState a line c (some .imD)).respond m .i true false c.bad c.data
          | .snpI, .miA | .snpI, .oiA => (s.toState a line c (some .iiA)).respond m .i true true c.bad c.data
          | .snpI, .eiA => (s.toState a line c (some .iiA)).respond m .i false true false 0
          | _, _ => s.agentError m

/-- CompAck of the request that an answer ends. -/
def compAck (s : State) (m : Msg) : State :=
  s.send { kind := .compAck, src := m.dst, dst := BitVec.ofNat 6 (0x28 + s.homeOf m.line.toNat), txn := m.txn, line := m.line }

end State

end Sys2Proof.Machine
end

