-- ==== Sys2Proof/Machine/Access.lean ====
section
/-! DEFINITION. What an agent does with an answer (Table 11.6), how a message is delivered, and the reads and writes of the units that
hold no lines: the messages of a unit's RdCur, WrFull or WrPart are all exchanged within the command that makes the access (R345, R346,
R362; Log 22). -/

namespace Sys2Proof.Machine

/-- Sign- or zero-extension of `n` bytes to 64 bits. -/
def extend (v n : Nat) (sext : Bool) : W64 :=
  if sext && v.testBit (8 * n - 1) then BitVec.ofNat 64 (v + 2 ^ 64 - 2 ^ (8 * n)) else BitVec.ofNat 64 v

/-- Bytes of a memory access of each size. -/
def sizeBytes : MemSize → Nat
  | .b => 1 | .h => 2 | .w => 4 | .d => 8

namespace State

/-- Register `rd` of a hart written; x0 stays zero. -/
def setHartReg (s : State) (h rd : Nat) (v : W64) : State :=
  if rd % 32 = 0 then s else s.onHart h fun t => { t with x := AMap.put t.x (rd % 32) v }

/-- A node core's precise access fault (R317, R375): the hart takes the exception of its own ISA (Log 23). -/
def hartFault (s : State) (h : Nat) : State := s.onHart h fun t => { t with faults := t.faults + 1, resv := none }

/-- The unit at work awaits this answer of a home. -/
def unitAwaits (s : State) (m : Msg) : Option UnitReq :=
  s.coh.unit.bind fun u => if u.agent = m.dst.toNat ∧ u.txn = m.txn.toNat ∧ u.line = m.line.toNat then some u else none

/-- Data reaches an agent (R360, R363, R349). -/
def agentData (s : State) (m : Msg) : State :=
  let a := m.dst.toNat
  let line := m.line.toNat
  if !(s.coh.net.contains m) then s
  else
    let s := s.unsend m
    match s.cline a line with
    | some c =>
      if c.txn == m.txn.toNat && (c.st == .isD || c.st == .imD) then
        let s := s.compAck m
        if m.unc then
          let s := s.dropCline a line
          { s with coh := { s.coh with spoiled := (a, line) :: s.coh.spoiled } }
        else if c.st == .imD then s.setCline a line { c with st := .m, data := m.data }
        else s.setCline a line { c with st := if m.st == .e then .e else .s, data := m.data }
      else s.agentError m
    | none =>
      -- Data of a RdCur of a node core (Table 11.4); from the home it returns the credit
      if a < 32 then
        match (s.hart a).unc.find? fun u => !u.write && u.txn == m.txn.toNat with
        | some u =>
          let s := s.onHart a fun t => { t with unc := t.unc.erase u }
          let s := if 0x28 ≤ m.src.toNat then s.creditReturn a (s.homeOf line) m.txn.toNat else s
          if m.unc then s.hartFault a
          else
            let v := (m.data >>> (8 * (u.addr % 128))).toNat % 2 ^ (8 * u.size)
            s.setHartReg a u.rd (extend v u.size true)
        | none =>
          if s.coh.late.contains (a, m.txn.toNat) then
            let s := if 0x28 ≤ m.src.toNat then s.creditReturn a (s.homeOf line) m.txn.toNat else s
            { (s.bump Reg.MO_LATEACK_CNT.COUNT) with coh := { s.coh with late := s.coh.late.erase (a, m.txn.toNat) } }
          else s.agentError m
      else if (s.unitAwaits m).any fun u => u.kind == .rdCur then
        let s := if 0x28 ≤ m.src.toNat then s.creditReturn a (s.homeOf line) m.txn.toNat else s
        s.unitGets (if m.unc then .bad else .data m.data)
      else s.agentError m

/-- GntM reaches an agent (Table 11.6). -/
def agentGntM (s : State) (m : Msg) : State :=
  let a := m.dst.toNat
  let line := m.line.toNat
  if !(s.coh.net.contains m) then s
  else
    let s := s.unsend m
    match s.cline a line with
    | some c =>
      if c.txn == m.txn.toNat && (c.st == .smA || c.st == .omA) then
        let s := if 0x20 ≤ a then s.dieInvalidate (a - 0x20) line else s
        (s.setCline a line { c with st := .m }).compAck m
      else s.agentError m
    | none => s.agentError m

/-- Cmp reaches the requester of a WrFull, WrPart or Chk (R354, R409, R415): the credit returns, a Chk replaces the recorded
context, a store is acknowledged. -/
def agentCmp (s : State) (m : Msg) : State :=
  let a := m.dst.toNat
  let line := m.line.toNat
  if !(s.coh.net.contains m) then s
  else
    let s := (s.unsend m).creditReturn a (s.homeOf line) m.txn.toNat
    match (s.hart a).unc.find? fun u => u.write && u.txn == m.txn.toNat with
    | some u => s.onHart a fun t => { t with unc := t.unc.erase u }
    | none =>
      if (s.unitAwaits m).isSome then s.unitGets (.data 0) else
      match s.cline a line with
      | some c => if c.txn == m.txn.toNat && c.st.stable then s.setCline a line { c with ctx := c.chk } else s
      | none =>
        if s.coh.late.contains (a, m.txn.toNat) then
          { (s.bump Reg.MO_LATEACK_CNT.COUNT) with coh := { s.coh with late := s.coh.late.erase (a, m.txn.toNat) } }
        else s

/-- RelAck reaches an agent (Table 11.6). -/
def agentRelAck (s : State) (m : Msg) : State :=
  let a := m.dst.toNat
  let line := m.line.toNat
  if !(s.coh.net.contains m) then s
  else
    let s := s.unsend m
    match s.cline a line with
    | some c =>
      if c.txn == m.txn.toNat && (c.st == .miA || c.st == .oiA || c.st == .eiA || c.st == .iiA) then
        (s.creditReturn a (s.homeOf line) m.txn.toNat).dropCline a line
      else s.agentError m
    | none => s.agentError m

/-- Deny reaches an agent (R354, R375): the credit returns, and the access is refused. -/
def agentDeny (s : State) (m : Msg) : State :=
  let a := m.dst.toNat
  let line := m.line.toNat
  if !(s.coh.net.contains m) then s
  else
    let s := (s.unsend m).creditReturn a (s.homeOf line) m.txn.toNat
    match (s.hart a).unc.find? fun u => u.txn == m.txn.toNat with
    | some u =>
      (s.onHart a fun t => { t with unc := t.unc.erase u }).hartFault a
    | none =>
      if (s.unitAwaits m).isSome then s.unitGets .refused else
      match s.cline a line with
      | some c =>
        let ctx := if c.st.stable then c.chk else c.ctx
        let s := { s with coh := { s.coh with denied := (a, line, ctx) :: s.coh.denied } }
        match c.st with
        | .isD | .imD => s.dropCline a line
        | .smA => s.setCline a line { c with st := .s }
        | .omA => s.setCline a line { c with st := .o }
        | _ => s
      | none => s

/-- CrdRet reaches the requester (R349). -/
def agentCrdRet (s : State) (m : Msg) : State :=
  if !(s.coh.net.contains m) then s
  else (s.unsend m).creditReturn m.dst.toNat (s.homeOf m.line.toNat) m.txn.toNat

/-! ## Delivery -/

/-- A message that names a reserved agent or opcode arrives (R364): dropped; a caching agent reports it to the line's home, and the home
counts it. -/
def badMessage (s : State) (m : Msg) : State :=
  let s := s.unsend m
  if m.dst.toNat < 0x24 then s.agentError m else s.protocolError m.line.toNat

/-- A message between dies without a route is dropped, with an entry in the dead-letter log (R451, Table 21.2; Log 41). -/
def dropMessage (s : State) (m : Msg) : State :=
  let l := ((List.range 8).find? fun l => s.linkFailed l).getD 0
  let n := 16 + (if carriesLine m then 128 else 0) + (if m.kind == .wbData && m.mask != BitVec.allOnes 128 then 16 else 0)
  (s.unsend m).deadLetter
    { postmark := 0, num := 0, cause := 4, kind := 7, unit := 0xFF, phys := (0x30 + 2 * l) * 2 ^ 24, ctx := 0, queue := 0, seq := 0
      bytes := n, addr := 0, age := 0, node := 0, tout := 0, merged := 0 }

/-- PErr reaches the home (R364). -/
def homePErr (s : State) (m : Msg) : State :=
  if s.coh.net.contains m then (s.unsend m).protocolError m.line.toNat else s

/-- A message arrives: `f` where it is on its way, and the handling of R364 where it names a reserved agent or opcode. -/
def arriving (s : State) (m : Msg) (f : State → Msg → State) : State :=
  if reservedKind m.kind || reservedAgent m.src.toNat || reservedAgent m.dst.toNat then s.badMessage m
  else if s.coh.net.contains m && !s.routed (agentDie m.src.toNat) (agentDie m.dst.toNat) then s.dropMessage m
  else f s m

/-- What its destination does with a message. -/
def takeMsg (s : State) (m : Msg) : State :=
  match m.kind with
  | .rdS | .rdM | .upg | .rdCur | .wrFull | .wrPart | .wbM | .wbO | .evE | .chk => s.arriving m homeRequest
  | .snpS | .snpM | .snpI | .snpC => s.arriving m agentSnoop
  | .snpRsp => s.arriving m homeSnpRsp
  | .compAck => s.arriving m homeCompAck
  | .gntM => s.arriving m agentGntM
  | .cmp => s.arriving m agentCmp
  | .relAck => s.arriving m agentRelAck
  | .deny => s.arriving m agentDeny
  | .pErr => s.arriving m homePErr
  | .crdRet => s.arriving m agentCrdRet
  | .data => s.arriving m agentData
  | .wbData => s.arriving m homeWbData
  | .reserved _ _ => s.badMessage m

/-- A request that its home holds while the granule changes hands (R379). -/
def heldRequest (s : State) (m : Msg) : Bool :=
  vcOf m.kind == 0 && s.coh.heldGranules.contains (m.line.toNat * 128 / 2 ^ 21) && !(m.kind == .wbM || m.kind == .wbO || m.kind == .evE)
    && (s.unitReq? m).isNone

/-- The messages of a line, and of the line whose directory entry a request for it awaits, are exchanged, and the requests waiting for
it are taken, until nothing of it is on its way. -/
def exchange (line : Nat) : Nat → State → State
  | 0, s => s
  | n + 1, s =>
    let mine (l : Nat) : Bool := l == line || AMap.get? s.coh.evicting line == some l
    match s.coh.net.find? fun m => mine m.line.toNat && !s.heldRequest m with
    | some m => exchange line n (s.takeMsg m)
    | none =>
      match s.coh.waiting.find? fun p => mine p.1 && (s.serve? p.1).isNone with
      | some p => exchange line n (s.dequeue p.1)
      | none => s

/-- Messages that the exchange for one line can take: each request sends at most a snoop to every agent, and has its answers. -/
def exchangeSteps (s : State) (line : Nat) : Nat :=
  256 * (4 + s.coh.net.length + (AMap.getD s.coh.waiting line []).length)

def exchangeLine (s : State) (line : Nat) : State := exchange line (s.exchangeSteps line) s

/-! ## Unit reads and writes -/

/-- The home's answer to a unit's request of context `ctx` for a line: unmapped or RETIRED (R317, R337), refused (R353), or
allowed. -/
def lineCheck (s : State) (ctx line : Nat) (write : Bool) : Option Got × State :=
  let a := line * 128
  if !s.coherent a || s.retired (a / 2 ^ 21) then (some .unmapped, s)
  else if !s.ownCheck ctx (a / 2 ^ 21) write then (some .refused, s.counter Reg.COH_DENY_CNT.COUNT line)
  else (none, s)

/-- A local request for a line homed on base die `d` (R345, R352, R362), made when a tile's access is attempted: it is checked at the
home; it waits while the line is being served or requests wait for it, or while a holder's answer is awaited; a miss brings the line
into the home portion. The access is attempted again when the request has ended (Log 32). -/
def localAvail (s : State) (d line ctx : Nat) (excl : Bool) : Avail :=
  if s.coh.heldGranules.contains (line * 128 / 2 ^ 21) then .wait s
  else if s.coh.spoiled.contains (0x20 + d, line) then
    .spoiled { s with coh := { s.coh with spoiled := s.coh.spoiled.erase (0x20 + d, line) } }
  else
    match s.lineCheck ctx line excl with
    | (some _, s) => .refused s
    | (none, s) =>
      let m : Msg := { kind := if excl then .rdM else .rdS, src := BitVec.ofNat 6 (0x20 + d), dst := BitVec.ofNat 6 (0x28 + d), txn := 0,
                       line := BitVec.ofNat 45 line, ctx := BitVec.ofNat 16 ctx }
      let mine (r : Msg) : Bool := s.isLocal r && (r.kind == .rdM || r.kind == m.kind)
      let waiting := AMap.getD s.coh.waiting line []
      let credit := decide (s.creditsUsed (0x20 + d) d < s.creditLimit (0x20 + d) d)
      if waiting.any mine || (s.serve? line).any fun v => mine v.req then .wait s
      else if (s.serve? line).isSome || !waiting.isEmpty then
        if credit then
          let s := s.creditTake (0x20 + d) d 0
          .wait { s with coh := { s.coh with waiting := AMap.put s.coh.waiting line (waiting ++ [m]) } }
        else .wait s
      else if (if excl then !(s.holders line).isEmpty else (s.dirOf line).owner.isSome) then
        (if credit then .wait ((s.creditTake (0x20 + d) d 0).take m) else .wait s)
      else
        match s.copy? line with
        | some (l, _) =>
          if s.coh.badHome.contains line then .spoiled ((s.counter Reg.COH_UNC_CNT.COUNT line).homeRead 0 line).2
          else .ready { st := if excl then .m else .s, data := l, ctx := ctx }
        | none =>
          match s.dramRead 0 line with
          | (some l, s) => .wait (s.homePut line l false)
          | (none, s) => .spoiled s

/-- The line at the L2 of base die `d` for a load of its tiles, or with ownership for a store or an atomic (R346). -/
def l2Avail (s : State) (d line ctx : Nat) (excl : Bool) : Avail :=
  if s.homeOf line = d then s.localAvail d line ctx excl else s.avail (0x20 + d) line ctx excl

/-- The line held in M at the L2 of base die `d` takes bytes; a line homed there takes them in its home portion (R346, R362). -/
def l2Put (s : State) (d line : Nat) (c : CLine) (data : Line) : State :=
  if s.homeOf line = d then s.homeWrite line data else s.setCline (0x20 + d) line { c with st := .m, data := data }

/-- A unit makes a local request at its own base die's home: checked, then taken (R345, R352, R353). -/
def unitLocal (s : State) (u : UnitReq) (ctx : Nat) : State :=
  let h := s.homeOf u.line
  match s.lineCheck ctx u.line (u.kind != .rdCur) with
  | (some g, s) => s.unitGets g
  | (none, s) =>
    if (s.serve? u.line).isSome || s.creditLimit u.agent h ≤ s.creditsUsed u.agent h then s
    else
      (s.creditTake u.agent h 0).take
        { kind := u.kind, src := BitVec.ofNat 6 u.agent, dst := BitVec.ofNat 6 (0x28 + h), txn := 0, line := BitVec.ofNat 45 u.line
          ctx := BitVec.ofNat 16 ctx }

/-- A unit's request leaves through its agent, a write with its data (R345, R350); an address that nothing is mapped at takes none
(R317). -/
def unitSend (s : State) (u : UnitReq) (ctx : Nat) : State :=
  if !s.coherent (u.line * 128) || s.retired (u.line * 128 / 2 ^ 21) then s.unitGets .unmapped
  else
    match s.sendReq u.kind u.agent u.line ctx with
    | none => s
    | some (t, s) =>
      let s : State := { s with coh := { s.coh with unit := some { u with txn := t } } }
      if u.kind == .rdCur then s
      else
        s.send { kind := .wbData, src := BitVec.ofNat 6 u.agent, dst := BitVec.ofNat 6 (0x28 + s.homeOf u.line), txn := BitVec.ofNat 12 t,
                 line := BitVec.ofNat 45 u.line, data := u.data, mask := u.mask }

/-- A unit's request and everything that follows of it; a request that gets no answer, because no route leads to the line's home or a
holder (R451), brings and writes nothing (Log 22). -/
def unitAsk (s : State) (u : UnitReq) (ctx : Nat) : Got × State :=
  let s : State := { s with coh := { s.coh with unit := some u } }
  let s := if u.agent = 0x20 + s.homeOf u.line then s.unitLocal u ctx else s.unitSend u ctx
  let s := s.exchangeLine u.line
  (((s.coh.unit.bind (·.got)).getD .bad), { s with coh := { s.coh with unit := none } })

/-- The copy that a unit's own L2 holds of a line, for an access of context `ctx`; another context's access is checked first (R346, R354).
The line has settled. -/
def ownCopy (s : State) (ag line ctx : Nat) (excl : Bool) : Avail :=
  match s.cline ag line with
  | none => .wait s
  | some c =>
    if excl && c.st != .m && c.st != .e then .wait s
    else if c.bad || c.ctx = ctx then s.avail ag line ctx excl
    else
      match s.avail ag line ctx excl with
      | .wait s => (s.exchangeLine line).avail ag line ctx excl
      | r => r

/-- A unit's read of a line through agent `ag` in class `cls`: from its own L2's copy, else by RdCur (R346, R362). -/
def readLine (s : State) (cls ctx line : Nat) (ag : Nat := 0x24) : Got × State :=
  let s := s.exchangeLine line
  match s.ownCopy ag line ctx false with
  | .ready c => (.data c.data, s)
  | .refused s => (.refused, s)
  | .spoiled s => (.bad, s)
  | .wait s => s.unitAsk { agent := ag, kind := .rdCur, line := line, cls := cls } ctx

/-- A unit's write of a line under a mask through agent `ag`; none where it was performed. A line that its L2 holds in M or E is written in
place; another copy there is dropped first, and WrFull or WrPart follows (R346). `tile` is the tile that writes, whose own pocket cache
is not told (R347), and `core` says that its control core does, whose reservation stays (R404). -/
def writeLine (s : State) (ctx line : Nat) (l : Line) (mask : BitVec 128) (tile : Option Nat := none) (core : Bool := false)
    (ag : Nat := 0x24) : Option Got × State :=
  let s := s.exchangeLine line
  match s.ownCopy ag line ctx true with
  | .ready c =>
    let s := s.setCline ag line { c with st := .m, data := lineMerge c.data l mask }
    (none, (s.breakReservations line (if core then tile else none)).dieInvalidate (ag - 0x20) line tile)
  | .refused s => (some .refused, s)
  | .spoiled s => (some .bad, s)
  | .wait s =>
    let s := match s.replaceLine ag line with
      | some s => s.exchangeLine line
      | none => s
    match s.unitAsk { agent := ag, kind := if mask == BitVec.allOnes 128 then .wrFull else .wrPart, line := line, data := l, mask := mask
                      tile := tile, core := core } ctx with
    | (.data _, s) => (none, s)
    | (g, s) => (some g, s)

/-- Losses of a unit's transfer: bytes not written to a destination, and uncorrectable lines (R138, R317, R375, R590). -/
structure Loss where
  dropped : Nat := 0
  errs : Nat := 0
  deriving DecidableEq, Repr

/-- The lines that the `n` bytes from `a` touch: line, first byte in it, bytes in it. -/
def lineSpans (a n : Nat) : List (Nat × Nat × Nat) :=
  (List.range ((a % 128 + n + 127) / 128)).map fun i =>
    let line := a / 128 + i
    let lo := max a (line * 128)
    (line, lo - line * 128, min (a + n) (line * 128 + 128) - lo)

/-- A unit's read of `n` bytes of coherent memory; a byte that could not be read is none. -/
def readBytes (s : State) (cls ctx a n : Nat) (ag : Nat := 0x24) : List (Option Byte) × Loss × State :=
  if n = 0 then ([], {}, s)
  else
    (lineSpans a n).foldl (fun (acc : List (Option Byte) × Loss × State) sp =>
      let (bs, loss, s) := acc
      match s.readLine cls ctx sp.1 ag with
      | (.data l, s) =>
        (bs ++ (List.range sp.2.2).map fun i => some (l.extractLsb' (8 * (sp.2.1 + i)) 8), loss, s)
      | (.bad, s) => (bs ++ List.replicate sp.2.2 none, { dropped := loss.dropped + sp.2.2, errs := loss.errs + 1 }, s)
      | (_, s) => (bs ++ List.replicate sp.2.2 none, { loss with dropped := loss.dropped + sp.2.2 }, s)) ([], {}, s)

/-- A unit's write of bytes to coherent memory; a byte that is none is not written (it is counted where it was lost). -/
def writeBytes (s : State) (ctx a : Nat) (bs : List (Option Byte)) (tile : Option Nat := none) (ag : Nat := 0x24) : Loss × State :=
  if bs.isEmpty then ({}, s)
  else
    (lineSpans a bs.length).foldl (fun (acc : Loss × State) sp =>
      let (loss, s) := acc
      let part := (bs.drop (sp.1 * 128 + sp.2.1 - a)).take sp.2.2
      let lm := part.zipIdx.foldl (fun (lm : Line × Nat) p =>
        match p.1 with
        | some b => (lineSetByte lm.1 (sp.2.1 + p.2) b, lm.2 + 2 ^ (sp.2.1 + p.2))
        | none => lm) (0, 0)
      let n := (part.filter Option.isSome).length
      if n = 0 then (loss, s)
      else
        match s.writeLine ctx sp.1 lm.1 (BitVec.ofNat 128 lm.2) tile false ag with
        | (none, s) => (loss, s)
        | (some _, s) => ({ loss with dropped := loss.dropped + n }, s)) ({}, s)

end State

end Sys2Proof.Machine
end

