-- ==== Sys2Proof/Machine/Translate.lean ====
section
/-! DEFINITION. Address forms (chapter 12): contexts, segments, page tables, the translation caches, page faults, and the
transfers of the units that address memory through segments, with their accesses to host leaves and outbound windows. -/

namespace Sys2Proof.Machine

/-- Who makes an access: the unit, and what its descriptor holds for the whole of its life (R371). -/
structure Who where
  w : Waiter
  ctx : Nat
  snap : CtxSnap
  queue : Nat
  seq : Nat
  deriving DecidableEq, Repr

/-- ACCESS codes of Table 12.10: what an access needs of a leaf (R386). -/
def accLoad : Nat := 1
def accStore : Nat := 2
def accFetch : Nat := 4
def accAtomic : Nat := 11
def accLr : Nat := 9
def accSc : Nat := 10

/-- The structure of Table 12.8 that serves a unit's data accesses. -/
def tlbOf : Waiter → TlbId
  | .core t => .dtlb t
  | .group t _ _ => .thread t
  | .fill t | .store t => .engine t
  | .mover _ | .microcode _ _ => .hub

/-- Entries of each structure (Table 12.8). -/
def tlbSize : TlbId → Nat
  | .itlb _ => 16 | .dtlb _ => 32 | .thread _ => 64 | .engine _ => 32 | .hub => 512

/-- The walk cache that serves a structure: that of the tile's base die, or the hub's. -/
def walkDie : TlbId → Nat
  | .itlb t | .dtlb t | .thread t | .engine t => t / 64
  | .hub => 4

/-- The unit of an outstanding access (Table 21.2). -/
def accUnitOf : Waiter → AccUnit
  | .core t => .core t
  | .group t b g => .thread t b g
  | .fill t => .fill t
  | .store t => .store t
  | .mover m => .mover m
  | .microcode _ _ => .hubIo

/-- The agent that issues a unit's requests (R345, Table 11.1): the caching agent of a tile's or a mover's base die, or the hub's. -/
def agentOf : Waiter → Nat
  | .core t | .group t _ _ | .fill t | .store t => 0x20 + t / 64
  | .mover m => if m < 16 then 0x24 else 0x20 + (m - 16) / 4
  | .microcode _ _ => 0x24

/-- The tile whose unit writes (R347). -/
def writerOf : Waiter → Option Nat
  | .core t | .group t _ _ | .fill t | .store t => some t
  | .mover _ | .microcode _ _ => none

/-- SOURCE of Table 12.10. -/
def faultSource : Waiter → Nat
  | .core _ => 0 | .group _ _ _ => 1 | .fill _ => 2 | .store _ => 3 | .mover _ => 4 | .microcode _ _ => 5

/-- UNIT of Table 12.10; none for a fetch of hub microcode, which runs on no mover that could be named. -/
def faultUnit : Waiter → Option Nat
  | .core t | .fill t | .store t | .group t _ _ => some t
  | .mover m => some m
  | .microcode _ _ => none

/-- GROUP and BLOCK of Table 12.10. -/
def faultGroup : Waiter → Nat × Nat
  | .group _ b g => (g, b)
  | _ => (0, 0)

/-- What R385 and R386 make of an entry with value `v` at a level, for an access. -/
inductive PteClass where
  | next (table : Nat)
  | leaf
  | fault (cause : Nat)
  deriving DecidableEq, Repr

def pteClass (v level access : Nat) : PteClass :=
  let w := v.testBit 2
  let r := v.testBit 1
  let x := v.testBit 3
  let run := v / 2 ^ 7 % 8
  if !v.testBit 0 then .fault 1
  else if v / 2 ^ 10 % 4 ≠ 0 then .fault 3
  else if r || w || x then
    if (w && !r) || level == 3 || 4 < run || (level == 1 && v / 2 ^ 12 % 2 ^ 9 != 0)
        || (level == 2 && v / 2 ^ 12 % 2 ^ 18 != 0) || (!v.testBit 4 && v / 2 ^ 52 != 0) then .fault 3
    else if ((access.testBit 0 || access.testBit 3) && !r) || ((access.testBit 1 || access.testBit 3) && !w)
        || (access.testBit 2 && !x) then .fault 2
    else .leaf
  else if level = 0 || v / 2 ^ 4 % 2 ^ 6 ≠ 0 || v / 2 ^ 52 ≠ 0 then .fault 3
  else .next (v / 2 ^ 12 % 2 ^ 40 * 2 ^ 12)

/-- Bytes that a leaf maps, with its run. -/
def leafSize (v level : Nat) : Nat := 2 ^ (12 + 9 * level + v / 2 ^ 7 % 8)

/-- The address that a leaf gives to virtual address `va`: in a run, through the run's aligned range (R387). -/
def leafAddr (v level va : Nat) : Nat := v / 2 ^ 12 * 2 ^ 12 / leafSize v level * leafSize v level + va % leafSize v level

/-- How a walk ends (R386). -/
inductive WalkEnd where
  /-- A leaf: the entry, its level, and the address that it gives. -/
  | leaf (pte level addr : Nat)
  | fault (cause level pte : Nat)
  | bad
  /-- An entry lies in a granule that is held while it changes hands (R379). -/
  | held
  deriving DecidableEq, Repr

/-- A translated access: the address with HOST and RATTR of the leaf; a stall for a page fault; a resume that failed the access
(R392); or an entry that cannot be corrected. -/
inductive Xlat where
  | ok (addr : Nat) (host : Bool) (rattr : Nat)
  | stall
  | failed
  | bad
  deriving DecidableEq, Repr

/-- A contiguous part of a transfer, by where its bytes lie. -/
inductive Piece where
  | mem (a n : Nat)
  | flash (a n : Nat)
  | host (bus n : Nat)
  | port (a n : Nat)
  /-- No access is made: unmapped, refused or failed. -/
  | lost (n : Nat)
  /-- The walk met an entry that cannot be corrected. -/
  | bad (n : Nat)
  deriving DecidableEq, Repr

/-- A paged leaf in the flash window carries parcel traffic alone (R383). -/
def isFlash : Piece → Bool
  | .flash _ _ => true
  | _ => false

def Piece.size : Piece → Nat
  | .mem _ n | .flash _ n | .host _ n | .port _ n | .lost n | .bad n => n

/-- The ranges of `n` bytes from `va` that lie in one 4 KiB page each: first address and length. -/
def pageSpans (va n : Nat) : List (Nat × Nat) :=
  (List.range ((va % 4096 + n + 4095) / 4096)).map fun i =>
    let p := va / 4096 + i
    let lo := max va (p * 4096)
    (lo, min (va + n) (p * 4096 + 4096) - lo)

namespace State

/-! ## Contexts -/

/-- A context's settings; those of 0x0000 never change (R371). -/
def ctxOf (s : State) (c : Nat) : Ctx := if c = 0 then {} else AMap.getD s.xlat.ctxs c {}

/-- The context is open (R367). -/
def ctxOpen (s : State) (c : Nat) : Bool := c == 0 || s.xlat.ctxs.any fun p => p.1 == c

def onCtx (s : State) (c : Nat) (f : Ctx → Ctx) : State :=
  { s with xlat := { s.xlat with ctxs := AMap.put s.xlat.ctxs c (f (s.ctxOf c)) } }

/-- A sealed context, one that tamper has broken among them (R563, R572). -/
def sealedCtx (s : State) (c : Nat) : Bool := (s.ctxOf c).sealing == .sealed || (s.ctxOf c).sealing == .broken

/-- What a descriptor takes of its context at its admission or dispatch (R371). -/
def snapOf (s : State) (c : Nat) : CtxSnap :=
  let x := s.ctxOf c
  { root := x.root, ptctx := x.ptctx, pasid := x.pasid, fring := x.fring, ftimeout := x.ftimeout }

/-- The present round (R46). -/
def round (s : State) : Nat := s.get Reg.RND_NUM.NUM

/-! ## Segments -/

/-- The check of R383 on `n` bytes at a segment address: none is a limit violation; else whether the segment is paged, its tier,
and the physical or virtual address of the first byte. -/
def segCheck (s : State) (c addr n : Nat) (write parcel : Bool) : Option (Bool × Nat × Nat) :=
  let off := addr % 2 ^ 48
  match (s.ctxOf c).segs.find? fun p => p.1 == addr / 2 ^ 60 % 16 with
  | none => none
  | some (_, g) =>
    let a := (g.pbase + (off - g.base)) % 2 ^ 64
    if addr / 2 ^ 48 % 2 ^ 12 ≠ 0 || off < g.base || g.limit < off + n || (write && !g.w) || (!write && !g.r)
        || (g.tier == 2 && !g.paged && !parcel) || (g.paged && 2 ^ 48 < a + n) then none
    else some (g.paged, g.tier, a)

/-! ## Page-table walks -/

/-- A granule that the bytes from `a` touch is held while it changes hands (R379): the access waits. -/
def granuleHeld (s : State) (a n : Nat) : Bool :=
  n != 0 && s.coh.heldGranules.any fun g => decide (a / 2 ^ 21 ≤ g) && decide (g ≤ (a + n - 1) / 2 ^ 21)

/-- One read of a walk (R386): RdCur of class P0 with the context's PTCTX, through the agent of the walker's die (R345). -/
def pteRead (s : State) (die ptctx a : Nat) : Option (Option Nat) × State :=
  if !s.coherent a || s.granuleHeld a 8 then (some none, s)
  else
    match s.readLine 0 ptctx (a / 128) (0x20 + die) with
    | (.data l, s) => (some (some ((l >>> (8 * (a % 128))).toNat % 2 ^ 64)), s)
    | (.bad, s) => (none, s)
    | (_, s) => (some none, s)

/-- Software's assertion about the run of a leaf at `a` (R387): every entry of the run is a leaf with the same low bits, and they
map one contiguous, aligned range. -/
def runHolds (s : State) (a v level : Nat) : Bool :=
  let n := 2 ^ (v / 2 ^ 7 % 8)
  let first := a / (8 * n) * (8 * n)
  let unit := 2 ^ (9 * level)
  let base := (v / 2 ^ 12) / (n * unit) * (n * unit)
  (List.range n).all fun i =>
    let e := first + 8 * i
    match (s.lineValue 0 (e / 128)).1 with
    | some l =>
      let x := (l >>> (8 * (e % 128))).toNat % 2 ^ 64
      x % 2 ^ 12 == v % 2 ^ 12 && x / 2 ^ 12 == base + i * unit
    | none => false

/-- A non-leaf entry goes into the walk cache of `die` (R388, Table 12.8). -/
def cacheWalk (s : State) (die ctx level va table : Nat) : State :=
  let e : WalkEntry := { die := die, ctx := ctx, level := level, tag := va % 2 ^ 48 / 2 ^ (12 + 9 * (level + 1)), table := table }
  let mine := e :: s.xlat.walks.filter fun x => x.die == die && x != e
  { s with xlat := { s.xlat with
      walks := mine.take (if die = 4 then 256 else 1024) ++ s.xlat.walks.filter fun x => x.die != die } }

/-- The walk from the table of a level down (R386). -/
def walkFrom (s : State) (die ctx ptctx va access : Nat) (level table : Nat) : WalkEnd × State :=
  let a := table + 8 * (va / 2 ^ (12 + 9 * level) % 512)
  match s.pteRead die ptctx a with
  | (none, s) => (.bad, s)
  | (some none, s) => if s.granuleHeld a 8 then (.held, s) else (.fault 4 level 0, s)
  | (some (some v), s) =>
    match pteClass v level access with
    | .fault c => (.fault c level v, s)
    | .leaf =>
      if v / 2 ^ 7 % 8 = 0 || s.runHolds a v level then (.leaf v level (leafAddr v level va), s)
      else (.leaf v level (Config.falseRun va v), s)
    | .next t =>
      match level with
      | 0 => (.fault 3 0 v, s)
      | l + 1 => (s.cacheWalk die ctx l va t).walkFrom die ctx ptctx va access l t

/-- The lowest table of the path that the walk cache of `die` holds. -/
def walkCached (s : State) (die ctx va : Nat) : Option (Nat × Nat) :=
  [0, 1, 2].findSome? fun l =>
    (s.xlat.walks.find? fun e => e.die == die && e.ctx == ctx && e.level == l && e.tag == va % 2 ^ 48 / 2 ^ (12 + 9 * (l + 1))).map
      fun e => (l, e.table)

/-- A walk (R386): a ROOT of 0 faults with cause 0x01 at level 3. -/
def walk (s : State) (die : Nat) (who : Who) (va access : Nat) : WalkEnd × State :=
  if who.snap.root = 0 then (.fault 1 3 0, s)
  else
    match s.walkCached die who.ctx va with
    | some (l, t) => s.walkFrom die who.ctx who.snap.ptctx va access l t
    | none => s.walkFrom die who.ctx who.snap.ptctx va access 3 who.snap.root

/-- A leaf goes into a translation cache, most recently used first (R388). -/
def cacheLeaf (s : State) (e : TlbEntry) : State :=
  let mine := e :: s.xlat.tlb.filter fun x => x.id == e.id && x != e
  { s with xlat := { s.xlat with tlb := mine.take (tlbSize e.id) ++ s.xlat.tlb.filter fun x => x.id != e.id } }

/-- The translation of a virtual address through one structure of Table 12.8: a cached leaf, or a walk whose leaf is then
cached; a leaf of a run that does not hold is not. -/
def lookup (s : State) (id : TlbId) (who : Who) (va access : Nat) : WalkEnd × State :=
  let page := va / 4096
  match s.xlat.tlb.find? fun e => e.id == id && e.ctx == who.ctx && e.page ≤ page && page < e.page + e.pages with
  | some e =>
    match pteClass e.pte e.level access with
    | .leaf => (.leaf e.pte e.level (leafAddr e.pte e.level va), s.cacheLeaf e)
    | .fault c => (.fault c e.level e.pte, s)
    | .next _ => (.fault 3 e.level e.pte, s)
  | none =>
    match s.walk (walkDie id) who va access with
    | (.leaf v l a, s) =>
      if a = leafAddr v l va then
        let n := leafSize v l / 4096
        (.leaf v l a, s.cacheLeaf { id := id, ctx := who.ctx, page := page / n * n, pages := n, pte := v, level := l })
      else (.leaf v l a, s)
    | r => r

/-! ## Page faults -/

/-- Fault ring `f`. -/
def fring (s : State) (f : Nat) : FRing := AMap.getD s.xlat.rings f {}
def onFRing (s : State) (f : Nat) (g : FRing → FRing) : State :=
  { s with xlat := { s.xlat with rings := AMap.put s.xlat.rings f (g (s.fring f)) } }

/-- A unit has an access with an outstanding fault, or with one that no room is left for (R390, R391). -/
def stalled (s : State) (w : Waiter) : Bool :=
  (s.xlat.faults.any fun f => f.joined.any fun j => j.w == w) || s.xlat.beyond.any fun r => r.by_.w == w

/-- The next FAULTID of a ring that is not outstanding there (R389). -/
def nextFaultId (s : State) (ring : Nat) : Nat :=
  let start := (s.fring ring).nextId
  let used := (s.xlat.faults.filter fun f => f.ring == ring).map (·.id)
  match (List.range 1025).find? fun i => !used.contains ((start + i) % 65536) with
  | some i => (start + i) % 65536
  | none => start

/-- Forms a page fault, or joins an outstanding one of the same context, page and cause (R389, R390); beyond either limit the access
stalls until room is freed. A fault of hub microcode has a free value as its UNIT (Log 126). -/
def pageFault (s : State) (who : Who) (va cause access level pte : Nat) : State :=
  let mine (r : Resumed) : Bool := r.by_.w == who.w && r.page == va / 4096 && r.by_.access == access
  let first := match s.xlat.resumed.find? mine with
    | some r => r.by_.first
    | none => s.round
  let j : Stalled := { w := who.w, access := access, queue := who.queue, seq := who.seq, first := first }
  let s : State := { s with xlat := { s.xlat with resumed := s.xlat.resumed.filter fun r => !mine r } }
  let beyond : State := { s with xlat := { s.xlat with beyond := s.xlat.beyond ++ [{ by_ := j, page := va / 4096 }] } }
  match s.xlat.faults.find? fun f => f.ctx == who.ctx && f.va / 4096 == va / 4096 && f.cause == cause with
  | some f =>
    if 1024 < f.joined.length then beyond
    else
      { s with xlat := { s.xlat with
          faults := s.xlat.faults.map fun x => if x = f then { x with joined := x.joined ++ [j] } else x } }
  | none =>
    let ring := who.snap.fring
    if 1024 ≤ (s.xlat.faults.filter fun f => f.ring == ring).length then beyond
    else
      let id := s.nextFaultId ring
      let (unit, s) := match faultUnit who.w with
        | some u => (u, s)
        | none => s.draw 8
      let f : PFault := { ring := ring, id := id, ctx := who.ctx, va := va, cause := cause, access := access, level := level,
                          pte := pte, who := who.w, queue := who.queue, seq := who.seq, postmark := s.now, first := first,
                          age := (s.round + 2 ^ 48 - first) % 2 ^ 48, unit := unit
                          joined := [j] }
      let s := s.onFRing ring fun r => { r with nextId := (id + 1) % 65536, waiting := r.waiting ++ [f] }
      { s with xlat := { s.xlat with faults := s.xlat.faults ++ [f] } }

/-- Room has been freed: the accesses beyond a limit are made again (R390). -/
def retryOver (s : State) : State :=
  { s with xlat := { s.xlat with resumed := s.xlat.resumed ++ s.xlat.beyond, beyond := [] } }

/-- The unit has made its access: what R392 and R393 kept for it goes. -/
def resumeDone (s : State) (w : Waiter) : State :=
  { s with xlat := { s.xlat with resumed := s.xlat.resumed.filter fun r => r.by_.w != w } }

/-- The unit has made its access to some pages: what R392 and R393 kept for it there goes. -/
def resumePages (s : State) (w : Waiter) (access : Nat) (pages : List Nat) : State :=
  { s with xlat := { s.xlat with
      resumed := s.xlat.resumed.filter fun r => !(r.by_.w == w && r.by_.access == access && pages.contains r.page) } }

/-- Translates an access of a unit to one page, through the structure `id`. -/
def translate (s : State) (id : TlbId) (who : Who) (va access : Nat) : Xlat × State :=
  if s.stalled who.w then (.stall, s)
  else if s.xlat.resumed.any fun r => r.by_.w == who.w && r.page == va / 4096 && r.by_.access == access && r.fail then (.failed, s)
  else
    match s.lookup id who va access with
    | (.leaf v _ a, s) => (.ok a (v.testBit 4) (v / 2 ^ 5 % 4), s)
    | (.bad, s) => (.bad, s)
    | (.held, s) => (.stall, s)
    | (.fault c l p, s) => (.stall, s.pageFault who va c access l p)

/-! ## Outbound windows and the service host -/

/-- Port and bus address of an outbound physical address (R532). -/
def portOf (s : State) (a : Nat) : Option (Nat × Nat) :=
  if outboundBase ≤ a && a < 0x2_8000_0000_0000 then
    let p := (a - outboundBase) / 2 ^ 47
    some (p, (s.get (Reg.OB_XLAT.BUS p) + (a - outboundBase) % 2 ^ 47) % 2 ^ 64)
  else none

/-- The check of a context's request to an outbound window (R533). -/
def windowCheck (s : State) (c a n : Nat) (write : Bool) : Bool :=
  c == 0 || !s.locked || (List.range 64).any fun i =>
    s.flag (Reg.OB_WCTL.EN i) && s.get (Reg.OB_WBASE.PAGE i) * 4096 ≤ a
      && decide (a + n ≤ s.get (Reg.OB_WLAST.PAGE i) * 4096 + 4096) && s.get (Reg.OB_WCTL.CTXID i) == c
      && (if write then s.flag (Reg.OB_WCTL.W i) else s.flag (Reg.OB_WCTL.R i))

/-- Service-host memory can be reached: the link is up and the device is attached (R525, R526). -/
def hostUp (s : State) : Bool := s.flag Reg.HP_STAT.LINKUP && !s.flag Reg.HP_STAT.DETACHED

/-- An access leaves its unit for a target beyond the coherent memory, and its timing starts (R412). -/
def issue (s : State) (x : Access) : State :=
  { s with order := { s.order with
      out := s.order.out ++ [{ x with id := s.order.nextId, issued := s.order.timer, port := if x.host.isSome then none else s.portOf x.addr }], nextId := s.order.nextId + 1 } }

/-- The descriptor `(q, seq)` changed by `f`. -/
def onFlight (s : State) (q seq : Nat) (f : Flight → Flight) : State :=
  { s with sorter := { s.sorter with
      flights := s.sorter.flights.map fun x => if x.queue == q && x.seq == seq then f x else x } }

def flight? (s : State) (q seq : Nat) : Option Flight := s.sorter.flights.find? fun x => x.queue == q && x.seq == seq

/-- DROPPED and ERRCNT of a descriptor raised (R590). -/
def addLoss (s : State) (q seq : Nat) (l : Loss) : State :=
  if l.dropped = 0 && l.errs = 0 then s
  else s.onFlight q seq fun x => { x with dropped := x.dropped + l.dropped, errcnt := x.errcnt + l.errs }

/-- The pieces of `n` bytes that a unit reads or writes at a physical address. -/
def pieceAt (s : State) (c a n : Nat) (write : Bool) : Piece :=
  if a < deviceBase then .mem a n
  else if flashBase ≤ a && a < outboundBase then .flash a n
  else if (s.portOf a).isSome && s.windowCheck c a n write then .port a n
  else .lost n

/-- The pieces of a virtual range, page by page; none while a page stalls. -/
def pagePieces (s : State) (who : Who) (access : Nat) : List (Nat × Nat) → Option (List Piece) × State
  | [] => (some [], s)
  | (va, n) :: rest =>
    match s.translate (tlbOf who.w) who va access with
    | (.stall, s) => (none, s)
    | (x, s) =>
      let p := match x with
        | .ok a true _ => Piece.host a n
        | .ok a false _ => s.pieceAt who.ctx a n (access.testBit 1)
        | .bad => .bad n
        | _ => .lost n
      match s.pagePieces who access rest with
      | (some ps, s) => (some (p :: ps), s)
      | (none, s) => (none, s)

/-- How a transfer through a segment stands before its bytes move. -/
inductive Pieces where
  | ready (ps : List Piece) (s : State)
  | wait (s : State)
  | limit
  deriving DecidableEq, Repr

/-- A piece in coherent memory or in the flash window lies in a held granule. -/
def pieceHeld (s : State) : Piece → Bool
  | .mem a n | .flash a n => s.granuleHeld a n
  | _ => false

/-- The pieces of `n` bytes at a segment address (R383, R384). A transfer of no bytes makes no access; one that reaches a held granule
waits (R379). -/
def segPieces (s : State) (who : Who) (addr n : Nat) (write : Bool) (parcel : Bool := false) : Pieces :=
  if n = 0 then .ready [] s
  else
    match s.segCheck who.ctx addr n write parcel with
    | none => .limit
    | some (false, _, a) =>
      let p := s.pieceAt who.ctx a n write
      if s.pieceHeld p then .wait s else .ready [p] s
    | some (true, _, a) =>
      match s.pagePieces who (if write then accStore else accLoad) (pageSpans a n) with
      | (some ps, s) => if !parcel && ps.any isFlash then .limit else if ps.any s.pieceHeld then .wait s else .ready ps s
      | (none, s) => .wait s

/-- The outstanding or answered read of a unit at an outbound address. -/
def portAccess (s : State) (who : Who) (a n : Nat) : Option Access :=
  s.order.out.find? fun x => x.unit == accUnitOf who.w && x.addr == a && x.bytes == n && !x.write

/-- Reads of outbound windows leave for those pieces that have none yet. -/
def askPorts (s : State) (who : Who) : List Piece → State
  | [] => s
  | .port a n :: rest =>
    let s := match s.portAccess who a n with
      | some _ => s
      | none => s.issue { id := 0, unit := accUnitOf who.w, write := false, dev := false, addr := a, bytes := n, ctx := who.ctx,
                          desc := some (who.queue, who.seq), tout := s.timeoutOf a false }
    s.askPorts who rest
  | _ :: rest => s.askPorts who rest

/-- Every outbound read of the pieces has been answered or abandoned. -/
def portsReady (s : State) (who : Who) (ps : List Piece) : Bool :=
  ps.all fun p => match p with
    | .port a n => match s.portAccess who a n with
      | some x => x.got.isSome
      | none => false
    | _ => true

/-- The bytes of one piece: from coherent memory in class `cls`, from service-host memory unless detached (Table 18.3), or those
that a root port brought. -/
def readPiece (s : State) (cls : Nat) (who : Who) : Piece → List (Option Byte) × Loss × State
  | .mem a n => s.readBytes cls who.ctx a n (agentOf who.w)
  | .host bus n =>
    if s.hostUp then ((s.hostBytes bus n).map some, {}, s) else (List.replicate n none, { dropped := n }, s)
  | .port a n =>
    match s.portAccess who a n with
    | some x =>
      let bs := x.got.getD (List.replicate n none)
      (bs, { dropped := (bs.filter Option.isNone).length }, { s with order := { s.order with out := s.order.out.erase x } })
    | none => (List.replicate n none, { dropped := n }, s)
  | .flash _ n | .lost n => (List.replicate n none, { dropped := n }, s)
  | .bad n => (List.replicate n none, { dropped := n, errs := 1 }, s)

def readPieces (s : State) (cls : Nat) (who : Who) (ps : List Piece) : List (Option Byte) × Loss × State :=
  ps.foldl (fun (acc : List (Option Byte) × Loss × State) p =>
    let (bs, l, s) := acc
    let (b, l', s) := s.readPiece cls who p
    (bs ++ b, { dropped := l.dropped + l'.dropped, errs := l.errs + l'.errs }, s)) ([], {}, s)

/-- Number of the command whose writes a store engine is making: the one at the head of its queue (R133). -/
def cmdNumber (s : State) : Waiter → Nat
  | .store t => (s.tile t).st.ended + (s.tile t).st.started.length
  | _ => 0

/-- A data write as it leaves its unit for a port. -/
def dataAccess (s : State) (who : Who) (a : Nat) (bs : List (Option Byte)) : Access :=
  { id := 0, unit := accUnitOf who.w, write := true, dev := false, addr := a, bytes := (bs.filter Option.isSome).length, ctx := who.ctx
    data := bs.map fun b => b.getD 0, desc := some (who.queue, who.seq), cmd := s.cmdNumber who.w }

/-- A data write of descriptor `(q, seq)` has been carried by a port, up to an address (R524). -/
def usePort (s : State) (q seq port last : Nat) : State :=
  s.onFlight q seq fun f => { f with ports := AMap.put f.ports port last }

/-- Bytes of a data write to the service host: posted, or dropped at once and counted while detached (R523, Table 18.3). -/
def hostData (s : State) (who : Who) (bus : Nat) (bs : List (Option Byte)) : Loss × State :=
  let n := (bs.filter Option.isSome).length
  if s.hostUp then
    let s := bs.zipIdx.foldl (fun s p => match p.1 with
      | some b => s.hostWrite (bus + p.2) [b]
      | none => s) s
    let s := if n = 0 then s else s.issue { s.dataAccess who bus bs with host := some bus, tout := s.timeoutOf 0 true }
    ({}, s.usePort who.queue who.seq 4 (bus + bs.length - 1))
  else ({ dropped := n }, s.bump Reg.HP_DATADROP_CNT.COUNT n)

/-- The bytes of one piece written; a byte that is none is not written. -/
def writePiece (s : State) (who : Who) (p : Piece) (bs : List (Option Byte)) : Loss × State :=
  let n := (bs.filter Option.isSome).length
  match p with
  | .mem a _ => s.writeBytes who.ctx a bs (writerOf who.w) (agentOf who.w)
  | .host bus _ => s.hostData who bus bs
  | .port a _ =>
    if n = 0 then ({}, s)
    else
      let s := s.issue { s.dataAccess who a bs with tout := s.timeoutOf a false }
      ({}, s.usePort who.queue who.seq ((a - outboundBase) / 2 ^ 47) (a + bs.length - 1))
  | .flash _ _ | .lost _ => ({ dropped := n }, s)
  | .bad _ => ({ dropped := n, errs := 1 }, s)

def writePieces (s : State) (who : Who) : List Piece → List (Option Byte) → Loss × State
  | [], _ => ({}, s)
  | p :: rest, bs =>
    let (l, s) := s.writePiece who p (bs.take p.size)
    let (l', s) := s.writePieces who rest (bs.drop p.size)
    ({ dropped := l.dropped + l'.dropped, errs := l.errs + l'.errs }, s)

/-- The outcome of a unit's transfer: done; to be tried again, for a page fault or an outbound read is outstanding; or a limit
violation (R383). -/
inductive Bulk where
  | done (bs : List (Option Byte)) (s : State)
  | wait (s : State)
  | limit
  deriving DecidableEq, Repr

/-- A transfer of `n` bytes at a segment address has been made: what R392 and R393 kept for its pages goes. -/
def bulkResumed (s : State) (who : Who) (addr n : Nat) (write : Bool) : State :=
  match s.segCheck who.ctx addr n write false with
  | some (true, _, a) => s.resumePages who.w (if write then accStore else accLoad) ((pageSpans a n).map fun p => p.1 / 4096)
  | _ => s

/-- A unit's read of `n` bytes at a segment address, with its losses counted at the descriptor. -/
def bulkRead (s : State) (cls : Nat) (who : Who) (addr n : Nat) : Bulk :=
  match s.segPieces who addr n false with
  | .limit => .limit
  | .wait s => .wait s
  | .ready ps s =>
    if s.portsReady who ps then
      let (bs, l, s) := s.readPieces cls who ps
      .done bs ((s.addLoss who.queue who.seq l).bulkResumed who addr n false)
    else .wait (s.askPorts who ps)

/-- A unit's write of bytes at a segment address. -/
def bulkWrite (s : State) (who : Who) (addr : Nat) (bs : List (Option Byte)) : Bulk :=
  match s.segPieces who addr bs.length true with
  | .limit => .limit
  | .wait s => .wait s
  | .ready ps s =>
    let (l, s) := s.writePieces who ps bs
    .done bs ((s.addLoss who.queue who.seq l).bulkResumed who addr bs.length true)

end State

end Sys2Proof.Machine
end

