-- ==== Sys2Proof/Machine/Power.lean ====
section
/-! DEFINITION. Power (chapter 17): issue fractions and pauses, rail limits, the power cap, load hints, droop, supply dips that
recover, and temperatures. -/

namespace Sys2Proof.Machine

/-- Nominal voltage of a rail in mV (Table 17.1). -/
def railVolts (r : Nat) : Nat :=
  if r < 8 then 700 else if r < 13 then 750 else if r = 13 then 1100 else 1200

/-- Sum of a list. -/
def sumNat (l : List Nat) : Nat := l.foldl (· + ·) 0

/-- Tile of an element that a targeted test names, as compute die and number; a router stop's or router group's cluster instead. -/
def unitTiles : UnitRef → List (Nat × Nat)
  | .column d t _ _ | .lane d t _ | .tile d t | .bondGroup d t _ => [(d, t)]
  | .routerGroup d c _ | .router d c => (List.range 4).map fun i => (d.val, 4 * c.val + i)
  | _ => []

namespace State

def rail (s : State) (r : Nat) : RailSt := AMap.getD s.power.rails r {}

/-- Rail `r` changed by `f`; PW_RSTAT.FRAC reads 0 while it is paused. -/
def onRail (s : State) (r : Nat) (f : RailSt → RailSt) : State :=
  let x := f (s.rail r)
  { s with power := { s.power with rails := AMap.put s.power.rails r x } }.set (Reg.PW_RSTAT.FRAC r)
    (if x.paused then 0 else x.frac)

/-- Thermal fraction of die `d`: compute dies 0–7, base dies 8–11, the hub 12 (R510). -/
def thermal (s : State) (d : Nat) : Nat := AMap.getD s.power.thermal d 16


/-- A targeted test runs on the tile, which is unavailable meanwhile (Table 2.1). -/
def underTest (s : State) (t : Nat) : Bool :=
  s.repair.testing.any fun u => (unitTiles u).contains (t / 32, s.physTile t % 36)

/-- Effective fraction of a tile (R495), at most 8/16 during a supply dip (R507). -/
def effFrac (s : State) (t : Nat) : Nat :=
  let f := min (min (s.rail (t / 32)).frac (s.rail (8 + t / 64)).frac)
    (min (s.get Reg.PW_EST.G) (min (s.thermal (t / 32)) (s.thermal (8 + t / 64))))
  if s.flag Reg.PW_STAT.BROWN then min f 8 else f

/-- A pause is in force on a tile: of its rails, of the power cap, or of a supply dip (R499, R501, R507). -/
def tilePaused (s : State) (t : Nat) : Bool :=
  (s.rail (t / 32)).paused || (s.rail (8 + t / 64)).paused || s.power.capPause || s.flag Reg.PW_STAT.BROWN

/-- The present cycle within its frame of 16, aligned to node time (R495). -/
def frame (s : State) : Nat := (s.now % 4 * 4 + s.time.frac * 4 / (2 ^ 18 * 10 ^ 9)) % 16

/-- The present cycle is lost, for a unit that the limiter of rail `r` acts on and that is no tile: paused, or gated under the rail's
fraction and the hub's thermal fraction, at most 8/16 during a supply dip (R495, R499, R507, R510). -/
def railGated (s : State) (r : Nat) : Bool :=
  let f := if r = 12 then min (s.rail r).frac (s.thermal 12) else (s.rail r).frac
  (s.rail r).paused || decide ((if s.flag Reg.PW_STAT.BROWN then min f 8 else f) ≤ s.frame)

/-- The node-core clock in MHz: 3.2 GHz × f, at most half of it during a supply dip (R495, R507). -/
def nodeClock (s : State) : Nat :=
  let f := min (s.rail 12).frac (s.thermal 12)
  200 * (if s.flag Reg.PW_STAT.BROWN then min f 8 else f)

/-- A mover fed by rail `r` moves nothing in the present cycle (R495, R497, R507). -/
def moverPaused (s : State) (r : Nat) : Bool := s.railGated r || s.flag Reg.PW_STAT.BROWN

/-- The present cycle is lost to throttling on tile `t`: gated, paused, or one of every two while its cluster's clock is stretched
(R495, R496, R506). -/
def throttled (s : State) (t : Nat) : Bool :=
  s.tilePaused t || decide (s.effFrac t ≤ s.frame) ||
    ((s.rail (t / 32)).stretched.contains (s.physTile t % 36 / 4) && s.time.cycle % 2 == 1)

/-- A fraction is below 16/16 or a pause is in force (R503). -/
def anyThrottle (s : State) : Bool :=
  (List.range 16).any (fun r => (s.rail r).paused || decide ((s.rail r).frac < 16)) || decide (s.get Reg.PW_EST.G < 16)
    || (List.range 13).any (fun d => decide (s.thermal d < 16)) || s.power.capPause || s.flag Reg.PW_STAT.BROWN

/-- PW_STAT.THROT follows; each change from 0 to 1 asserts source 12 (R503). -/
def throtUpdate (s : State) : State :=
  let was := s.flag Reg.PW_STAT.THROT
  let s' := s.setFlag Reg.PW_STAT.THROT s.anyThrottle
  if s.anyThrottle && !was then s'.assertSource 12 else s'

/-! ## Rail limits -/

/-- The integer part of LEAK × 2^((T − 85) / 25): the greatest `n` below `2 ^ k` above `lo` with n^25 ≤ LEAK^25 × 2^(T − 85). -/
def leakRoot (leak : Nat) (temp : Int) : Nat → Nat → Nat
  | 0, lo => lo
  | k + 1, lo =>
    let n := lo + 2 ^ k
    if n ^ 25 * 2 ^ (85 - temp).toNat ≤ leak ^ 25 * 2 ^ (temp - 85).toNat then leakRoot leak temp k n else leakRoot leak temp k lo

/-- The leakage term of a rail in mA, its fraction dropped (R498; Log 7). -/
def leakage (leak : Nat) (temp : Int) : Nat := leakRoot leak (min temp 400) 32 0

/-- A current sample in mA (R498): Σ count × weight pJ over 250 ns at the nominal voltage, and the leakage term. -/
def railCurrent (s : State) (r : Nat) (counts : List Nat) (temp : Int) : Nat :=
  let e := sumNat ((List.range 16).map fun k => counts.getD k 0 * s.get (Reg.PW_WGT.WEIGHT k))
  e * 1000 / (250 * railVolts r) + State.leakage (s.get (Reg.PW_RLEAK.LEAK r)) temp

/-- The rail exists: the FLS-7200H has no VG rail (R2, Table 17.1). -/
def hasRail (s : State) (r : Nat) : Bool := r != 14 || s.ident.g

/-- Droop domains of a rail: the clusters of a compute die, and the quarters of a base die and of the hub (R506). -/
def droopDomains (r : Nat) : Nat := if r < 8 then 9 else if r < 13 then 4 else 0

/-- One sample of a rail's limiter (R499). -/
def railSample (s : State) (r : Nat) (counts : List Nat) (temp : Int) : State :=
  let i := s.railCurrent r counts temp
  let x := s.rail r
  let samples := (i :: x.samples).take 200
  let win := samples.take (4 * s.get (Reg.PW_RLIM.WIN r))
  let n := win.length
  let sum := sumNat win
  let lim := s.get (Reg.PW_RLIM.LIMIT r) * 1000
  let above := decide (lim * n < sum)
  let paused := if x.paused then decide (lim * n * 95 ≤ sum * 100) else above
  let frac :=
    if x.paused && !paused then 8
    else if lim * n * 95 < sum * 100 then max 1 (x.frac - 1)
    else if sum * 100 < lim * n * 85 then min 16 (x.frac + 1)
    else x.frac
  let frac := if lim * 110 < i * 100 then min frac 8 else frac
  let s := s.onRail r fun y => { y with samples := samples, beat := i :: y.beat, frac := frac, paused := paused }
  let s := s.set (Reg.PW_RSTAT.EST r) (min 0xFFFF (sum / n / 100))
  (if above then (s.bump (Reg.PW_ROVER_CNT.COUNT r)).raise Reg.PW_STAT.OVER else s).throtUpdate

/-- What sending the delivery packets of a descriptor hinted `h` does on each VC rail that carries one of its tiles (R505): the
peak tile current is that of one MX.MMA with Kc = 256 every 128 cycles (R498). -/
def loadHint (s : State) (h : Nat) (tiles : List Nat) : State :=
  if h = 0 then s
  else
    ((List.range 8).foldl (fun s r =>
      let mine := tiles.filter fun t => t / 32 == r
      if mine.isEmpty then s
      else
        let peak := s.get (Reg.PW_WGT.WEIGHT 0) * 1000 * 1000 / (128 * 250 * railVolts r)
        let hinted := mine.length * peak * h / 7
        let other := Config.otherTilesCurrent r ((s.rail r).samples.headD 0) mine
        let lim := s.get (Reg.PW_RLIM.LIMIT r) * 1000
        let ok (f : Nat) : Bool := decide ((Config.uncoreCurrent r * 16 + f * hinted + other * 16) * 100 ≤ lim * 95 * 16)
        let f := ((List.range 16).reverse.map (· + 1)).find? ok |>.getD 1
        s.onRail r fun y => { y with frac := f, raised := s.time.cycle + 80000 }) s).throtUpdate

/-! ## The beat of the hub power controller -/

/-- Mean of a list. -/
def meanNat (l : List Nat) : Nat := if l.isEmpty then 0 else sumNat l / l.length

/-- Power of a rail over the beat, in mW (R500). -/
def railPower (s : State) (r : Nat) : Nat := meanNat (s.rail r).beat * railVolts r / 1000

/-- Steps 1 to 4 of R500: the input power in mW, with the telemetry compared. -/
def powerEstimate (s : State) (x : BeatReadings) : Nat × State :=
  let eff := max 1 (Config.efficiency s.start.calibration)
  let rails := (List.range 16).filter s.hasRail
  let est := sumNat (rails.map s.railPower) * 1000 / eff
  let input := max est x.inputPower
  let s := rails.foldl (fun s r =>
    let e := s.railPower r
    let t := x.telemetry.getD r e
    let far := decide (t < (if t < e then e - t else t - e) * 10)
    let n := if far then (s.rail r).drift + 1 else 0
    let s := s.onRail r fun y => { y with beat := [], drift := n }
    if 16 ≤ n then s.raise Reg.PW_STAT.CALDRIFT else s) s
  (input, (s.set Reg.PW_EST.WATTS (min 8191 (input / 1000))).set Reg.PW_SUP.VIN (min 1023 x.inputVolts))

/-- The module fraction and the pause of the power cap (R501). -/
def capStep (s : State) (input : Nat) : State :=
  let inputs := (input :: s.power.inputs).take 250
  let win := inputs.take (s.get Reg.PW_CAP.WIN)
  let n := win.length
  let sum := sumNat win
  let cap := s.get Reg.PW_CAP.WATTS * 1000
  let g := s.get Reg.PW_EST.G
  let g' := if cap * n * 97 < sum * 100 then max 1 (g - 1) else if sum * 100 < cap * n * 90 then min 16 (g + 1) else g
  let pause := if s.power.capPause then decide (cap * n * 97 ≤ sum * 100) else decide (cap * n < sum)
  { s with power := { s.power with inputs := inputs, capPause := pause } }.set Reg.PW_EST.G g'

/-- The warning of each sensor (R510): once for each crossing, a new one only after the reading has fallen 3 °C below WARN. -/
def thermalWarn (s : State) (sensors : List (List Int)) : State :=
  let warn : Int := s.get Reg.PW_THERM.WARN
  let all := sensors.zipIdx.flatMap fun d => d.1.zipIdx.map fun p => (p.1, 16 * d.2 + p.2)
  all.foldl (fun s p =>
    let (t, d) := p
    if warn ≤ t && !s.power.warned.contains d then
      { s with power := { s.power with warned := d :: s.power.warned } }.assertSource 13
    else if t ≤ warn - 3 then { s with power := { s.power with warned := s.power.warned.filter (· != d) } }
    else s) s

/-- Temperatures of a beat: MAXT and the thermal fractions (R510). -/
def thermalStep (s : State) (dies : List Int) : State :=
  let thr : Int := s.get Reg.PW_THERM.THROT
  let hot := dies.foldl max (dies.headD 0)
  let s := s.set Reg.PW_THERM.MAXT (if dies.isEmpty then s.get Reg.PW_THERM.MAXT else (min 255 (max 0 hot)).toNat)
  dies.zipIdx.foldl (fun s p =>
    let (t, d) := p
    let f := s.thermal d
    let f' := if thr ≤ t then max 1 (f - 1) else if t < thr - 3 then min 16 (f + 1) else f
    if f' = f then s
    else { s with power := { s.power with thermal := if f' = 16 then AMap.erase s.power.thermal d
                                                     else AMap.put s.power.thermal d f' } }) s

/-- The per-beat work of the hub power controller (R500, R501, R502, R510). -/
def powerBeat (s : State) (x : BeatReadings) : State :=
  let s := match s.power.capNext with
    | some w =>
      ({ s with power := { s.power with capNext := none } }.set Reg.PW_CAP.WATTS w).set Reg.PW_CAP.WIN (w / 2 ^ 24)
    | none => s
  let (input, s) := s.powerEstimate x
  (((s.capStep input).thermalWarn x.sensors).thermalStep x.dies).throtUpdate

/-! ## The end of a wake -/

/-- The response to the request in mailbox `n` (R567): written to its response page, BUSY cleared, and source 32 or 34 asserted. -/
def mailAnswer (s : State) (n status : Nat) (payload : List Byte) : State :=
  let i := n - 1
  let m := s.tarle.mailboxes.getD i {}
  let at_ (a : Nat) : Byte := AMap.getD m.req a 0
  let page : List Byte := [at_ 0, BitVec.ofNat 8 status] ++ leBytes 2 payload.length ++ [at_ 4, at_ 5, at_ 6, at_ 7] ++ payload
  let rsp : AMap Byte := page.zipIdx.filterMap fun (p : Byte × Nat) => if p.1 = 0 then none else some (p.2, p.1)
  let s := { s with tarle := { s.tarle with mailboxes := s.tarle.mailboxes.set i { m with rsp := rsp } } }
  if n = 1 then (s.setFlag Reg.TRL_STAT.MB1BUSY false).assertSource 32
  else (s.setFlag Reg.TRL_STAT.MB2BUSY false).assertSource 34

/-- The POWER request that asked for the entry is answered (Table 19.8). -/
def answerPower (s : State) (status : Nat) : State :=
  match s.power.asker with
  | some n => ({ s with power := { s.power with asker := none } }).mailAnswer n status []
  | none => s

/-- Run is reached again: the latched and recorded sources become pending, EC_WAKESRC takes the lowest source that started the
wake, the sorter resumes, and the ledgers are to be rebuilt (R489, R491, R492, R516). -/
def toRun (s : State) : State :=
  let wake := s.ec.wake
  let mail := s.ec.latches ++ s.ec.recorded
  let s := { s with
    power := { s.power with sleep := .run, fresh := true }
    sorter := { s.sorter with halted := false }
    ec := { s.ec with wake := [], latches := [], recorded := [] } }
  let s := match wake with
    | [] => s
    | n :: rest => (s.set Reg.EC_WAKESRC.SRC (rest.foldl min n)).raise Reg.EC_WAKESRC.VALID
  let s := mail.foldl (fun (s : State) n => s.setPend n) s
  s.answerPower 0

/-- A wake from Nap completes: the harts resume after their WFI (R516). -/
def napWake (s : State) : State :=
  let s' : State := { s with harts := s.harts.map fun p => (p.1, { p.2 with wfi := false }) }
  s'.toRun

end State

/-! ## Rows -/

/-- RAIL_SAMPLE (R498, R499). -/
def execRailSample (r : Fin 16) (counts : List Nat) (temp : Int) (s : State) : Host.Outcome State Fault Refusal :=
  .next (if s.hasRail r then s.railSample r counts temp else s)

/-- DROOP_DETECT (R506): each such event counts, and the domain's clock runs at half frequency. -/
def execDroopDetect (r domain : Fin 16) (s : State) : Host.Outcome State Fault Refusal :=
  if State.droopDomains r ≤ domain || (s.rail r).stretched.contains domain.val then .next s
  else
    .next ((s.onRail r fun x => { x with stretched := domain.val :: x.stretched }).bump (Reg.PW_DROOP_CNT.COUNT r))

/-- DROOP_RECOVER (R506): the supply has stayed within THR − 10 mV for 64 cycles. -/
def execDroopRecover (r domain : Fin 16) (s : State) : Host.Outcome State Fault Refusal :=
  .next (s.onRail r fun x => { x with stretched := x.stretched.filter (· != domain.val) })

/-- SUPPLY_WARNING (R507): source 1, BROWN, fractions at most 8/16, every tile and mover paused. A fall below the level while BROWN
is set changes nothing more. -/
def execSupplyWarning (s : State) : Host.Outcome State Fault Refusal :=
  if s.flag Reg.PW_STAT.BROWN then .next s
  else .next ((s.assertSource 1).raise Reg.PW_STAT.BROWN).throtUpdate

/-- SUPPLY_RECOVERY (R508). -/
def execSupplyRecovery (s : State) : Host.Outcome State Fault Refusal :=
  if s.flag Reg.PW_STAT.BROWN then
    .next ((((s.bump Reg.PW_BROWN_CNT.COUNT).assertSource 11).setFlag Reg.PW_STAT.BROWN false).throtUpdate)
  else .next s

end Sys2Proof.Machine
end

