-- ==== Sys2Proof/Machine/SorterOps.lean ====
section
/-! DEFINITION. The sorter's operations (chapter 3): queues and readiness, consuming, rejecting and completing descriptors,
completion records and rings, tile sets, and the checks of a descriptor. -/

namespace Sys2Proof.Machine

/-- The 32 bytes of a completion record without its flag, and then the flag (Table 3.9). -/
def CRecord.toBytes (c : CRecord) (phase : Nat) : List Byte :=
  leBytes 8 c.postmark ++ leBytes 4 c.seq ++ leBytes 2 c.queue ++ leBytes 1 c.status ++ leBytes 1 c.flushed
    ++ leBytes 2 (min 0xFFFF c.used) ++ leBytes 2 (min 0xFFFF c.fault) ++ leBytes 2 (min 0xFFFF c.throt)
    ++ leBytes 6 (min (2 ^ 48 - 1) c.dropped) ++ leBytes 2 (min 0xFFFF c.errcnt) ++ leBytes 1 0 ++ leBytes 1 phase

/-- PHASE of the next record of a ring of 2^j records (R105). -/
def phaseOf (tail j : Nat) : Nat := if tail / 2 ^ j % 2 = 0 then 1 else 0

/-- A ring is full (R106). -/
def Ring.full (r : Ring) : Bool := decide (2 ^ r.j ≤ (r.tail + 2 ^ 32 - r.h) % 2 ^ 32)
def FRing.full (r : FRing) : Bool := decide (2 ^ r.j ≤ (r.tail + 2 ^ 32 - r.h) % 2 ^ 32)

/-- The tiles of a mask in ascending order. -/
def maskTiles (m : BitVec 256) : List Nat := (List.range 256).filter fun i => m.getLsbD i

/-- Lexicographic order of selection keys (R87). -/
def keyLt : List Nat → List Nat → Bool
  | a :: as, b :: bs => if a < b then true else if b < a then false else keyLt as bs
  | _, _ => false

/-- A zero range of bytes of a descriptor's body. -/
def bodyZero (d : BitVec 512) (lo hi : Nat) : Bool := body d lo (hi - lo) == 0

/-- A completion-ring base is aligned to the larger of 4 KiB and the ring size (Table 3.8); a ring base for records of `size`. -/
def baseAligned (base size k : Nat) : Bool := base % (max 4096 (size * 2 ^ k)) == 0

/-- A management body is malformed whatever the state (R628, R629, Tables 3.5 and 12.2). -/
def mgmtMalformed (d : BitVec 512) : Bool :=
  let b (off n : Nat) := body d off n
  match opOf d with
  | 0x00 => !bodyZero d 0 48
  | 0x01 =>
    let w0 := b 8 8
    let k := w0 / 2 ^ 3 % 32
    16383 < b 0 2 || !bodyZero d 2 8 || !bodyZero d 28 48 || w0 / 2 ^ 8 % 16 != 0 || w0 % 4 != 0 || k < 4 || 16 < k
      || b 16 8 % 2 ^ 13 != 0 || !baseAligned (w0 / 2 ^ 12 * 2 ^ 12) 64 k
  | 0x02 | 0x03 => 16383 < b 0 2 || !bodyZero d 2 48
  | 0x04 =>
    let w0 := b 8 8
    let j := w0 / 2 ^ 3 % 32
    let ev := b 24 8 / 2 ^ 32 % 2 ^ 9
    4095 < b 0 2 || !bodyZero d 2 8 || !bodyZero d 32 48 || w0 / 2 ^ 8 % 16 != 0 || w0 % 4 != 0 || j < 4 || 16 < j
      || b 16 8 % 4 != 0 || b 24 8 / 2 ^ 41 % 8 != 0 || b 24 8 / 2 % 2 ^ 15 != 0 || !baseAligned (w0 / 2 ^ 12 * 2 ^ 12) 32 j
      || (ev != 0 && ev < 128)
  | 0x05 => 4095 < b 0 2 || !bodyZero d 2 48
  | 0x06 => 1023 < b 0 2 || b 4 1 / 2 != 0 || !bodyZero d 5 8 || !bodyZero d 40 48
  | 0x07 => 1023 < b 0 2 || !bodyZero d 2 48
  | 0x08 =>
    let root := b 8 8
    b 2 1 / 2 != 0 || b 3 1 == 0 || 63 < b 4 2 || (b 6 2 != 1 && b 6 2 != 2) || root % 4096 != 0 || b 16 4 / 2 ^ 20 != 0
      || !bodyZero d 20 48
  | 0x09 => !bodyZero d 2 48
  | 0x0A => b 2 1 / 16 != 0 || !bodyZero d 3 8 || b 32 1 / 64 != 0 || !bodyZero d 33 48
  | 0x0B =>
    b 0 8 % 2 ^ 21 != 0 || b 8 4 == 0 || 2 ^ 25 < b 8 4 || b 14 1 / 8 != 0 || b 15 1 != 0 || !bodyZero d 18 48
      || (b 14 1 % 4 < 2 && b 16 2 != 0)
  | 0x0C => 1023 < b 0 2 || b 2 1 / 2 != 0 || b 3 1 != 0 || !bodyZero d 6 48
  | 0x0D => b 2 1 / 2 != 0 || !bodyZero d 3 8 || b 8 8 % 4096 != 0 || !bodyZero d 20 48
  | 0x0E =>
    let w0 := b 8 8
    let w2 := b 24 8
    let j := w0 / 2 ^ 3 % 32
    let ev := w2 / 2 ^ 32 % 2 ^ 10
    let ctx := w2 / 2 ^ 16 % 2 ^ 16
    63 < b 0 2 || b 2 1 / 2 != 0 || !bodyZero d 3 8 || !bodyZero d 40 48
      || (b 2 1 == 0 && (w0 / 2 ^ 8 % 16 != 0 || w0 % 4 != 0 || j < 4 || 12 < j || b 16 8 % 4 != 0 || w2 / 2 ^ 42 % 4 != 0
        || w2 / 2 % 2 ^ 15 != 0 || !baseAligned (w0 / 2 ^ 12 * 2 ^ 12) 64 j || (ev != 0 && (ev < 128 || 511 < ev))
        || (ctx != 1 && ctx != 2)))
  | _ =>
    b 2 1 == 3 || 3 < b 2 1 || 1 < b 3 1 || b 16 8 % 32 != 0 || (b 3 1 == 0 && b 16 8 != 0) || !bodyZero d 24 48

/-- KEYMODE is malformed (Table 3.11). -/
def keymodeBad (k : Nat) : Bool := k / 8 != 0 || (k / 2 % 2 == 1 && k / 4 % 2 == 1)

/-- Status of a sorting-mode body (R110, R628). -/
def sortStatus (d : BitVec 512) : Nat :=
  let n := body d 24 4
  let rows := body d 28 2
  if keymodeBad (body d 30 1) || body d 31 1 ≠ 0 then 0x10
  else
    match opOf d with
    | 0x50 => if !bodyZero d 32 48 then 0x10 else if rows = 0 || 4096 < rows || 2 ^ 24 < n * rows then 0x1A else 0
    | 0x51 =>
      if rows ≠ 0 || !bodyZero d 36 48 then 0x10 else if 2 ^ 24 < n + body d 32 4 then 0x1A else 0
    | _ =>
      let k := body d 36 2
      if !bodyZero d 16 24 || body d 32 4 ≠ 0 || !bodyZero d 38 48 then 0x10
      else if rows = 0 || 4096 < rows || 2 ^ 24 < n * rows || k = 0 || min 4096 n < k then 0x1A else 0

/-- Kc of PARCEL's KC code (Table 14.1). -/
def parcelKc (d : BitVec 512) : Nat := [16, 64, 128, 256].getD (body d 41 1 / 4 % 4) 16

/-- LAYOUT of a PARCEL: 0 LINEAR, 1 PACK, 2 UNPACK, 3 TRIM. -/
def parcelLayout (d : BitVec 512) : Nat := body d 41 1 % 4

/-- Record size of the packed layout (R425). -/
def recordSize (fmt kc : Nat) : Nat :=
  let b := if fmtMx fmt then kc / 32 else 0
  (128 * lineLen fmt kc + 128 * b + 127) / 128 * 128

/-- Image size of the packed layout, before its extent is rounded up (R425). -/
def imageSize (r kel fmt kc : Nat) : Nat := (r + 127) / 128 * ((kel + kc - 1) / kc) * recordSize fmt kc

/-- Bytes of a parcel's packed image, rounded up to whole granules (R425). -/
def imageExtent (d : BitVec 512) : Nat :=
  (imageSize (body d 24 4) (body d 28 4) (body d 40 1) (parcelKc d) + 65535) / 65536 * 65536

/-- Destination bytes of a move (R424, R425, R426, R94). -/
def moveBytes (d : BitVec 512) : Nat :=
  match opOf d with
  | 0x40 => body d 16 8
  | 0x41 => body d 8 8
  | _ =>
    match parcelLayout d with
    | 1 => imageExtent d
    | 2 =>
      let kel := body d 28 4
      let f := body d 40 1
      body d 24 4 * ((kel * fmtBits f + 7) / 8 + (if fmtMx f then (kel + 31) / 32 else 0))
    | _ => body d 24 4

/-- The endpoints of a move: segment address and whether it is written (R94, R421). -/
def endpoints (d : BitVec 512) : List (Nat × Bool) :=
  match opOf d with
  | 0x40 => [(body d 0 8, false), (body d 8 8, true)]
  | 0x41 => [(body d 0 8, true)]
  | _ =>
    match parcelLayout d with
    | 0 => [(body d 0 8, false), (body d 8 8, true)]
    | 1 => [(body d 0 8, false), (body d 8 8, true)] ++ (if fmtMx (body d 40 1) then [(body d 16 8, false)] else [])
    | 2 => [(body d 0 8, false), (body d 8 8, true)] ++ (if fmtMx (body d 40 1) then [(body d 16 8, true)] else [])
    | _ => [(body d 8 8, true)]

/-- The written endpoint of a move. -/
def destOf (d : BitVec 512) : Nat := if opOf d = 0x41 then body d 0 8 else body d 8 8

/-- A COPY's or FILL's body is malformed (R94, R628). -/
def copyMalformed (d : BitVec 512) : Bool :=
  let len := if opOf d = 0x40 then body d 16 8 else body d 8 8
  len == 0 || 2 ^ 40 < len || !bodyZero d 24 48

/-- A thread kernel's body is malformed (R286). -/
def kernelMalformed (d : BitVec 512) : Bool :=
  let n := body d 16 4
  let gpb := body d 20 1
  let loc := body d 22 2
  let lwin := body d 24 8
  body d 0 8 % 4 != 0 || n == 0 || 2 ^ 31 ≤ n || gpb == 0 || 32 < gpb || 8 ≤ body d 21 1 || 256 < loc || lwin % 2 ^ 21 != 0
    || (lwin == 0) != (loc == 0) || 16 < body d 44 1 || !bodyZero d 45 48

/-- The fields of a tile-work body that need no memory are malformed (R119, R286); a misaligned ENTRY of a LAUNCH is a trap of its
tiles (R122). -/
def tileBodyBad (d : BitVec 512) : Bool :=
  match opOf d with
  | 0x10 => 4 ≤ body d 40 1 || !bodyZero d 41 48
  | 0x11 => kernelMalformed d
  | _ => false

/-- The first unit of a tile of a job's set, and the number of its units (R101, R120). -/
def Flight.shareOf (f : Flight) (t : Nat) : Nat × Nat :=
  share f.job.units f.parts.length ((f.parts.filter fun p => p.tile < t).length)

/-- The tile that holds an output tile of a job with a ledger, where units are output tiles (R101, R264). -/
def Flight.holderOf (f : Flight) (num : Nat) : Option Part :=
  f.parts.find? fun p => let (a, n) := f.shareOf p.tile; a ≤ num && num < a + n

/-- The home tile of a strip: it holds the strip's last output tile (R264). -/
def Flight.homeOf (f : Flight) (strip : Nat) : Option Part :=
  (stripTiles f.job strip).getLast?.bind fun o => f.holderOf o.num

/-- Strips that have an output tile on `t`. -/
def Flight.stripsOf (f : Flight) (t : Nat) : List Nat :=
  let (a, n) := f.shareOf t
  ((List.range n).filterMap fun i => (outTile f.job (a + i)).map (·.no)).eraseDups

/-- A part of the descriptor on the tile has ended. -/
def partOver (p : Part) : Bool := p.st == .ended || p.st == .reported

/-- The bytes that the strips whose ledgers did not complete leave unwritten, as counted when every part has ended (R272). A job that
ended for an invalid program waits for no ledger (R258). -/
def Flight.ledgerLoss (f : Flight) : Nat :=
  if ledgerMode f.job = 0 || f.badProg then 0
  else (((List.range f.job.strips).filter fun k => match AMap.get? f.strips k with
    | some (some _) => false
    | _ => true).map (stripLoss f.job)).sum

namespace State

/-! ## Queues -/

def pigeon (s : State) (q : Nat) : Pigeon := AMap.getD s.sorter.pigeons q {}
def onPigeon (s : State) (q : Nat) (f : Pigeon → Pigeon) : State :=
  { s with sorter := { s.sorter with pigeons := AMap.put s.sorter.pigeons q (f (s.pigeon q)) } }

def ring (s : State) (r : Nat) : Ring := AMap.getD s.sorter.rings r {}
def onRing (s : State) (r : Nat) (f : Ring → Ring) : State :=
  { s with sorter := { s.sorter with rings := AMap.put s.sorter.rings r (f (s.ring r)) } }

def tset (s : State) (n : Nat) : TSet := AMap.getD s.sorter.tsets n {}
def onTset (s : State) (n : Nat) (f : TSet → TSet) : State :=
  { s with sorter := { s.sorter with tsets := AMap.put s.sorter.tsets n (f (s.tset n)) } }

/-- CRWAIT (R106): the ring that the queue names is full, or is not enabled while an enabled queue names it. -/
def crWait (s : State) (q : Nat) : Bool :=
  let n := (s.pigeon q).cring
  let r := s.ring n
  r.full || (!r.en && s.sorter.pigeons.any fun p => p.2.en && p.2.cring == n)

/-- DETACHED of a pigeonhole (R526, R530). -/
def qDetached (s : State) (q : Nat) : Bool := (s.pigeon q).loc && (s.pigeon q).en && s.flag Reg.HP_STAT.DETACHED

/-- A ready queue (R69). -/
def ready (s : State) (q : Nat) : Bool :=
  let p := s.pigeon q
  p.en && !p.error && !p.defer && !p.syncWait && !s.crWait q && !s.qDetached q && p.head != p.tail

/-- READYTIME of every queue that has become ready since state `old` (Table 3.1). -/
def settle (s old : State) : State :=
  s.sorter.pigeons.foldl (fun s' p =>
    if s.ready p.1 && !old.ready p.1 then s'.onPigeon p.1 fun x => { x with readyTime := s.now } else s') s

/-- A queue stops with an error (R71, R75, R78). -/
def stopQueue (s : State) (q st : Nat) : State :=
  ((s.onPigeon q fun p => { p with error := true, lastStat := st }).raise Reg.SORT_STAT.QSTOPPED).assertSource 71

/-- C of R54: beats of a round less its maintenance beats. -/
def capacity (s : State) : Nat := s.get Reg.RND_PERIOD.PERIOD / 2 - s.get Reg.RND_CTL.MAINT

/-- A maintenance beat is in progress (R53); none before the first tick (R52). -/
def maintBeat (s : State) : Bool :=
  s.flag Reg.RND_CTL.EN && s.time.ticked && decide (s.now < s.time.tickBase + 2000 * s.get Reg.RND_CTL.MAINT)

/-- Admission is open: rounds are enabled, a tick has occurred since and since the last write of SORT_TSET, and beat M has begun (R50,
R51, R57, R114). The 1 µs tail of an odd period admits as the beats before it (Log 104). -/
def admitting (s : State) : Bool :=
  s.flag Reg.RND_CTL.EN && s.time.ticked && !s.maintBeat && s.sorter.written.isEmpty
    && s.flag Reg.SORT_CTL.EN && !s.sorter.halted && s.power.sleep == .run

/-! ## Completion records -/

/-- A record is formed for a queue and waits for its ring (R106). -/
def formRecord (s : State) (q : Nat) (c : CRecord) : State :=
  s.onRing (s.pigeon q).cring fun r => { r with waiting := r.waiting ++ [{ c with postmark := s.now, queue := q }] }

/-- INFLIGHT of a queue falls by one (Table 3.1). -/
def inflightDown (s : State) (q : Nat) : State := s.onPigeon q fun p => { p with inflight := p.inflight - 1 }

/-- The head of a queue is consumed (R76). -/
def consume (s : State) (q : Nat) : State :=
  s.onPigeon q fun p => { p with
    head := (p.head + 1) % 2 ^ 32, nextSeq := (p.nextSeq + 1) % 2 ^ 32, inflight := p.inflight + 1, fetching := false,
    slotWait := false, deferred := false, held := p.held.drop 1 }

/-- A consumed descriptor that never started ends with a status (R77, R78). -/
def refuse (s : State) (q : Nat) (d : BitVec 512) (st : Nat) (dropped : Nat := 0) : State :=
  let s := if st < 0x20 then s.bump Reg.SORT_REJECT_CNT.COUNT else s
  let s := s.formRecord q { postmark := 0, seq := seqNumOf d, queue := q, status := st, dropped := dropped, regc := regcOf d }
  if stopErrOf d then s.stopQueue q st else s

/-- A descriptor leaves the sorter's list. -/
def dropFlight (s : State) (q seq : Nat) : State :=
  { s with sorter := { s.sorter with flights := s.sorter.flights.filter fun x => !(x.queue == q && x.seq == seq) } }

/-- A consumed management, sorting or synchronization descriptor is rejected at its own step. -/
def rejectFlight (s : State) (f : Flight) (st : Nat) : State :=
  let s := if st < 0x20 then s else s.bump Reg.SORT_REJECT_CNT.COUNT
  (s.dropFlight f.queue f.seq).refuse f.queue f.desc st

/-- A descriptor ends (R64, R77, R78, R591): its status is the first abort, or `st`, or 0x01 with losses, or 0x00. -/
def endFlight (s : State) (q seq : Nat) (st : Nat := 0) : State :=
  match s.flight? q seq with
  | none => s
  | some f =>
    let st := if f.abort ≠ 0 then f.abort else if st ≠ 0 then st else if f.dropped ≠ 0 || f.errcnt ≠ 0 then 1 else 0
    let s := s.dropFlight q seq
    let s := if f.late && !f.anyUnheld then s.bump Reg.RND_EXCUSED_CNT.COUNT else s
    let s :=
      if st ≠ 0 || cmplOf f.desc then
        s.formRecord q
          { postmark := 0, seq := seq, queue := q, status := st, flushed := f.flushed, used := (f.cycles + 7999) / 8000,
            fault := f.faultHeld / 8000, throt := f.throtHeld / 8000, dropped := f.dropped, errcnt := f.errcnt,
            regc := regcOf f.desc, ports := f.ports }
      else s.inflightDown q
    if stopErrOf f.desc && 0x10 ≤ st then s.stopQueue q st else s

/-- An abort of a descriptor; the one that occurred first counts (R591). -/
def abortFlight (s : State) (q seq st : Nat) : State :=
  s.onFlight q seq fun f => if f.abort = 0 then { f with abort := st } else f

/-! ## Rings -/

/-- A 32-bit head count read at HEADADDR, none where it cannot be read (R106). -/
def readCount (s : State) (loc : Bool) (ctx addr : Nat) : Option Nat × State :=
  if loc then (if s.hostUp then (some (leNat (s.hostBytes addr 4)), s) else (none, s))
  else if s.granuleHeld addr 4 then (none, s)
  else
    let (bs, _, s) := s.readBytes 1 ctx addr 4
    if bs.all Option.isSome then (some (leNat (bs.map fun b => b.getD 0)), s) else (none, s)

/-- The head count of completion ring `r` read anew. -/
def rereadRing (s : State) (r : Nat) : State :=
  let x := s.ring r
  match s.readCount x.loc x.ctx x.headAddr with
  | (some h, s) => s.onRing r fun y => { y with h := h }
  | (none, s) => s

def rereadFRing (s : State) (f : Nat) : State :=
  let x := s.fring f
  match s.readCount x.loc x.ctx x.headAddr with
  | (some h, s) => s.onFRing f fun y => { y with h := h }
  | (none, s) => s

/-- A ring slot of `n` bytes lies in a granule that is held while it changes hands (R379). -/
def slotHeld (s : State) (loc : Bool) (a n : Nat) : Bool := !loc && s.granuleHeld a n

/-- A record's bytes written at a ring address: data first, then the flag (R107, R523). In service-host memory its writes stay
outstanding until the link layer acknowledges the flag (R409, R527). -/
def putRecord (s : State) (loc : Bool) (ctx a : Nat) (bs : List Byte) (fault : Bool) (ring : Nat) : State :=
  if loc then
    (s.hostWrite a bs).issue
      { id := 0, unit := .hubIo, write := true, dev := false, addr := a, bytes := bs.length, data := bs, host := some a, ctx := ctx
        mail := some (fault, ring, bs.dropLast), tout := s.timeoutOf 0 true }
  else (s.writeBytes ctx a (bs.map some)).2

/-- A ring's event source asserts as a flag becomes visible (R474). -/
def ringEvent (s : State) (ev : Nat) : State := if ev = 0 then s else s.assertSource ev

/-- A completion ring that is full is noted (Table 3.13) and its head count read (R106). -/
def ringFull (s : State) (r : Nat) : State :=
  if (s.ring r).full then ((s.raise Reg.SORT_STAT.CRFULL).assertSource 70).rereadRing r else s

/-- Writes a record into completion ring `r` at its TAIL (R105, R106). -/
def putCompletion (s : State) (r : Nat) (bytes : Nat → List Byte) : State :=
  let x := s.ring r
  let s := s.putRecord x.loc x.ctx (x.base + x.tail % 2 ^ x.j * 32) (bytes (phaseOf x.tail x.j)) false r
  ((s.onRing r fun y => { y with tail := (y.tail + 1) % 2 ^ 32 }).ringEvent x.evsrc).ringFull r

/-- Writes a record into fault ring `f` at its TAIL (R389). -/
def putFault (s : State) (f : Nat) (bytes : Nat → List Byte) : State :=
  let x := s.fring f
  let s := s.putRecord x.loc x.ctx (x.base + x.tail % 2 ^ x.j * 64) (bytes (phaseOf x.tail x.j)) true f
  let s := ((s.onFRing f fun y => { y with tail := (y.tail + 1) % 2 ^ 32 }).ringEvent x.evsrc).bump Reg.TR_FAULT_CNT.COUNT
  if (s.fring f).full then ((s.raise Reg.TR_STAT.FRFULL).assertSource 69).rereadFRing f else s

/-- A record for a ring in service-host memory is placed in held mail, or dropped when it is full (R527). -/
def holdMail (s : State) (fault : Bool) (ring : Nat) (bs : List Byte) : State :=
  if s.host.held.length < 4096 then { s with host := { s.host with held := s.host.held ++ [(fault, ring, bs)] } }
  else
    { s.bump Reg.HP_HELDDROP_CNT.COUNT with host := { s.host with heldDrop := min 0xFFFFFFFF (s.host.heldDrop + 1) } }

/-! ## Tile sets, slots and token counters -/

/-- Parts of tile `t` that the sorter counts as holding one of its delivery slots (R91). -/
def slotsUsed (s : State) (t : Nat) : Nat :=
  (s.sorter.flights.filter fun f => f.parts.any fun p => p.tile == t && p.st != .reported).length

/-- Every queue that waits for slots or a mover tries again (R89 pseudocode, R421). -/
def slotsFreed (s : State) : State :=
  { s with sorter := { s.sorter with pigeons := s.sorter.pigeons.map fun p =>
      (p.1, if p.2.slotWait then { p.2 with slotWait := false } else p.2) } }

/-- A post adds to a token counter of tile `t`, saturating (R126); a logical number without a tile drops it (R129, R461). -/
def postToken (s : State) (sender t c n : Nat) : State :=
  let x := s.tile t
  if x.mode == .absent then s.bump (Reg.CT_TOKDROP_CNT.COUNT sender)
  else
    let v := AMap.getD x.tokens c 0 + n
    let s := s.onTile t fun y => { y with tokens := AMap.put y.tokens c (min v 0xFFFFFFFF) }
    if 0xFFFFFFFF < v then s.bump (Reg.CT_TOKSAT_CNT.COUNT t) else s

/-- The beats a late descriptor owes in the present round (R62). -/
def owed (_ : State) (f : Flight) : Nat := if f.late then (f.lateUnheld + 7999) / 8000 else 0

/-- One debit of a late descriptor, dropped where its set is no longer enabled (R62). -/
def debit (s : State) (f : Flight) : State :=
  let s := s.onFlight f.queue f.seq fun x => { x with debits := x.debits + 1 }
  if (s.tset f.tset).en then s.onTset f.tset fun t => { t with balance := t.balance - 1 } else s

/-- Every debit that is due on a tile set is made before an admission is tested (R90). -/
def dueDebits (s : State) (n : Nat) : State :=
  (s.sorter.flights.filter fun f => f.tset == n && !f.parts.isEmpty).foldl (fun s f =>
    (List.range (s.owed f - f.debits)).foldl (fun s _ => s.debit f) s) s

/-! ## Checks of a descriptor -/

/-- How a check ends. -/
inductive Check where
  /-- It passes; a GEMM, GGEMM or CHAIN gives its job. -/
  | pass (j : Job) (s : State)
  | bad (st : Nat) (s : State)
  /-- A read of the check waits for a page fault or an outbound window. -/
  | wait (s : State)
  deriving DecidableEq, Repr

/-- Bytes that a unit read; one that it could not read is a free value (Log 3). -/
def orFree (s : State) (bs : List (Option Byte)) : List Byte × State :=
  bs.foldl (fun (acc : List Byte × State) b => match b with
    | some x => (acc.1 ++ [x], acc.2)
    | none => let (v, s) := acc.2.draw 8; (acc.1 ++ [BitVec.ofNat 8 v], s)) ([], s)

/-- A block that hub microcode fetches: its value as one little-endian number. -/
def fetchBlock (s : State) (who : Who) (addr n : Nat) (k : Nat → State → Check) : Check :=
  match s.bulkRead 1 who addr n with
  | .limit => .bad 0x21 s
  | .wait s => .wait s
  | .done bs s => let (b, s) := s.orFree bs; k (leNat b) s

/-- R84: whether context `c` may use tile set `n`; R563 keeps 0x0001 and 0x0002 out of the sets of a sealed context. -/
def tsetStatus (s : State) (c n : Nat) : Nat :=
  let t := s.tset n
  if !t.en then 0x15
  else if (c == 1 || c == 2) && c != t.owner then
    (if s.sealedCtx t.owner then 0x13 else 0)
  else if c != t.owner && !t.shared then 0x13
  else 0

/-- The tiles of a set in ascending order. -/
def setTiles (s : State) (n : Nat) : List Nat := maskTiles (s.tset n).mask

/-- A chain block, where its address is nonzero. -/
def fetchChain (s : State) (who : Who) (addr : Nat) (k : Option (Nat × Nat) → State → Check) : Check :=
  if addr = 0 then k none s else s.fetchBlock who addr 256 fun v s => k (some (v, addr)) s

/-- The check of a GEMM or GGEMM (R98, R103, R248, R269). -/
def gemmCheck (s : State) (who : Who) (d : BitVec 512) : Check :=
  let grouped := opOf d == 0x13
  let g := body d 24 4
  let table := body d 32 8
  if body d 28 4 ≠ 0 || !bodyZero d 40 48 || (grouped && (g == 0 || 65536 < g)) || (!grouped && (g != 0 || table != 0)) then
    .bad 0x10 s
  else
    s.fetchBlock who (body d 0 8) 128 fun v s =>
    s.fetchChain who (body d 8 8) fun pro s =>
    s.fetchChain who (body d 16 8) fun epi s =>
    let st := gemmStatus v grouped pro epi
    if st ≠ 0 then .bad st s
    else
      let p := paramsOf v
      let base : Job := { p := p, prologue := pro.map fun x => chainOf x.1, epilogue := epi.map fun x => chainOf x.1 }
      let fin (j : Job) (s : State) : Check :=
        let st := ledgerStatus j (s.setTiles (tsetOf d)).length
        if st ≠ 0 then .bad st s else .pass j s
      if grouped then
        s.fetchBlock who table (64 * g) fun t s =>
          let es := (List.range g).map fun i => at_ t (64 * i) 64
          match (es.map shapeStatus).find? (· != 0) with
          | some st => .bad st s
          | none => fin { base with problems := groupProblems es 0 } s
      else fin { base with problems := batchProblems p } s

/-- The check of a CHAIN (R248, R250, R269). -/
def chainCheck (s : State) (who : Who) (d : BitVec 512) : Check :=
  if !bodyZero d 16 48 then .bad 0x10 s
  else
    s.fetchBlock who (body d 0 8) 128 fun v s =>
    s.fetchBlock who (body d 8 8) 256 fun b s =>
    let st := chainJobStatus v b (body d 8 8)
    if st ≠ 0 then .bad st s
    else
      let p := paramsOf v
      let j : Job := { p := p, epilogue := some (chainOf b), chain := true, problems := batchProblems p }
      let st := ledgerStatus j (s.setTiles (tsetOf d)).length
      if st ≠ 0 then .bad st s else .pass j s

/-- Where the first byte of an endpoint lies: none where its segment check fails (R94). -/
def endpointAt (s : State) (d : BitVec 512) (e : Nat × Bool) : Option (Bool × Nat) :=
  (s.segCheck (ctxidOf d) e.1 1 e.2 (opOf d == 0x30)).map fun x => (x.1, x.2.2)

/-- A PARCEL's body is malformed (R423). -/
def parcelStatus (s : State) (d : BitVec 512) : Nat :=
  let lay := parcelLayout d
  let packing := lay == 1 || lay == 2
  let len := body d 24 4
  let fmt := body d 40 1
  let post := body d 41 1 / 16 % 2 == 1
  let flash (a : Nat) (w : Bool) : Option Bool := (s.endpointAt d (a, w)).map fun x =>
    !x.1 && decide (flashBase ≤ x.2) && decide (x.2 < outboundBase)
  let unaligned (e : Nat × Bool) : Bool :=
    match s.endpointAt d e with
    | some (false, a) => if flashBase ≤ a && a < outboundBase then a % 65536 != 0 else e.1 % 32 != 0
    | _ => e.1 % 32 != 0
  if body d 41 1 / 32 ≠ 0 || body d 42 2 / 1024 ≠ 0 || body d 45 1 / 32 ≠ 0 || body d 46 2 ≠ 0 || (!post && body d 42 2 ≠ 0)
      || fmt / 32 ≠ 0 || (lay == 3 && body d 0 8 ≠ 0)
      || (!packing && (body d 16 8 ≠ 0 || body d 28 4 ≠ 0 || body d 32 8 ≠ 0 || fmt ≠ 0 || body d 41 1 / 4 % 4 ≠ 0
          || len % 65536 ≠ 0 || len = 0 || 2 ^ 24 < len))
      || (packing && (!dimOk len || !dimOk (body d 28 4) || body d 16 8 % 32 ≠ 0 || body d 32 8 % 32 ≠ 0))
      || (endpoints d).any unaligned || (lay == 3 && flash (body d 8 8) true == some false) then 0x10
  else if packing && (!fmtValid fmt || !kcOfFmt fmt (parcelKc d)) then 0x17
  else if packing && 2 ^ 24 < imageSize len (body d 28 4) fmt (parcelKc d) then 0x10
  else if post then s.tsetStatus (ctxidOf d) (body d 42 2 % 1024) else 0

/-- The group of movers that runs a move, none where an endpoint's first byte fails its check (R94, R421). -/
def moverGroup (s : State) (d : BitVec 512) : Option (List Nat) :=
  let es := (endpoints d).map (s.endpointAt d)
  if es.any Option.isNone then none
  else
    let hub := es.any fun e => match e with
      | some (paged, a) => paged || !(decide (a < tier0End))
      | none => true
    if hub || (opOf d == 0x30 && parcelLayout d == 3) then some (List.range 16)
    else
      match s.endpointAt d (destOf d, true) with
      | some (_, a) => let n := s.homeOf (a / 128); some ((List.range 4).map fun i => 16 + 4 * n + i)
      | none => none

/-- The checks of a fetched descriptor after its sequence number (R14, R74, R79, R80, R628, class fields). -/
def checkDesc (s : State) (q : Nat) (d : BitVec 512) : Check :=
  let p := s.pigeon q
  let c := ctxidOf d
  let who : Who := { w := .microcode q (seqNumOf d), ctx := c, snap := s.snapOf c, queue := q, seq := seqNumOf d }
  if bitsOf d 96 32 ≠ 0 || bitsOf d 58 6 ≠ 0 || bitsOf d 12 4 ≠ 0 then .bad 0x10 s
  else if c ≠ p.ctx then .bad 0x12 s
  else
    match classOf (opOf d) with
    | none => .bad 0x11 s
    | some cl =>
      if cl == .management && !(c == 0 || c == 1 || c == 2) then .bad 0x13 s
      else if !s.ctxOpen c || (s.ctxOf c).sealing == .unsealed || (s.ctxOf c).sealing == .broken then .bad 0x13 s
      else if (cl != .tile && budgetOf d != 0) || (cl == .tile && budgetOf d == 0)
          || (cl != .tile && opOf d != 0x5A && tsetOf d != 0) then .bad 0x10 s
      else
        match cl with
        | .management => if mgmtMalformed d then .bad 0x10 s else .pass {} s
        | .tile =>
          if tileBodyBad d then .bad 0x10 s
          else
            let st := s.tsetStatus c (tsetOf d)
            if st ≠ 0 then .bad st s
            else
              match opOf d with
              | 0x12 | 0x13 => s.gemmCheck who d
              | 0x14 => s.chainCheck who d
              | _ => .pass {} s
        | .parcel => let st := s.parcelStatus d; if st ≠ 0 then .bad st s else .pass {} s
        | .copy | .fill => if copyMalformed d then .bad 0x10 s else .pass {} s
        | .sorting =>
          if !s.flag Reg.SORT_CTL.SORTEN then .bad 0x13 s
          else let st := sortStatus d; if st ≠ 0 then .bad st s else .pass {} s
        | .sync =>
          match opOf d with
          | 0x58 => if bodyZero d 0 48 then .pass {} s else .bad 0x10 s
          | 0x59 => if bodyZero d 6 48 then .pass {} s else .bad 0x10 s
          | _ =>
            if 31 < body d 1 1 || body d 2 2 ≠ 0 || !bodyZero d 10 48 then .bad 0x10 s
            else
              let st := s.tsetStatus c (tsetOf d)
              if st ≠ 0 then .bad st s
              else if (s.setTiles (tsetOf d)).length ≤ body d 0 1 then .bad 0x10 s else .pass {} s

end State

end Sys2Proof.Machine
end

