-- ==== Sys2Proof/Machine/Sorter.lean ====
section
/-! DEFINITION. Requesters (R601 to R606), and the sorter's rows: doorbells, selection, fetch and dispatch, delivery and reports,
completion records, queues, completion rings, tile sets and synchronization (chapter 3). -/

namespace Sys2Proof.Machine

/-- The 64-KiB block of the first 2 MiB, or a block above, by BAR0 offset (Table 22.2): those that answer in every state (R605). -/
def earlyBlock (off : Nat) : Bool :=
  let b := off / 2 ^ 16
  b == 0x00 || b == 0x01 || b == 0x0C || b == 0x0E || b == 0x0F || b == 0x10 || b == 0x11

/-- The packet of a descriptor may take a slot before the next clear of its tile (R148). -/
def mayRun (x : Tile) (p : Nat × Nat) : Bool :=
  match x.clears with
  | [] => true
  | (_, old) :: _ => old.contains p

/-- Packets that waited at a tile take slots, but those for which the tile must first clear (R148). -/
def takeWaiting (x : Tile) : Tile :=
  { x with slots := x.slots ++ x.waiting.filter (mayRun x), waiting := x.waiting.filter fun p => !mayRun x p }

namespace State

/-! ## Requesters -/

/-- The descriptor whose part a tile runs. -/
def running (s : State) (t : Nat) : Option Flight :=
  match (s.tile t).slots with
  | (q, seq) :: _ => if (s.tile t).active then s.flight? q seq else none
  | [] => none

/-- A host-port request that arrives in Nap is performed once the wake that it starts has reached Run (R515). -/
def awake (s : State) : Requester → State
  | .host => if s.power.sleep == .nap && s.flag Reg.HP_STAT.LINKUP then s.napWake else s
  | _ => s

/-- A requester that can make an access now: Tarle, a released hart, the service host over a link that is up, a control core whose
program runs. -/
def present (s : State) : Requester → Bool
  | .tarle => true
  | .hart h => (s.hart h).running && s.power.sleep != .nap && s.power.sleep != .night
  | .host => s.flag Reg.HP_STAT.LINKUP
  | .core t => (s.running t).isSome

/-- CTXID of a requester (R369, R520, R603). -/
def reqCtx (s : State) : Requester → Nat
  | .tarle => 0
  | .hart h => (s.hart h).mflsctx
  | .host => 2
  | .core t => match s.running t with
    | some f => ctxidOf f.desc
    | none => 0

/-- A block answers in the present state of the start (R605). -/
def answers (s : State) (off : Nat) : Bool :=
  let st := s.get Reg.ST_STAT.STATE
  earlyBlock off || (3 ≤ st && st ≤ 5) || st == 7 || (st == 6 && off / 2 ^ 16 == 0x09)

/-- A register access of a foreign context (R603). -/
def foreign (s : State) : State := (s.raise Reg.GBL_STAT.FOREIGN).bump Reg.GBL_FOREIGN_CNT.COUNT

/-- Whether an access to the register at `off` reaches it, with the state that a refusal leaves (R603, R605). -/
def reaches (s : State) (r : Requester) (off : Nat) : Bool × State :=
  let s := s.awake r
  if !s.present r then (false, s)
  else if 2 < s.reqCtx r then (false, s.foreign)
  else (s.answers off, s)

/-! ## Doorbells and selection -/

/-- A write of LB_TAIL (R71, R72, R73). -/
def doorbell (s : State) (q v : Nat) : State :=
  let p := s.pigeon q
  if !p.en || p.closing then s.raise Reg.SORT_STAT.LBDEAD
  else if (v + 2 ^ 32 - p.head) % 2 ^ 32 ≤ 2 ^ p.k then (s.onPigeon q fun p => { p with tail := v }).settle s
  else
    ((s.stopQueue q 0x19).formRecord q
      { postmark := 0, seq := p.nextSeq, queue := q, status := 0x19, counted := false }).settle s

/-- Selection key of a ready queue (R87). -/
def selectKey (s : State) (q : Nat) : List Nat :=
  let p := s.pigeon q
  [if p.deferred then 0 else 1, if p.deferred then p.defRnd else 0, p.prio, p.readyTime, q]

/-- A descriptor of a class whose step its own row makes, and not the merge network: management or synchronization. -/
def ownStep (d : BitVec 512) : Bool :=
  match classOf (opOf d) with
  | some .management | some .sync => true
  | _ => false

/-- The queue waits for the step of a descriptor that has been consumed, its own or a QCLOSE that names it: a dispatch and its effect are
one moment (R82, R88). -/
def stepDue (s : State) (q : Nat) : Bool :=
  s.sorter.flights.any fun f => !f.acted && ownStep f.desc && (f.queue == q || (opOf f.desc == 0x02 && body f.desc 0 2 == q))

/-- The queue that the sorter selects (R87). -/
def selected (s : State) : Option Nat :=
  let qs := (s.sorter.pigeons.map (·.1)).filter fun q =>
    let p := s.pigeon q
    s.ready q && !p.slotWait && !p.fetching && !p.closing && !s.stepDue q
  match qs with
  | [] => none
  | q :: rest => some (rest.foldl (fun b x => if keyLt (s.selectKey x) (s.selectKey b) then x else b) q)

/-! ## Fetch and dispatch -/

/-- The head descriptor of queue `q` (R70): read of its ring with the pigeonhole's context, or, from a ring in service-host memory,
up to 8 descriptors in one read of which the others are held (R522). A descriptor that could not be read is a free value. -/
def fetchHead (s : State) (q : Nat) : BitVec 512 × State :=
  let p := s.pigeon q
  let slot (h : Nat) := p.rbase + h % 2 ^ p.k * 64
  if p.loc then
    match p.held with
    | d :: _ => (d, s)
    | [] =>
      let n := min 8 (min ((p.tail + 2 ^ 32 - p.head) % 2 ^ 32) (2 ^ p.k - p.head % 2 ^ p.k))
      let ds := (List.range n).map fun i => BitVec.ofNat 512 (leNat (s.hostBytes (slot p.head + 64 * i) 64))
      (ds.headD 0, s.onPigeon q fun p => { p with held := ds })
  else
    let (bs, _, s) := s.readBytes 1 p.ctx (slot p.head) 64
    let (b, s) := s.orFree bs
    (BitVec.ofNat 512 (leNat b), s)

/-- The head descriptor lies in a granule that is held while it changes hands (R379). -/
def headHeld (s : State) (q : Nat) : Bool :=
  let p := s.pigeon q
  !p.loc && s.granuleHeld (p.rbase + p.head % 2 ^ p.k * 64) 64

/-- A consumed descriptor that runs on. -/
def addFlight (s : State) (f : Flight) : State := { s with sorter := { s.sorter with flights := s.sorter.flights ++ [f] } }

/-- The post of a PARCEL with POSTEN, made in every outcome (R428). -/
def parcelPost (s : State) (d : BitVec 512) : State :=
  if opOf d == 0x30 && body d 41 1 / 16 % 2 == 1 then
    match (s.setTiles (body d 42 2 % 1024))[body d 44 1]? with
    | some t => s.postToken t t (body d 45 1 % 32) 1
    | none => s
  else s

/-- Sends the delivery packets of a tile-work descriptor, with its load hint (R92, R505). -/
def deliver (s : State) (f : Flight) : State :=
  (s.onFlight f.queue f.seq fun x => { x with ordered := false }).loadHint (hintOf f.desc) (f.parts.map (·.tile))

/-- The head waits for a slot or a mover (SLOTWAIT). -/
def waitSlot (s : State) (q : Nat) : State := s.onPigeon q fun p => { p with slotWait := true, fetching := false }

/-- Admission of a tile-work descriptor that has passed its checks (R54, R88 to R92). -/
def takeUp (s : State) (q : Nat) (d : BitVec 512) (j : Job) : State :=
  let n := tsetOf d
  let s := s.dueDebits n
  let b := budgetOf d
  let bal := (s.tset n).balance
  let tiles := s.setTiles n
  if s.capacity < b then (s.consume q).refuse q d 0x14
  else if bal ≤ 0 || bal < b then
    (s.onPigeon q fun p => { p with defer := true, deferred := true, defRnd := s.round, fetching := false, held := [] }).bump
      Reg.SORT_DEFER_CNT.COUNT
  else if tiles.any fun t => decide (8 ≤ s.slotsUsed t) then s.waitSlot q
  else
    let s := (s.consume q).bump Reg.SORT_ADMIT_CNT.COUNT
    let s := s.onTset n fun t => { t with balance := t.balance - b }
    let f : Flight := { queue := q, seq := seqNumOf d, desc := d, snap := s.snapOf (ctxidOf d), tset := n,
                        parts := tiles.map fun t => { tile := t }, ordered := orderOf d, started := orderOf d, job := j,
                        round := s.round }
    let s := s.addFlight f
    if orderOf d then s else s.deliver f

/-- Dispatch of a descriptor of another class (R94, R113, R421). -/
def dispatch (s : State) (q : Nat) (d : BitVec 512) : State :=
  let f : Flight := { queue := q, seq := seqNumOf d, desc := d, snap := s.snapOf (ctxidOf d), started := true, round := s.round }
  match classOf (opOf d) with
  | some .parcel | some .copy | some .fill =>
    match s.moverGroup d with
    | none => (((s.consume q).refuse q d 0x21 (moveBytes d))).parcelPost d
    | some g =>
      match g.find? fun m => !(s.movers.any fun p => p.1 == m) with
      | none => s.waitSlot q
      | some m =>
        let s := (s.consume q).addFlight { f with acted := true }
        { s with movers := AMap.put s.movers m { queue := q, seq := f.seq, desc := d, snap := f.snap } }
  | some .sorting =>
    let s := (s.consume q).addFlight f
    { s with sorter := { s.sorter with sorting := s.sorter.sorting ++ [(q, f.seq)] } }
  | some .sync => ((s.consume q).addFlight f).onPigeon q fun p => { p with syncWait := true }
  | _ => (s.consume q).addFlight f

/-- DESCRIPTOR_FETCH_COMPLETE's work on the head of queue `q`. -/
def handleHead (s : State) (q : Nat) : State :=
  let p := s.pigeon q
  let (d, s) := s.fetchHead q
  if seqNumOf d ≠ p.nextSeq then
    let s := s.onPigeon q fun p => { p with fetching := false, held := [] }
    (s.stopQueue q 0x16).formRecord q { postmark := 0, seq := p.nextSeq, queue := q, status := 0x16, counted := false }
  else
    match s.checkDesc q d with
    | .wait s => s
    | .bad st s => (s.consume q).refuse q d st
    | .pass j s => if classOf (opOf d) == some .tile then s.takeUp q d j else s.dispatch q d

/-! ## Own steps of dispatched descriptors -/

/-- The dispatched descriptor `(q, seq)` of opcode `op` that is the first of its queue whose step has not been made (R88). -/
def due (s : State) (op q seq : Nat) : Option Flight :=
  match s.sorter.flights.find? fun f => f.queue == q && !f.acted && ownStep f.desc with
  | some f => if f.seq == seq && opOf f.desc == op then some f else none
  | none => none

/-- The descriptor `(q, seq)` of opcode `op` whose step has been made and which has not ended. -/
def acting (s : State) (op q seq : Nat) : Option Flight :=
  match s.flight? q seq with
  | some f => if f.acted && opOf f.desc == op then some f else none
  | none => none

/-- Its step is made, and it waits for its completion. -/
def act (s : State) (f : Flight) : State := s.onFlight f.queue f.seq fun x => { x with acted := true, waiting := true }

/-- A management descriptor completes. -/
def completeMgmt (s : State) (f : Flight) : State := s.endFlight f.queue f.seq

/-- A synchronization descriptor ends (R95 to R97). -/
def endSync (s : State) (f : Flight) (st : Nat) : State :=
  (s.onPigeon f.queue fun p => { p with syncWait := false }).endFlight f.queue f.seq st

/-- The step of a management descriptor that either is rejected with a status or has its effect. -/
def manage (s : State) (op q seq : Nat) (k : Flight → Nat × State) : State :=
  match s.due op q seq with
  | none => s
  | some f =>
    let (st, s') := k f
    if st ≠ 0 then (s.rejectFlight f st).settle s else s'.settle s

/-- QOPEN (R81). -/
def qopen (s : State) (f : Flight) : Nat × State :=
  let d := f.desc
  let n := body d 0 2
  let w0 := body d 8 8
  let w1 := body d 16 8
  let ctx := w1 / 2 ^ 16 % 2 ^ 16
  let cr := w1 / 2 ^ 32 % 2 ^ 12
  if (s.pigeon n).en then (0x10, s)
  else if !s.ctxOpen ctx || !(s.ring cr).en || (s.ring cr).ctx ≠ ctx then (0x13, s)
  else
    (0, (s.onPigeon n fun _ =>
      { rbase := w0 / 2 ^ 12 * 2 ^ 12, k := w0 / 2 ^ 3 % 32, loc := w0 / 4 % 2 == 1, pasid := w1 / 2 ^ 44, cring := cr,
        ctx := ctx, prio := w1 / 2 ^ 13 % 8, nextSeq := body d 24 4, en := true }).completeMgmt f)

/-- QCLOSE's dispatch (R82, R629): fetching stops, and a waiting synchronization descriptor of the queue ends with 0x23. -/
def qclose (s : State) (f : Flight) : Nat × State :=
  let n := body f.desc 0 2
  let p := s.pigeon n
  if !p.en || p.closing then (0x10, s)
  else
    let s := s.onPigeon n fun p => { p with
      closing := true, fetching := false, held := [], slotWait := false, defer := false, deferred := false }
    let waits := s.sorter.flights.filter fun x => x.queue == n && classOf (opOf x.desc) == some .sync
    (0, (waits.foldl (fun s x => s.endSync x 0x23) s).act f)

/-- QCLOSE completes when INFLIGHT is 0, not counting itself (R82). -/
def qcloseDone (s : State) (f : Flight) : State :=
  let n := body f.desc 0 2
  if (s.pigeon n).inflight = (if n = f.queue then 1 else 0) then
    (s.onPigeon n fun p => { p with en := false, closing := false }).completeMgmt f
  else s

def qresume (s : State) (f : Flight) : Nat × State :=
  let n := body f.desc 0 2
  if !(s.pigeon n).en then (0x10, s) else (0, (s.onPigeon n fun p => { p with error := false }).completeMgmt f)

/-- CROPEN (R104, Table 21.3). -/
def cropen (s : State) (f : Flight) : Nat × State :=
  let d := f.desc
  let n := body d 0 2
  let w0 := body d 8 8
  let w2 := body d 24 8
  let ctx := w2 / 2 ^ 16 % 2 ^ 16
  if (s.ring n).en then (0x10, s)
  else if !s.ctxOpen ctx then (0x13, s)
  else
    (0, (s.onRing n fun r =>
      { base := w0 / 2 ^ 12 * 2 ^ 12, j := w0 / 2 ^ 3 % 32, loc := w0 / 4 % 2 == 1, headAddr := body d 16 8, pasid := w2 / 2 ^ 44,
        evsrc := w2 / 2 ^ 32 % 2 ^ 9, ctx := ctx, en := true, waiting := r.waiting }).completeMgmt f)

/-- The mask that set `n` will hold after the next tick (R86). -/
def nextMask (s : State) (n : Nat) : BitVec 256 :=
  s.sorter.changes.foldl (fun m c => if c.set = n then (match c.define with | some x => x.1 | none => 0) else m)
    (if (s.tset n).en then (s.tset n).mask else 0)

/-- Set `n` will be enabled after the next tick (R85, R86). -/
def nextEn (s : State) (n : Nat) : Bool :=
  s.sorter.changes.foldl (fun b c => if c.set = n then c.define.isSome else b) (s.tset n).en

/-- Sets that are enabled, or named by a change. -/
def knownSets (s : State) : List Nat := s.sorter.tsets.map (·.1) ++ s.sorter.changes.map (·.set)

/-- TSDEFINE (R85, R86, R563). -/
def tsdefine (s : State) (f : Flight) : Nat × State :=
  let d := f.desc
  let n := body d 0 2
  let owner := body d 2 2
  let shared := body d 4 1 == 1
  let mask := BitVec.ofNat 256 (body d 8 32)
  if !s.ctxOpen owner || (s.sealedCtx owner && shared) then (0x13, s)
  else if mask = 0 || s.knownSets.any (fun m => m != n && s.nextMask m &&& mask != 0) then (0x18, s)
  else
    let s' : State := { s with sorter := { s.sorter with
      changes := s.sorter.changes ++ [{ set := n, define := some (mask, owner, shared), queue := f.queue, seq := f.seq }] } }
    (0, s'.act f)

/-- TSCLEAR (R85). -/
def tsclear (s : State) (f : Flight) : Nat × State :=
  let s' : State := { s with sorter := { s.sorter with
    changes := s.sorter.changes ++ [{ set := body f.desc 0 2, define := none, queue := f.queue, seq := f.seq
                                      effect := s.nextEn (body f.desc 0 2) }] } }
  (0, s'.act f)

/-- WAITROUND is satisfied (R96). -/
def roundReached (s : State) (v : Nat) : Bool := decide ((s.round + 2 ^ 48 - v) % 2 ^ 48 < 2 ^ 47)

/-- The counter that a WAITTOKEN tests is at or above its value (R97). -/
def tokenReached (s : State) (d : BitVec 512) : Bool :=
  match (s.setTiles (tsetOf d))[body d 0 1]? with
  | some t => decide (body d 4 4 ≤ AMap.getD (s.tile t).tokens (body d 1 1) 0)
  | none => false

/-- The tick that begins round r0 + n has occurred, for a WAITTOKEN dispatched in round r0 with a timeout of n rounds (R97). -/
def waitTimedOut (s : State) (f : Flight) : Bool :=
  let n := body f.desc 8 2
  n != 0 && decide ((s.round + 2 ^ 48 - (f.round + n) % 2 ^ 48) % 2 ^ 48 < 2 ^ 47)

/-- A WAITTOKEN that has timed out ends with 0x25, and one whose counter has reached its value ends; `k` is what it does otherwise
(R97). -/
def tokenWait (s : State) (f : Flight) (k : State) : State :=
  if s.waitTimedOut f then s.endSync f 0x25 else if s.tokenReached f.desc then s.endSync f 0 else k

/-- The WAITTOKEN descriptors that wait for counter `c` of tile `t` are tested (R128). -/
def serveTokenWaits (s : State) (t c : Nat) : State :=
  (s.sorter.flights.filter fun f => f.acted && opOf f.desc == 0x5A && body f.desc 1 1 == c
      && (s.setTiles (tsetOf f.desc))[body f.desc 0 1]? == some t).foldl (fun s f => s.tokenWait f s) s

/-! ## Delivery and reports -/

/-- Part `t` of a descriptor changed. -/
def onPart (s : State) (q seq t : Nat) (f : Part → Part) : State :=
  s.onFlight q seq fun x => { x with parts := x.parts.map fun p => if p.tile = t then f p else p }

/-- A delivery packet reaches tile `t` (R93, R148, R461, R512): the descriptor has started; the part takes a slot, or waits at the
tile during a reset or a clear; a number without a tile ends its part with 0x24. -/
def packet (s : State) (t q seq : Nat) : State :=
  match s.flight? q seq with
  | none => s
  | some f =>
    if f.ordered || !(f.parts.any fun p => p.tile == t && p.st == .sent) then s
    else
      let s := s.onFlight q seq fun x => { x with started := true }
      let x := s.tile t
      if x.mode == .absent then (s.abortFlight q seq 0x24).onPart q seq t fun p => { p with st := .ended }
      else
        let s := s.onPart q seq t fun p => { p with st := .arrived }
        s.onTile t fun x =>
          if x.mode != .normal || !mayRun x (q, seq) then { x with waiting := x.waiting ++ [(q, seq)], doze := false }
          else { x with slots := x.slots ++ [(q, seq)], doze := false }

/-- A tile's report of an ended part reaches the sorter (R91): the slot is free, and after the last part the descriptor ends. -/
def report (s : State) (t : Nat) : State :=
  match s.sorter.flights.find? fun f => f.parts.any fun p => p.tile == t && p.st == .ended with
  | none => s
  | some f =>
    let s := (s.onPart f.queue f.seq t fun p => { p with st := .reported }).slotsFreed
    match s.flight? f.queue f.seq with
    | some f =>
      if f.parts.all fun p => p.st == .reported then
        (s.onFlight f.queue f.seq fun x => { x with dropped := x.dropped + x.ledgerLoss }).endFlight f.queue f.seq
      else s
    | none => s

/-! ## Writing records -/

/-- The zero-length reads that REGC asks for have been sent and answered, and every data write of the descriptor on another path
has been acknowledged or discarded (R108, R524). -/
def regcHolds (s : State) (c : CRecord) : Bool :=
  c.regc && ((!c.asked && !c.ports.isEmpty) || s.order.out.any fun x => x.desc == some (c.queue, c.seq))

/-- Sends the zero-length reads of a record that registers its completion (R524). -/
def askRegc (s : State) (r : Nat) (c : CRecord) : State :=
  let s := c.ports.foldl (fun (s : State) p =>
    if p.1 = 4 then
      (if s.hostUp then s.issue { id := 0, unit := .hubIo, write := false, dev := false, addr := p.2, bytes := 0, host := some p.2,
                                  desc := some (c.queue, c.seq), tout := s.timeoutOf 0 true } else s)
    else s.issue { id := 0, unit := .hubIo, write := false, dev := false, addr := p.2, bytes := 0,
                   desc := some (c.queue, c.seq), tout := s.timeoutOf p.2 false }) s
  s.onRing r fun x => { x with waiting := match x.waiting with
    | y :: rest => { y with asked := true } :: rest
    | [] => [] }

/-- The first waiting record of ring `r` is written, or placed in held mail (R106, R107, R108, R524, R527). -/
def writeRecord (s : State) (r : Nat) : State :=
  let x := s.ring r
  match x.waiting with
  | [] => s
  | c :: rest =>
    let pop (s : State) : State :=
      let s := s.onRing r fun y => { y with waiting := rest }
      if c.counted then s.inflightDown c.queue else s
    if !x.en then s
    else if c.regc && !c.asked && !c.ports.isEmpty then s.askRegc r c
    else if s.regcHolds c then s
    else if x.loc && s.flag Reg.HP_STAT.DETACHED then
      (if s.host.attaching then s else (s.holdMail false r (c.toBytes 0)) |> pop)
    else if x.full then s.rereadRing r
    else if s.slotHeld x.loc (x.base + x.tail % 2 ^ x.j * 32) 32 then s
    else pop (s.putCompletion r c.toBytes)

end State

/-! ## Rows -/

/-- DOORBELL (R71, R72, R73): LB_TAIL; every context reaches the letterboxes (R603). -/
def execDoorbell (by_ : Requester) (q : Fin 16384) (v : W32) (s : State) : Host.Outcome State Fault Refusal :=
  let s := s.awake by_
  if s.present by_ && s.answers 0x800000 then .next (s.doorbell q v.toNat) else .next s

/-- QUEUE_SELECT (R57, R50, R87). -/
def execQueueSelect (s : State) : Host.Outcome State Fault Refusal :=
  if s.admitting then
    match s.selected with
    | some q => .next (s.onPigeon q fun p => { p with fetching := true })
    | none => .next s
  else .next s

/-- DESCRIPTOR_FETCH_COMPLETE (R70, R75 to R80, R88 to R94). A detach, a close or a stop before it leaves the head unconsumed. -/
def execDescriptorFetchComplete (q : Fin 16384) (s : State) : Host.Outcome State Fault Refusal :=
  let p := s.pigeon q
  if !p.fetching || s.stepDue q then .next s
  else if !s.ready q || p.closing then .next (s.onPigeon q fun p => { p with fetching := false })
  else if s.headHeld q then .next s
  else if s.admitting then .next ((s.handleHead q).settle s)
  else .next s

/-- ORDERED_DELIVERY (R57, R92). -/
def execOrderedDelivery (q : Fin 16384) (seq : W32) (s : State) : Host.Outcome State Fault Refusal :=
  match s.flight? q seq.toNat with
  | some f =>
    let before := s.sorter.flights.takeWhile fun x => !(x.queue == q.val && x.seq == seq.toNat)
    if f.ordered && !s.maintBeat && !(before.any fun x => x.tset == f.tset && !x.parts.isEmpty) then .next (s.deliver f) else .next s
  | none => .next s

/-- DELIVERY_PACKET (R93). -/
def execDeliveryPacket (t : Fin 256) (q : Fin 16384) (seq : W32) (s : State) : Host.Outcome State Fault Refusal :=
  .next (s.packet t q seq.toNat)

/-- TILE_REPORT (R91). -/
def execTileReport (t : Fin 256) (s : State) : Host.Outcome State Fault Refusal := .next ((s.report t).settle s)

/-- COMPLETION_RECORD_WRITE (R105 to R108). -/
def execCompletionRecordWrite (r : Fin 4096) (s : State) : Host.Outcome State Fault Refusal :=
  .next ((s.writeRecord r).settle s)

/-- HEAD_COUNT_REREAD (R106): while a ring is full, its head count is read again. -/
def execHeadCountReread (r : RingRef) (s : State) : Host.Outcome State Fault Refusal :=
  match r with
  | .completion n => .next (if (s.ring n).en && (s.ring n).full then (s.rereadRing n).settle s else s)
  | .fault n => .next (if (s.fring n).en && (s.fring n).full then s.rereadFRing n else s)

/-- NOP of Table 3.4. -/
def execDescNop (q : Fin 16384) (seq : W32) (s : State) : Host.Outcome State Fault Refusal :=
  .next (s.manage 0x00 q seq.toNat fun f => (0, s.completeMgmt f))

def execQopen (q : Fin 16384) (seq : W32) (s : State) : Host.Outcome State Fault Refusal :=
  .next (s.manage 0x01 q seq.toNat s.qopen)

def execQclose (q : Fin 16384) (seq : W32) (s : State) : Host.Outcome State Fault Refusal :=
  .next (s.manage 0x02 q seq.toNat s.qclose)

/-- QCLOSE_COMPLETE (R82). -/
def execQcloseComplete (q : Fin 16384) (seq : W32) (s : State) : Host.Outcome State Fault Refusal :=
  match s.acting 0x02 q seq.toNat with
  | some f => .next ((s.qcloseDone f).settle s)
  | none => .next s

def execQresume (q : Fin 16384) (seq : W32) (s : State) : Host.Outcome State Fault Refusal :=
  .next (s.manage 0x03 q seq.toNat s.qresume)

def execCropen (q : Fin 16384) (seq : W32) (s : State) : Host.Outcome State Fault Refusal :=
  .next (s.manage 0x04 q seq.toNat s.cropen)

def execCrclose (q : Fin 16384) (seq : W32) (s : State) : Host.Outcome State Fault Refusal :=
  .next (s.manage 0x05 q seq.toNat fun f => (0, s.act f))

/-- CRCLOSE_COMPLETE (Table 3.5): no open queue names the ring. -/
def execCrcloseComplete (q : Fin 16384) (seq : W32) (s : State) : Host.Outcome State Fault Refusal :=
  match s.acting 0x05 q seq.toNat with
  | some f =>
    let n := body f.desc 0 2
    if s.sorter.pigeons.any fun p => p.2.en && p.2.cring == n then .next s
    else .next (((s.onRing n fun r => { r with en := false }).completeMgmt f).settle s)
  | none => .next s

def execTsdefine (q : Fin 16384) (seq : W32) (s : State) : Host.Outcome State Fault Refusal :=
  .next (s.manage 0x06 q seq.toNat s.tsdefine)

def execTsclear (q : Fin 16384) (seq : W32) (s : State) : Host.Outcome State Fault Refusal :=
  .next (s.manage 0x07 q seq.toNat s.tsclear)

/-- FENCE (R95): it waits, with SYNCWAIT set since its dispatch. -/
def execFence (q : Fin 16384) (seq : W32) (s : State) : Host.Outcome State Fault Refusal :=
  .next (s.manage 0x58 q seq.toNat fun f => (0, s.act f))

/-- FENCE_COMPLETE (R95): every earlier descriptor of the queue has completed and its record is written. -/
def execFenceComplete (q : Fin 16384) (seq : W32) (s : State) : Host.Outcome State Fault Refusal :=
  match s.acting 0x58 q seq.toNat with
  | some f =>
    let before := s.sorter.flights.takeWhile fun x => !(x.queue == q.val && x.seq == seq.toNat)
    if before.any (fun x => x.queue == q.val) || (s.ring (s.pigeon q).cring).waiting.any (fun c => c.queue == q.val) then .next s
    else .next ((s.endSync f 0).settle s)
  | none => .next s

/-- WAITROUND (R96). -/
def execWaitround (q : Fin 16384) (seq : W32) (s : State) : Host.Outcome State Fault Refusal :=
  .next (s.manage 0x59 q seq.toNat fun f =>
    (0, if s.roundReached (body f.desc 0 6) then s.endSync f 0 else s.act f))

/-- WAITTOKEN (R97). -/
def execWaittoken (q : Fin 16384) (seq : W32) (s : State) : Host.Outcome State Fault Refusal :=
  .next (s.manage 0x5A q seq.toNat fun f => (0, s.tokenWait f (s.act f)))

/-- WAITTOKEN_TIMEOUT (R97): the tick that begins round r0 + n has occurred. -/
def execWaittokenTimeout (q : Fin 16384) (seq : W32) (s : State) : Host.Outcome State Fault Refusal :=
  match s.acting 0x5A q seq.toNat with
  | some f => if s.waitTimedOut f then .next ((s.endSync f 0x25).settle s) else .next s
  | none => .next s

/-- LATE_DEBIT (R62): a beat that a late descriptor owes. -/
def execLateDebit (q : Fin 16384) (seq : W32) (s : State) : Host.Outcome State Fault Refusal :=
  match s.flight? q seq.toNat with
  | some f => .next (if f.debits < s.owed f then s.debit f else s)
  | none => .next s

end Sys2Proof.Machine
end

