-- ==== Sys2Proof/Machine/SortMode.lean ====
section
/-! DEFINITION. Sorting mode (R110 to R113): the keys and their order, stable sorting and merging, and its four rows. -/

namespace Sys2Proof.Machine

/-- The order number of a 64-bit key under a KEYMODE without DESC (Table 3.11): unsigned, two's complement, or the totalOrder
predicate of FP64. -/
def keyRank (mode key : Nat) : Nat :=
  if mode / 4 % 2 = 1 then (if key.testBit 63 then 2 ^ 64 - 1 - key else key + 2 ^ 63)
  else if mode / 2 % 2 = 1 then (key + 2 ^ 63) % 2 ^ 64
  else key

/-- Whether key `a` precedes key `b` (Table 3.11). -/
def keyBefore (mode a b : Nat) : Bool :=
  if mode % 2 = 1 then decide (keyRank mode b < keyRank mode a) else decide (keyRank mode a < keyRank mode b)

/-- A record: its key and payload. -/
abbrev SortRec := Nat × Nat

/-- Record `x` inserted before the first record that it does not follow. -/
def insertRec (mode : Nat) (x : SortRec) : List SortRec → List SortRec
  | [] => [x]
  | y :: rest => if keyBefore mode y.1 x.1 then y :: insertRec mode x rest else x :: y :: rest

/-- The stable sorted order of a row (R111). -/
def sortRecs (mode : Nat) (xs : List SortRec) : List SortRec := xs.foldr (insertRec mode) []

/-- The stable merge of two sorted lists: records of the first precede equal ones of the second (R111). -/
def mergeRecs (mode : Nat) (xs ys : List SortRec) : List SortRec := xs.foldr (insertRec mode) ys

/-- A list in order. -/
def sortedRecs (mode : Nat) : List SortRec → Bool
  | a :: b :: rest => !keyBefore mode b.1 a.1 && sortedRecs mode (b :: rest)
  | _ => true

/-- `n` records of 16 bytes. -/
def recsOf (bs : List Byte) : Nat → List SortRec
  | 0 => []
  | n + 1 => (leNat (bs.take 8), leNat ((bs.drop 8).take 8)) :: recsOf (bs.drop 16) n

def recBytes (xs : List SortRec) : List Byte := xs.flatMap fun x => leBytes 8 x.1 ++ leBytes 8 x.2

/-- Rows of `n` records. -/
def rowsOf (n : Nat) (xs : List SortRec) : Nat → List (List SortRec)
  | 0 => []
  | r + 1 => xs.take n :: rowsOf n (xs.drop n) r

/-- Destination bytes of a sorting-mode descriptor (Table 3.11). -/
def sortBytes (d : BitVec 512) : Nat :=
  match opOf d with
  | 0x50 => body d 24 4 * body d 28 2 * 16
  | 0x51 => (body d 24 4 + body d 32 4) * 16
  | _ => body d 36 2 * body d 28 2 * 16

namespace State

/-- `n` bytes that the manual leaves undefined (Log 3). -/
def freeBytes (s : State) : Nat → List Byte × State
  | 0 => ([], s)
  | n + 1 =>
    let (v, s) := s.draw 8
    let (bs, s) := s.freeBytes n
    (BitVec.ofNat 8 v :: bs, s)

/-- The sorting-mode descriptor that runs, if its opcode is `op` and its passes are still to be made (R113). -/
def sorting? (s : State) (op : Nat) : Option Flight :=
  match s.sorter.sorting with
  | (q, seq) :: _ =>
    match s.flight? q seq with
    | some f => if opOf f.desc == op && !s.sorter.sortDone && f.abort == 0 then some f else none
    | none => none
  | [] => none

/-- Microcode's accesses for a descriptor (Table 12.6). -/
def microWho (_ : State) (f : Flight) : Who :=
  { w := .microcode f.queue f.seq, ctx := ctxidOf f.desc, snap := f.snap, queue := f.queue, seq := f.seq }

/-- The passes are made. -/
def sortFinished (s : State) : State := { s with sorter := { s.sorter with sortDone := true } }

/-- A limit violation ends it: no destination byte is written (R383, R590). -/
def sortLimit (s : State) (f : Flight) : State :=
  ((s.abortFlight f.queue f.seq 0x21).addLoss f.queue f.seq { dropped := sortBytes f.desc }).sortFinished

/-- The output is written, and its records are counted. -/
def sortWrite (s : State) (f : Flight) (addr : Nat) (bs : List Byte) : State :=
  match s.bulkWrite (s.microWho f) addr (bs.map some) with
  | .limit => s.sortLimit f
  | .wait s => s
  | .done _ s => (s.bump Reg.SORT_REC_CNT.COUNT (bs.length / 16)).sortFinished

/-- The source records at `addr`; a byte that could not be read is a free value. -/
def sortRead (s : State) (f : Flight) (addr n : Nat) (k : List SortRec → State → State) : State :=
  match s.bulkRead 1 (s.microWho f) addr (16 * n) with
  | .limit => s.sortLimit f
  | .wait s => s
  | .done bs s =>
    let (b, s) := s.orFree bs
    k (recsOf b n) s

/-- SORT: with more than 4,096 records in a row, the merging passes leave SCRATCH undefined (Log 24). -/
def sortPass (s : State) (f : Flight) : State :=
  let d := f.desc
  let n := body d 24 4
  let rows := body d 28 2
  let out (xs : List SortRec) (s : State) : State :=
    s.sortWrite f (body d 8 8) (recBytes ((rowsOf n xs rows).flatMap (sortRecs (body d 30 1))))
  s.sortRead f (body d 0 8) (n * rows) fun xs s =>
    if n ≤ 4096 then out xs s
    else
      let (junk, s) := s.freeBytes (16 * n)
      match s.bulkWrite (s.microWho f) (body d 16 8) (junk.map some) with
      | .limit => s.sortLimit f
      | .wait s => s
      | .done _ s => out xs s

/-- MERGE of two sorted arrays. Where a source is not sorted, the manual states no result (Log 24). -/
def mergePass (s : State) (f : Flight) : State :=
  let d := f.desc
  let mode := body d 30 1
  s.sortRead f (body d 0 8) (body d 24 4) fun xs s =>
    s.sortRead f (body d 8 8) (body d 32 4) fun ys s =>
      if sortedRecs mode xs && sortedRecs mode ys then s.sortWrite f (body d 16 8) (recBytes (mergeRecs mode xs ys))
      else
        let (junk, s) := s.freeBytes (sortBytes d)
        s.sortWrite f (body d 16 8) junk

/-- TOPK: the first k of each row's sorted order. -/
def topkPass (s : State) (f : Flight) : State :=
  let d := f.desc
  s.sortRead f (body d 0 8) (body d 24 4 * body d 28 2) fun xs s =>
    s.sortWrite f (body d 8 8)
      (recBytes ((rowsOf (body d 24 4) xs (body d 28 2)).flatMap fun r => (sortRecs (body d 30 1) r).take (body d 36 2)))

/-- The front sorting-mode descriptor ends, and the next one runs (R113). -/
def sortEnd (s : State) : State :=
  match s.sorter.sorting with
  | [] => s
  | (q, seq) :: rest =>
    match s.flight? q seq with
    | some f =>
      if s.sorter.sortDone || f.abort != 0 then
        let s := { s with sorter := { s.sorter with sorting := rest, sortDone := false } }
        s.endFlight q seq
      else s
    | none => { s with sorter := { s.sorter with sorting := rest, sortDone := false } }

end State

/-- SORT (R110 to R113). -/
def execSort (s : State) : Host.Outcome State Fault Refusal :=
  match s.sorting? 0x50 with
  | some f => .next (s.sortPass f)
  | none => .next s

/-- MERGE (R111). -/
def execMerge (s : State) : Host.Outcome State Fault Refusal :=
  match s.sorting? 0x51 with
  | some f => .next (s.mergePass f)
  | none => .next s

/-- TOPK (R111). -/
def execTopk (s : State) : Host.Outcome State Fault Refusal :=
  match s.sorting? 0x52 with
  | some f => .next (s.topkPass f)
  | none => .next s

/-- SORTING_MODE_COMPLETE (R113). -/
def execSortingModeComplete (s : State) : Host.Outcome State Fault Refusal := .next (s.sortEnd.settle s)

end Sys2Proof.Machine
end

