-- ==== Sys2Proof/Machine/Contexts.lean ====
section
/-! DEFINITION. Contexts, segments, ownership, share sets, translation invalidation, fault rings and quotas: the management
descriptors 0x08 to 0x0F (chapter 12, R438, R439), and the writing of fault records (R389). -/

namespace Sys2Proof.Machine

/-- The 64 bytes of a fault record with its flag (Table 12.10). -/
def PFault.toBytes (f : PFault) (phase : Nat) : List Byte :=
  let u := faultGroup f.who
  leBytes 8 f.postmark ++ leBytes 8 f.va ++ leBytes 2 f.ctx ++ leBytes 2 f.id ++ leBytes 4 f.seq ++ leBytes 2 f.queue
    ++ leBytes 1 (faultSource f.who) ++ leBytes 1 f.cause ++ leBytes 1 f.access ++ leBytes 1 f.level ++ leBytes 1 f.unit
    ++ leBytes 1 u.1 ++ leBytes 4 u.2 ++ leBytes 4 f.age ++ leBytes 8 f.pte ++ leBytes 15 0 ++ leBytes 1 phase

/-- Tier of a granule's address: 0, 1 or 2 (Table 10.1). -/
def tierOfSpace : Space → Option Nat
  | .tier0 => some 0 | .tier1 => some 1 | .flash => some 2 | _ => none

/-- The entry of a SEGSET's body (Table 12.5). -/
def segOf (d : BitVec 512) : Seg :=
  let c := body d 32 1
  { base := body d 8 8, limit := body d 16 8, pbase := body d 24 8, tier := c / 16 % 4, paged := c.testBit 3, w := c.testBit 2,
    r := c.testBit 1 }

/-- V of a SEGSET's entry. -/
def segValid (d : BitVec 512) : Bool := (body d 32 1).testBit 0

/-- The entry that an OWNSET writes. -/
def ownsetEntry (d : BitVec 512) : Own :=
  { owner := body d 12 2, mode := body d 14 1 % 4, sro := (body d 14 1).testBit 2, sset := body d 16 2 }

/-- The 64 KiB ranges of a 2 MiB granule. -/
def rangesOf (g : Nat) : List Nat := (List.range 32).map fun i => g * 32 + i

namespace State

/-- `n` bytes of the entropy source (R543). -/
def entropy (s : State) (n : Nat) : List Byte × State :=
  ((Config.entropy s.tarle.draws).take n, { s with tarle := { s.tarle with draws := s.tarle.draws + 1 } })

def tierOf (s : State) (a : Nat) : Option Nat := (s.space a).bind tierOfSpace

/-! ## Contexts -/

/-- CTXOPEN (R367, R368, R371, R377, R559, R560, R563). -/
def ctxopen (s : State) (f : Flight) : Nat × State :=
  let d := f.desc
  let c := body d 0 2
  let root := body d 8 8
  let tenant := decide (16 ≤ c)
  if root ≠ 0 && !s.coherent root then (0x10, s)
  else if !tenant && c ≠ 1 && c ≠ 2 then (0x13, s)
  else if tenant && (s.ctxOpen c || 4096 ≤ s.xlat.ctxs.length + 1 || !s.locked) then (0x13, s)
  else
    let (ks, s) := if tenant && body d 2 1 == 0 then s.entropy 64 else ([], s)
    (0, (s.onCtx c fun x =>
      let x := if tenant then { sealing := if body d 2 1 == 1 then .unsealed else .plain, keys := ks } else x
      { x with ftimeout := body d 3 1, fring := body d 4 2, ptctx := body d 6 2, root := root, pasid := body d 16 4 }).completeMgmt f)

/-- A context is named by an enabled queue, ring, fault ring or tile set, owns a granule, or is in a share set (R372). -/
def ctxNamed (s : State) (c : Nat) : Bool :=
  (s.sorter.pigeons.any fun p => p.2.en && p.2.ctx == c) || (s.sorter.rings.any fun p => p.2.en && p.2.ctx == c)
    || (s.xlat.rings.any fun p => p.2.en && p.2.ctx == c) || (s.sorter.tsets.any fun p => p.2.en && p.2.owner == c)
    || (s.xlat.own.any fun p => p.2.owner == c && (p.2.mode == 1 || p.2.mode == 2) && !s.retired p.1)
    || (s.xlat.shares.any fun p => p.2.contains c)

/-- Removes translation-cache entries (R388). -/
def dropTlb (s : State) (leaf : TlbEntry → Bool) (node : WalkEntry → Bool) : State :=
  { s with xlat := { s.xlat with tlb := s.xlat.tlb.filter fun e => !leaf e, walks := s.xlat.walks.filter fun e => !node e } }

/-- Every entry of a context that maps any part of `n` pages from `va`, or all of them where `n` is 0; of every context where none
is named (R388). -/
def invalidateTlb (s : State) (c : Option Nat) (va n : Nat) : State :=
  let mine (x : Nat) : Bool := match c with
    | some c => x == c
    | none => true
  let p := va / 4096
  s.dropTlb (fun e => mine e.ctx && (n == 0 || (decide (e.page < p + n) && decide (p < e.page + e.pages))))
    (fun e =>
      let first := e.tag * 2 ^ (9 * (e.level + 1))
      mine e.ctx && (n == 0 || (decide (first < p + n) && decide (p < first + 2 ^ (9 * (e.level + 1))))))

/-- The debug sessions of a context end with it (R566): their groups have ended already. -/
def dropDebugOf (s : State) (c : Nat) : State :=
  if s.tarle.sessions.any fun p => p.2.ctx == c then
    { s with tarle := { s.tarle with sessions := s.tarle.sessions.filter fun p => p.2.ctx != c } }.assertSource 36
  else s

/-- CTXCLOSE (R372, R559). -/
def ctxclose (s : State) (f : Flight) : Nat × State :=
  let c := body f.desc 0 2
  if c < 16 || !s.ctxOpen c || s.ctxNamed c then (0x13, s)
  else
    let s := (s.invalidateTlb (some c) 0 0).dropDebugOf c
    let s := { s with
      xlat := { s.xlat with ctxs := AMap.erase s.xlat.ctxs c }
      tarle := { s.tarle with
        sealNonce := AMap.erase s.tarle.sealNonce c, dbgNonce := AMap.erase s.tarle.dbgNonce c } }
    (0, s.completeMgmt f)

/-! ## Segments -/

/-- An unpaged segment lies wholly in the range of its tier (R382). -/
def segInTier (s : State) (g : Seg) : Bool :=
  let last := g.pbase + (g.limit - g.base) - 1
  let want (x : Option Space) : Bool := match x, g.tier with
    | some .tier0, 0 | some .tier1, 1 | some .flash, 2 | some .outbound, 3 => true
    | _, _ => false
  want (s.space g.pbase) && want (s.space last)

/-- SEGSET (R381, R382, R563). The settings of 0x0000 never change (R371). -/
def segset (s : State) (f : Flight) : Nat × State :=
  let d := f.desc
  let c := body d 0 2
  let n := body d 2 1 % 16
  let g := segOf d
  if !s.ctxOpen c || s.sealedCtx c then (0x13, s)
  else if segValid d && (g.limit ≤ g.base || 2 ^ 48 < g.limit || (!g.paged && !s.segInTier g)) then (0x10, s)
  else
    let s := if c = 0 then s else
      s.onCtx c fun x => { x with segs := if segValid d then AMap.put x.segs n g else AMap.erase x.segs n }
    (0, s.act f)

/-- A unit holds a segment entry of context `c`: a read through a port, a granule of a move, or a stalled access was begun under it. -/
def segHeld (s : State) (c : Nat) : Bool :=
  (s.order.out.any fun x => x.ctx == c && x.desc.isSome && !x.write)
    || (s.movers.any fun p => ctxidOf p.2.desc == c && !(p.2.want.isEmpty && p.2.buf.isEmpty && p.2.out.isEmpty))
    || (s.xlat.faults.any fun f => f.ctx == c && f.joined.any fun j => match j.w with
      | .core _ | .group _ _ _ => false
      | _ => true)

/-- SEGSET completes when no unit holds the old entry (R382). -/
def segsetDone (s : State) (f : Flight) : State := if s.segHeld (body f.desc 0 2) then s else s.completeMgmt f

/-! ## Ownership -/

/-- Granules of a context in a tier (R439). -/
def granulesUsed (s : State) (c t : Nat) : Nat :=
  let inTier (g : Nat) : Bool := s.tierOf (g * 2 ^ 21) == some t
  if t = 2 then
    (s.flash.map.filter fun p => let o := s.ownOf ((flashBase + p.1 * 65536) / 2 ^ 21)
      o.owner == c && (o.mode == 1 || o.mode == 2)).length
  else
    let listed := s.xlat.own.filter fun p => inTier p.1
    let mine := (listed.filter fun p => p.2.owner == c && (p.2.mode == 1 || p.2.mode == 2) && !s.retired p.1).length
    let gone := ((List.range 256).filter fun e =>
      let g := s.get (Reg.MEM_RETIRE.GRANULE e)
      s.get (Reg.MEM_RETIRE.STATE e) == 2 && inTier g && !(listed.any fun p => p.1 == g)).length
    let whole := if t = 0 then reservedBase / 2 ^ 21 else s.nch * 2 ^ 11
    mine + (if s.xlat.initOwn == some c then whole - listed.length - gone else 0) + (if c = 0 && t = 0 then 2 ^ 11 else 0)

/-- The granules of a job whose entries change (R379). -/
def jobGranules (s : State) (j : OwnJob) : List Nat :=
  match j.leave with
  | some (n, _) => (s.xlat.own.filter fun p => p.2.mode == 2 && p.2.sset == n).map (·.1)
  | none => ((List.range j.granules).map (j.first + ·)).filter fun g => s.ownOf g != j.entry

/-- A job starts: new requests for its granules' lines are held at their homes (R379, step 1). -/
def startJob (s : State) (f : Flight) (j : OwnJob) : State :=
  let s := s.act f
  { s with
    xlat := { s.xlat with jobs := s.xlat.jobs ++ [j] }
    coh := { s.coh with heldGranules := s.coh.heldGranules ++ s.jobGranules j } }

/-- OWNSET (R378, R439, R563). -/
def ownset (s : State) (f : Flight) : Nat × State :=
  let d := f.desc
  let a := body d 0 8
  let n := body d 8 4
  let last := a + n * 2 ^ 21 - 1
  let e := ownsetEntry d
  let g := a / 2 ^ 21
  let gs := (List.range n).map (g + ·)
  match s.tierOf a with
  | none => (0x10, s)
  | some t =>
    if s.tierOf last ≠ some t then (0x10, s)
    else if (t = 0 && reservedBase ≤ last) || gs.any s.retired || e.mode = 3 || !s.ctxOpen e.owner
        || (e.mode = 2 && (1023 < e.sset || s.sealedCtx e.owner)) then (0x13, s)
    else
      let more := (gs.filter fun g => let o := s.ownOf g; !(o.owner == e.owner && (o.mode == 1 || o.mode == 2))).length
      let cap := (AMap.getD (s.ctxOf e.owner).quotas t {}).cap
      let tooMany := match cap with
        | some c => t < 2 && e.mode ≠ 0 && 0 < more && c < s.granulesUsed e.owner t + more
        | none => false
      if tooMany then (0x22, s)
      else (0, s.startJob f { queue := f.queue, seq := f.seq, granules := n, first := g, entry := e })

/-- SHARESET (R376, R379, R563): a removal takes the steps of R379. -/
def shareset (s : State) (f : Flight) : Nat × State :=
  let d := f.desc
  let n := body d 0 2
  let c := body d 4 2
  let ms := s.members n
  let remove := body d 2 1 == 1
  if !s.ctxOpen c || (!remove && s.sealedCtx c) then (0x13, s)
  else if remove then
    (if ms.contains c then
      (0, s.startJob f { queue := f.queue, seq := f.seq, granules := 0, first := 0, entry := {}, leave := some (n, c) })
    else (0, s.completeMgmt f))
  else
    let s := if ms.contains c then s else { s with xlat := { s.xlat with shares := AMap.put s.xlat.shares n (c :: ms) } }
    (0, s.completeMgmt f)

/-- A stable copy goes; one with a request or write-back on its way turns as a SnpI would turn it (Table 11.6). -/
def invalidateCopy (s : State) (a line : Nat) (c : CLine) : State :=
  match c.st with
  | .m | .o | .e | .s => (s.dropCline a line).agentLoses a line
  | .smA | .omA => (s.setCline a line { c with st := .imD }).agentLoses a line
  | .miA | .oiA | .eiA => s.setCline a line { c with st := .iiA }
  | _ => s

/-- Every cached copy of a granule's lines is invalidated at every agent, home portion and pocket cache, its newest bytes kept in
memory (R379, step 3). -/
def flushGranule (s : State) (g : Nat) : State :=
  let mine (line : Nat) : Bool := line * 128 / 2 ^ 21 == g
  let lines : List Nat := ((s.coh.lines.map fun (p : Nat × CLine) => p.1 % 2 ^ 45) ++ s.coh.copies.map fun (p : Nat × Line × Bool) => p.1).filter mine
  let s := lines.foldl (fun (s : State) line =>
    match s.lineValue 2 line with
    | (some l, s) => s.dramWrite 2 line l
    | (none, s) => s) s
  let s := (s.coh.lines.filter fun (p : Nat × CLine) => mine (p.1 % 2 ^ 45)).foldl
    (fun (s : State) p => s.invalidateCopy (p.1 / 2 ^ 45) (p.1 % 2 ^ 45) p.2) s
  let pockets : List Nat := (s.tiles.flatMap fun p => p.2.core.pocket.map (·.1) ++ p.2.core.evict.map (·.1) ++ (match p.2.core.wait with
    | .fill _ a _ _ _ _ _ => [a / 128]
    | _ => [])).filter mine
  let s := (lines ++ pockets).foldl (fun (s : State) line =>
    [0x20, 0x21, 0x22, 0x23].foldl (fun (s : State) a => s.agentLoses a line) s) s
  { s with coh := { s.coh with
      copies := s.coh.copies.filter fun p => !mine p.1
      copyLru := s.coh.copyLru.filter fun l => !mine l
      dir := s.coh.dir.filter fun p => !mine p.1
      dirLru := s.coh.dirLru.filter fun l => !mine l } }

/-- Step 4 of R379: zero, or in the flash window trimmed. -/
def zeroGranule (s : State) (g : Nat) : State :=
  let s := s.zeroRanges (rangesOf g)
  let s := (List.range (2 ^ 14)).foldl (fun s i => s.breakReservations (g * 2 ^ 14 + i)) s
  { s with flash := { s.flash with
      map := s.flash.map.filter fun p => !((flashBase + p.1 * 65536) / 2 ^ 21 == g) } }

/-- The ownership entry of a granule, listed where it differs from the default. -/
def putOwn (s : State) (g : Nat) (e : Own) : State :=
  { s with xlat := { s.xlat with
      own := if e = s.ownDefault g then AMap.erase s.xlat.own g else AMap.put s.xlat.own g e } }

/-- Every request checked against the old entries of these granules has ended, the movers' flash accesses among them (R379, step 2). -/
def granulesQuiet (s : State) (gs : List Nat) : Bool :=
  let mine (line : Nat) : Bool := gs.contains (line * 128 / 2 ^ 21)
  let flash (g : Nat) : Bool := gs.contains ((flashBase + g * 65536) / 2 ^ 21)
  !(s.coh.serving.any fun p => mine p.1) && !(s.coh.waiting.any fun p => mine p.1 && !p.2.isEmpty)
    && !(s.movers.any fun p => p.2.want.any flash || (p.2.buf.any fun e => flash e.1) || p.2.out.any fun e => flash e.1)

/-- Steps 2 to 5 of a job (R379), and its descriptor's completion. -/
def finishJob (s : State) (f : Flight) (j : OwnJob) : State :=
  let gs := s.jobGranules j
  if !s.granulesQuiet gs then s
  else
    let s := gs.foldl (fun s g =>
      let o := s.ownOf g
      let s := s.flushGranule g
      match j.leave with
      | some _ => s
      | none => (if o.owner ≠ j.entry.owner || o.mode ≠ j.entry.mode then s.zeroGranule g else s).putOwn g j.entry) s
    let s := match j.leave with
      | some (n, c) => { s with xlat := { s.xlat with shares := AMap.put s.xlat.shares n ((s.members n).filter (· != c)) } }
      | none => s
    let s : State := { s with xlat := { s.xlat with jobs := s.xlat.jobs.erase j } }
    let others := s.xlat.jobs.flatMap s.jobGranules
    let s := { s with coh := { s.coh with heldGranules := s.coh.heldGranules.filter fun g => !gs.contains g || others.contains g } }
    s.completeMgmt f

/-! ## Translation invalidation, fault rings, quotas -/

/-- TLBINV's check (R388). -/
def tlbinv (s : State) (f : Flight) : Nat × State :=
  if body f.desc 2 1 == 0 && !s.ctxOpen (body f.desc 0 2) then (0x13, s) else (0, s.act f)

def tlbinvDone (s : State) (f : Flight) : State :=
  let d := f.desc
  (s.invalidateTlb (if body d 2 1 == 1 then none else some (body d 0 2)) (body d 8 8) (body d 16 4)).completeMgmt f

/-- FROPEN with CLOSE 0 (R389, Table 12.9). An enabled number is rejected (Table 21.3); FAULTIDs
continue, and the records that wait are kept. -/
def fropen (s : State) (f : Flight) : Nat × State :=
  let d := f.desc
  let w0 := body d 8 8
  let w2 := body d 24 8
  if (s.fring (body d 0 2)).en then (0x10, s)
  else (0, (s.onFRing (body d 0 2) fun r => { r with
    base := w0 / 2 ^ 12 * 2 ^ 12, j := w0 / 2 ^ 3 % 32, loc := w0 / 4 % 2 == 1, headAddr := body d 16 8, pasid := w2 / 2 ^ 44,
    evsrc := w2 / 2 ^ 32 % 2 ^ 10, ctx := w2 / 2 ^ 16 % 2 ^ 16, en := true, tail := 0, h := 0 }).completeMgmt f)

/-- FROPEN with CLOSE 1 (R389). -/
def frclose (s : State) (f : Flight) : Nat × State :=
  (0, (s.onFRing (body f.desc 0 2) fun r => { r with en := false }).completeMgmt f)

/-- QUOTA with QUERY 0 (R438). -/
def quotaSet (s : State) (f : Flight) : Nat × State :=
  let d := f.desc
  let c := body d 0 2
  if !s.ctxOpen c then (0x13, s)
  else
    let q : Quota := { cap := if body d 4 4 = 0xFFFFFFFF then none else some (body d 4 4), moveb := body d 8 8 }
    let s := if c = 0 then s else s.onCtx c fun x => { x with quotas := AMap.put x.quotas (body d 2 1) q }
    (0, s.completeMgmt f)

/-- QUOTA with QUERY 1 (R438): three words at REPORT, written with the descriptor's CTXID. -/
def quotaQuery (s : State) (f : Flight) : Nat × State :=
  let d := f.desc
  let c := body d 0 2
  let t := body d 2 1
  if !s.ctxOpen c then (0x13, s)
  else
    let q := AMap.getD (s.ctxOf c).quotas t {}
    let bs := leBytes 8 (q.cap.getD 0xFFFFFFFF) ++ leBytes 8 (s.granulesUsed c t) ++ leBytes 8 q.moveb
    let (l, s) := s.writeBytes (ctxidOf d) (body d 16 8) (bs.map some)
    (0, (s.addLoss f.queue f.seq l).completeMgmt f)

/-- A management step with a condition on its body. -/
def manageIf (s : State) (op q seq : Nat) (p : BitVec 512 → Bool) (k : Flight → Nat × State) : State :=
  match s.due op q seq with
  | some f => if p f.desc then s.manage op q seq k else s
  | none => s

/-- The first waiting record of fault ring `f` is written, or placed in held mail (R389, R527). -/
def writeFault (s : State) (f : Nat) : State :=
  let x := s.fring f
  match x.waiting with
  | [] => s
  | c :: rest =>
    let pop (s : State) : State := s.onFRing f fun y => { y with waiting := rest }
    if !x.en then s
    else if x.loc && s.flag Reg.HP_STAT.DETACHED then
      (if s.host.attaching then s else pop (s.holdMail true f (c.toBytes 0)))
    else if x.full then s.rereadFRing f
    else if s.slotHeld x.loc (x.base + x.tail % 2 ^ x.j * 64) 64 then s
    else pop (s.putFault f c.toBytes)

end State

/-! ## Rows -/

def execCtxopen (q : Fin 16384) (seq : W32) (s : State) : Host.Outcome State Fault Refusal :=
  .next (s.manage 0x08 q seq.toNat s.ctxopen)

def execCtxclose (q : Fin 16384) (seq : W32) (s : State) : Host.Outcome State Fault Refusal :=
  .next (s.manage 0x09 q seq.toNat s.ctxclose)

def execSegset (q : Fin 16384) (seq : W32) (s : State) : Host.Outcome State Fault Refusal :=
  .next (s.manage 0x0A q seq.toNat s.segset)

/-- SEGSET_COMPLETE (R382). -/
def execSegsetComplete (q : Fin 16384) (seq : W32) (s : State) : Host.Outcome State Fault Refusal :=
  match s.acting 0x0A q seq.toNat with
  | some f => .next ((s.segsetDone f).settle s)
  | none => .next s

def execOwnset (q : Fin 16384) (seq : W32) (s : State) : Host.Outcome State Fault Refusal :=
  .next (s.manage 0x0B q seq.toNat s.ownset)

/-- OWNSET_COMPLETE (R379): also of a SHARESET that removes a member. -/
def execOwnsetComplete (q : Fin 16384) (seq : W32) (s : State) : Host.Outcome State Fault Refusal :=
  match s.flight? q seq.toNat, s.xlat.jobs.find? fun j => j.queue == q.val && j.seq == seq.toNat with
  | some f, some j => .next ((s.finishJob f j).settle s)
  | _, _ => .next s

def execShareset (q : Fin 16384) (seq : W32) (s : State) : Host.Outcome State Fault Refusal :=
  .next (s.manage 0x0C q seq.toNat s.shareset)

def execTlbinv (q : Fin 16384) (seq : W32) (s : State) : Host.Outcome State Fault Refusal :=
  .next (s.manage 0x0D q seq.toNat s.tlbinv)

/-- TLBINV_COMPLETE (R388). -/
def execTlbinvComplete (q : Fin 16384) (seq : W32) (s : State) : Host.Outcome State Fault Refusal :=
  match s.acting 0x0D q seq.toNat with
  | some f => .next ((s.tlbinvDone f).settle s)
  | none => .next s

def execFropen (q : Fin 16384) (seq : W32) (s : State) : Host.Outcome State Fault Refusal :=
  .next (s.manageIf 0x0E q seq.toNat (fun d => body d 2 1 == 0) s.fropen)

def execFrclose (q : Fin 16384) (seq : W32) (s : State) : Host.Outcome State Fault Refusal :=
  .next (s.manageIf 0x0E q seq.toNat (fun d => body d 2 1 == 1) s.frclose)

/-- QUOTA_SET (R438, R439). -/
def execQuotaSet (q : Fin 16384) (seq : W32) (s : State) : Host.Outcome State Fault Refusal :=
  .next (s.manageIf 0x0F q seq.toNat (fun d => body d 3 1 == 0) s.quotaSet)

/-- QUOTA_QUERY (R439). -/
def execQuotaQuery (q : Fin 16384) (seq : W32) (s : State) : Host.Outcome State Fault Refusal :=
  .next (s.manageIf 0x0F q seq.toNat (fun d => body d 3 1 == 1) s.quotaQuery)

/-- FAULT_RECORD_WRITE (R389). -/
def execFaultRecordWrite (f : Fin 64) (s : State) : Host.Outcome State Fault Refusal := .next (s.writeFault f)

/-- MFLSCTX_WRITE (R369): only in M-mode, in which the command says that the hart is (Log 129). -/
def execMflsctxWrite (h : Fin 32) (machineMode : Bool) (v : W64) (s : State) : Host.Outcome State Fault Refusal :=
  if machineMode && (s.hart h).running then .next (s.onHart h fun t => { t with mflsctx := v.toNat % 2 ^ 16, mode := .machine }) else .next s

end Sys2Proof.Machine
end

