-- ==== Sys2Proof/Machine/TileOps.lean ====
section
/-! DEFINITION. The tile's operations (chapters 4 and 13): registers of the control core, parts, token waits, traps and tile resets,
the pocket cache with its merging buffer, and the targets of a core's accesses. -/

namespace Sys2Proof.Machine

/-- Event source of a tile (Table 16.1). -/
def tileSource (t : Nat) : Nat := 512 + t

/-- KIND and UNIT of an access's dead letter (Table 21.2). -/
def accKind : AccUnit → Nat × Nat
  | .hart h => (0, h) | .core t => (1, t) | .thread t _ _ => (2, t) | .fill t => (3, t) | .store t => (4, t)
  | .mover m => (5, m) | .hubIo => (6, 0)

/-- Tile of an access's unit. -/
def accTile : AccUnit → Option Nat
  | .core t | .thread t _ _ | .fill t | .store t => some t
  | _ => none

/-- Tile of a waiter. -/
def waiterTile : Waiter → Option Nat
  | .core t | .group t _ _ | .fill t | .store t => some t
  | _ => none

/-- Where a core's access goes. -/
inductive Target where
  /-- Not yet: a page fault is outstanding. -/
  | wait (s : State)
  /-- A precise access fault; from an uncorrectable read, or not. -/
  | trap (s : State) (unc : Bool)
  /-- Coherent memory, with its effective type 0 WB, 1 UCM, 2 DEV. -/
  | mem (s : State) (a eff : Nat)
  | device (s : State) (off eff : Nat)
  | port (s : State) (a eff : Nat)
  | host (s : State) (bus eff : Nat)
  deriving DecidableEq, Repr

/-- The runs of set bits of a byte mask: first byte and length. -/
def maskRuns (m : BitVec 128) : List (Nat × Nat) :=
  (List.range 128).foldr (fun i acc =>
    if m.getLsbD i then
      match acc with
      | (j, n) :: rest => if j = i + 1 then (i, n + 1) :: rest else (i, 1) :: acc
      | [] => [(i, 1)]
    else acc) []

/-! ## What holds the head of an engine's queue -/

/-- The head's take is outstanding: its counter, where WEN is 1 (R131, R132). -/
def headWants (x : EngineSt) : Option Nat :=
  match x.queue with
  | d :: _ => if !x.taken && d.getLsbD 15 then some (bitsOf d 10 5) else none
  | [] => none

/-- Kc of MX.SETM's pair, where Table 6.1 lists it. -/
def modeKc (m : MatrixSt) : Option Nat := pairKc (bitsOf m.mode 91 5) (bitsOf m.mode 86 5)

/-- FMTA of the mode is FP64, and so the pair is sliced. -/
def modeSliced (m : MatrixSt) : Bool := bitsOf m.mode 91 5 == 0

/-- A bank of an engine. -/
def bankOf (m : MatrixSt) (b : Nat) : Bank := m.banks.getD b {}

def anyBank (m : MatrixSt) (st : BankSt) : Bool := m.banks.any fun b => b.st == st

/-- A matrix command waits under Table 6.10, or for the in-tray (R210, R212); an MX.SETM with SROPEN waits for the roundings of earlier
DONE commands (R189). -/
def matrixHeld (m : MatrixSt) (d : BitVec 128) : Bool :=
  match bitsOf d 0 8 with
  | 1 => d.getLsbD 76 && !m.closing.isEmpty
  | 3 =>
    (if modeSliced m then d.getLsbD 43 && !anyBank m .acc64 && m.banks.any fun b => b.st != .free
      else d.getLsbD 43 && ((bankOf m (bitsOf d 44 2)).st == .closing || (bankOf m (bitsOf d 44 2)).st == .tray))
      || (d.getLsbD 41 && match m.inTray.find? fun i => !i.used with
        | some i => !i.full
        | none => true)
  | 4 => anyBank m .close64
  | _ => false

/-- Summary entries of a program (R234). -/
def summCount (p : List W64) : Nat := (p.filter fun i => bitsOf i 56 8 == 0x70).length

/-- A run waits for the out-tray, the in-tray or the summary FIFO (R237, R241, R242). -/
def runHeld (x : Tile) (d : BitVec 128) : Bool :=
  let need := summCount (AMap.getD x.vector.programs (bitsOf d 125 3) [])
  let kept := x.vector.runs.foldl (fun n r => n + r.summaries.length) 0
  bitsOf d 0 8 == 3
    && ((d.getLsbD 112 && x.matrix.tray.isEmpty) || (d.getLsbD 111 && 2 ≤ x.matrix.inTray.length)
      || decide (64 < x.fifo.length + kept + need))

/-- The head of a queue remains unsatisfied (R130, R210, R237, R242). -/
def headWaits (x : Tile) (e : Engine) (q : EngineSt) : Bool :=
  match headWants q, q.queue with
  | some c, _ => AMap.getD x.tokens c 0 == 0
  | none, d :: _ => (e == .matrix && matrixHeld x.matrix d) || (e == .vector && runHeld x d)
  | none, [] => false

namespace State

/-! ## The control core -/

def coreReg (s : State) (t r : Nat) : W64 := if r % 32 = 0 then 0 else AMap.getD (s.tile t).core.x (r % 32) 0

def onCore (s : State) (t : Nat) (f : CoreSt → CoreSt) : State := s.onTile t fun x => { x with core := f x.core }

/-- Integer register `r` written; x0 reads as zero. -/
def setCoreReg (s : State) (t r : Nat) (v : W64) : State :=
  if r % 32 = 0 then s else s.onCore t fun c => { c with x := AMap.put c.x (r % 32) v }

def coreFReg (s : State) (t r : Nat) : W64 := AMap.getD (s.tile t).core.f (r % 32) 0
def setCoreFReg (s : State) (t r : Nat) (v : W64) : State := s.onCore t fun c => { c with f := AMap.put c.f (r % 32) v }

/-- The instruction has completed. -/
def retire (s : State) (t : Nat) : State := s.onCore t fun c => { c with pc := c.pc + 4, retired := (c.retired + 1) % 2 ^ 64 }

/-- CSR time of control cores, threads and node cores, and mtime: node time (R36, R118, R278). -/
def timeCsr (s : State) : Nat := s.now

/-- CSR cycle of control cores and threads: half-rate cycles (R118, R278; Log 128). -/
def cycleCsr (s : State) : Nat := s.time.cycle / 2 % 2 ^ 64

/-- CSR instret of a control core (R118). -/
def instretCsr (s : State) (t : Nat) : Nat := (s.tile t).core.retired

/-- The accesses of a tile's control core, fill unit or store engine for its running descriptor. -/
def tileWho (s : State) (t : Nat) (w : Waiter) : Who :=
  match s.running t with
  | some f => { w := w, ctx := ctxidOf f.desc, snap := f.snap, queue := f.queue, seq := f.seq }
  | none => { w := w, ctx := 0, snap := {}, queue := 0, seq := 0 }

/-- The control core can execute an instruction: its program runs, it waits for nothing, no fault stalls it, no load of it is
outstanding, and the cycle is not lost to throttling (R30, R495, R497). -/
def coreReady (s : State) (t : Nat) : Bool :=
  let c := (s.tile t).core
  c.running && c.wait == .none && (s.tile t).mode == .normal && !s.stalled (.core t) && !s.throttled t
    && !(s.order.out.any fun x => x.unit == .core t && !x.write)

/-! ## Parts -/

/-- The descriptor whose part comes first in a tile's slots and has not started, if its opcode is `op` (R91, R93); a tile
under test takes none (Table 2.1). -/
def partHead (s : State) (t op : Nat) : Option Flight :=
  let x := s.tile t
  if x.active || x.mode != .normal || s.underTest t then none
  else
    match x.slots with
    | (q, seq) :: _ =>
      match s.flight? q seq with
      | some f => if opOf f.desc == op then some f else none
      | none => none
    | [] => none

/-- The opcode is one of tile microcode's: GEMM, GGEMM or CHAIN. -/
def jobOp (op : Nat) : Bool := 0x12 ≤ op && op ≤ 0x14

/-- The part at the head starts: the settings and banks of the matrix and vector engines become invalid (R189, R209, R233, R240), and the
core is in M-mode for tile microcode (R118). -/
def startPart (s : State) (t : Nat) (f : Flight) : State :=
  (s.onPart f.queue f.seq t fun p => { p with st := .running }).onTile t fun x => { x with
    active := true, doze := false, flags := 0
    core := { x.core with mmode := jobOp (opOf f.desc) }
    matrix := { gens := x.matrix.gens, steps := x.matrix.steps, rows := x.matrix.rows, cols := x.matrix.cols }
    vector := { gens := x.vector.gens } }

/-- A tile that must clear starts to do so once its old work has ended and no reset is in progress (R148). -/
def tryClear (s : State) (t : Nat) : State :=
  match (s.tile t).clears with
  | [] => s
  | (set, old) :: rest =>
    let held := s.sorter.flights.any fun f => old.contains (f.queue, f.seq) &&
      f.parts.any fun p => p.tile == t && p.st != .ended && p.st != .reported
    if (s.tile t).mode == .normal && !held then
      s.onTile t fun x => { x with mode := .clearing s.time.cycle set, clears := rest }
    else s

/-- The scratchpad's contents are undefined after a job of tile microcode (R271). -/
def spUndefined (s : State) (t : Nat) : State :=
  let s := { s with ident := { s.ident with losses := s.ident.losses + 1 } }
  s.onTile t fun x => { x with sp := [], spLost := some s.ident.losses, chain := {} }

/-- The tile's running part ends; its report is then due (R91), its FLUSHED flags enter the record (R173), and the scratchpad that a
job of tile microcode used is undefined, however the part ended (R271). -/
def endPart (s : State) (t : Nat) : State :=
  match (s.tile t).slots with
  | (q, seq) :: rest =>
    let flags := (s.tile t).flags
    let s := if (s.tile t).active && (s.flight? q seq).any fun f => jobOp (opOf f.desc) then s.spUndefined t else s
    (((s.onFlight q seq fun f => { f with flushed := f.flushed ||| flags }).onPart q seq t fun p => { p with st := .ended }).onTile t fun x => { x with
      slots := rest, active := false, idleSince := s.time.cycle
      core := { x.core with running := false, wait := .none, resv := none, waitTicks := 0 } }).tryClear t
  | [] => s

/-- Position of a tile in its descriptor's tile set, and the number of tiles (R120). -/
def tileIndex (_ : State) (f : Flight) (t : Nat) : Nat × Nat :=
  ((f.parts.filter fun p => p.tile < t).length, f.parts.length)

/-! ## The row ledger's posts (R264 to R266; Log 115) -/

/-- The stores of a record (column `col`), or of a strip's entries, have been acknowledged or discarded. -/
def ledgerAcked (s : State) (f : Flight) (strip : Nat) (col : Option Nat) : Bool :=
  !(f.acks.any fun w => w.strip == strip && w.col == col &&
    s.order.out.any fun x => x.write && x.unit == .store w.tile && decide (w.first ≤ x.id) && decide (x.id < w.before))

/-- Every record of a strip has been posted. -/
def recordsPosted (s : State) (f : Flight) (strip : Nat) : Bool :=
  (stripTiles f.job strip).all fun o => f.posted.contains (strip, o.col) && s.ledgerAcked f strip (some o.col)

/-- A record of a strip will never be posted: the tile that holds its output tile has been reset (R272). -/
def recordsLost (f : Flight) (strip : Nat) : Bool :=
  (stripTiles f.job strip).any fun o => !(f.posted.contains (strip, o.col)) && (f.holderOf o.num).any partOver

/-- A home fold of the strip can be run by tile `t`. -/
def foldDue (s : State) (f : Flight) (t strip : Nat) : Bool :=
  ledgerMode f.job != 0 && (f.homeOf strip).any (fun p => p.tile == t) && (AMap.get? f.strips strip).isNone
    && (s.recordsPosted f strip || recordsLost f strip)

/-- The closing pass of a held tile of the strip can be run by tile `t`, or the strip given up, since its home has been reset. -/
def closeDue (s : State) (f : Flight) (t strip : Nat) : Bool :=
  (f.stripsOf t).contains strip &&
    match AMap.get? f.strips strip with
    | none => ledgerMode f.job != 0 && (f.homeOf strip).any partOver
    | some _ => s.ledgerAcked f strip none && (stripTiles f.job strip).any fun o => (AMap.get? (s.tile t).chain.held o.num).isSome

/-- A post that the tile's job can take: a fold or a closing pass comes before its next unit (R266). -/
def ledgerDue (s : State) (f : Flight) (t : Nat) : Bool :=
  ledgerMode f.job != 0 && (f.stripsOf t).any fun k => s.foldDue f t k || s.closeDue f t k

/-- The tile's job waits for a post as a token take waits (R272). -/
def chainWaits (s : State) (t : Nat) : Bool :=
  (s.tile t).chain.waiting && (s.running t).any fun f => !s.ledgerDue f t

/-- The posts that a tile has not made as it is reset, for stores not yet acknowledged, are never made. -/
def dropPosts (s : State) (t : Nat) : State :=
  match s.running t with
  | none => s
  | some f =>
    if f.acks.isEmpty then s
    else s.onFlight f.queue f.seq fun x => { x with
      posted := x.posted.filter fun p => s.ledgerAcked f p.1 (some p.2) || !(f.acks.any fun w => w.tile == t && w.strip == p.1)
      strips := x.strips.filter fun p => s.ledgerAcked f p.1 none || !(f.acks.any fun w => w.tile == t && w.strip == p.1) }

/-! ## Token counters -/

def counterOf (s : State) (t c : Nat) : Nat := AMap.getD (s.tile t).tokens c 0
def setCounter (s : State) (t c n : Nat) : State := s.onTile t fun x => { x with tokens := AMap.put x.tokens c n }

/-! ## Traps and tile resets -/

/-- A tile reset begins (R581): its units stop issuing, and commands not begun are dropped. -/
def tileReset (s : State) (t : Nat) : State :=
  if (s.tile t).mode == .normal then
    let s := s.onTile t fun x => { x with
      mode := .draining s.time.cycle
      core := { x.core with running := false, wait := .none, resv := none }
      ld := { x.ld with queue := [], started := [] }, mx := { x.mx with queue := [], started := [] }
      ve := { x.ve with queue := [], started := [] }, st := { x.st with queue := [], started := [] } }
    { s with xlat := { s.xlat with
        faults := s.xlat.faults.map fun f => { f with joined := f.joined.filter fun j => waiterTile j.w != some t }
        resumed := s.xlat.resumed.filter fun r => waiterTile r.by_.w != some t
        beyond := s.xlat.beyond.filter fun r => waiterTile r.by_.w != some t } }
  else s

/-- A fatal trap (R122): counted, its source raised, the tile reset, and the part to end with 0x24. A tile that is being reset takes
none. -/
def fatalTrap (s : State) (t : Nat) (unc : Bool := false) : State :=
  if (s.tile t).mode != .normal then s
  else
    let s := (s.bump (Reg.CT_TRAP_CNT.COUNT t)).signal (tileSource t)
    let s := match s.running t with
      | some f => (s.abortFlight f.queue f.seq 0x24).onFlight f.queue f.seq fun x =>
          if unc then { x with errcnt := x.errcnt + 1 } else x
      | none => s
    s.tileReset t

/-- The dead letter of an access (Table 21.2). -/
def accessLetter (s : State) (cause : Nat) (x : Access) : State :=
  let k := accKind x.unit
  s.deadLetter
    { postmark := 0, num := 0, cause := cause, kind := k.1, unit := k.2, phys := 0, ctx := x.ctx
      queue := match x.desc with | some (q, _) => q + 2 ^ 15 | none => 0
      seq := match x.desc with | some (_, n) => n | none => 0
      bytes := x.bytes, addr := x.addr
      age := (if cause = 3 then s.order.timer else s.order.timer / 1000 * 1000) - x.issued, node := 0
      tout := if cause = 3 then 0 else x.tout, merged := 0 }

/-- The unit has an access of the line under way in the coherent memory. -/
def isTry (u : AccUnit) (line : Nat) (x : Access) : Bool := x.unit == u && x.addr / 128 == line

/-- An access of a core or a lane waits for its line; it is timed from the first such attempt (R412). -/
def tries (s : State) (x : Access) : State :=
  if s.order.tried.any fun y => isTry x.unit (x.addr / 128) y && y.write == x.write then s
  else { s with order := { s.order with
    tried := s.order.tried ++ [{ x with issued := s.order.timer, tout := s.timeoutOf x.addr false }] } }

/-- The access to the line has ended. -/
def tryEnds (s : State) (u : AccUnit) (line : Nat) : State :=
  { s with order := { s.order with tried := s.order.tried.filter fun x => !isTry u line x } }

/-- The unit's accesses to coherent lines have ended. -/
def triesEnd (s : State) (u : AccUnit) : State :=
  { s with order := { s.order with tried := s.order.tried.filter fun x => x.unit != u } }

/-- The store to the line that waits has been discarded (R413). -/
def storeGone (s : State) (u : AccUnit) (line : Nat) : Bool :=
  s.order.tried.any fun x => isTry u line x && x.write && x.got.isSome

/-- A store left at the end of a reset drain is discarded (Table 13.3, R594). -/
def drainDrop (s : State) (x : Access) : State :=
  let s := (s.bump Reg.MO_DRAINDROP_CNT.COUNT).accessLetter 3 x
  match x.desc with
  | some (q, n) => s.addLoss q n { dropped := x.bytes }
  | none => s

/-- An entry of a merging buffer as a store. -/
def mergeAccess (s : State) (t : Nat) (e : MergeEntry) : Access :=
  let n := ((List.range 128).filter fun i => e.mask.getLsbD i).length
  { id := 0, unit := .core t, write := true, dev := false, addr := e.line * 128, bytes := n, ctx := e.ctx
    desc := (s.running t).map fun f => (f.queue, f.seq), issued := s.order.timer }

/-- A tile's outstanding stores. -/
def tileStores (s : State) (t : Nat) : List Access := s.order.out.filter fun x => accTile x.unit == some t && x.write

/-- The reset drain of a tile is over: nothing is left, or its limit has passed (Table 13.3). -/
def drainOver (s : State) (t since : Nat) : Bool :=
  ((s.tile t).core.merge.isEmpty && (s.tileStores t).isEmpty)
    || decide (since + 4000 * s.get Reg.MO_CTL.DRAINTO ≤ s.time.cycle)

/-- What the tile column of Table 20.6 leaves of a tile: the scratchpad, the token counters, and the work that waits. -/
def tileCleared (x : Tile) : Tile :=
  { slots := x.slots, waiting := x.waiting, active := x.active, mode := x.mode, clears := x.clears,
    tokens := x.tokens, sp := x.sp, spLost := x.spLost, spBad := x.spBad, flags := x.flags, doze := x.doze, idleSince := x.idleSince }

/-- The stores left are discarded, the tile's units take their reset values, and the running part ends (R581). -/
def resetUnits (s : State) (t : Nat) : State :=
  let s := s.dropPosts t
  let left := s.tileStores t ++ (s.tile t).core.merge.map (s.mergeAccess t)
  let s := left.foldl (fun s x => s.drainDrop x) s
  let mine := s.order.out.filter fun x => accTile x.unit == some t
  let s := { s with order := { s.order with
    out := s.order.out.filter fun x => accTile x.unit != some t
    tried := s.order.tried.filter fun x => accTile x.unit != some t
    late := s.order.late ++ mine.map fun (x : Access) => x.id } }
  let s := s.dropTlb (fun e => match e.id with
    | .itlb n | .dtlb n | .thread n | .engine n => n == t
    | .hub => false) (fun _ => false)
  let was := (s.tile t).active
  let s := s.onTile t tileCleared
  let s := if was then s.endPart t else s
  s.onTile t fun x => { x with mode := .resetting s.time.cycle }

/-! ## The pocket cache and the merging buffer (R139 to R141) -/

/-- A line enters the cache; the least recently used line goes to the eviction buffer, whose oldest entry is dropped. -/
def pocketAllocate (s : State) (t line : Nat) (l : Line) : State :=
  s.onCore t fun c =>
    let all := (line, l) :: c.pocket.filter fun p => p.1 != line
    let evict := c.evict.filter fun p => p.1 != line
    { c with pocket := all.take 48, evict := (all.drop 48 ++ evict).take 4 }

/-- The bytes of a line in the cache or the eviction buffer, with the cache as cases 1 and 2 of Table 4.7 leave it. -/
def pocketFind (s : State) (t line : Nat) : Option (Line × State) :=
  let c := (s.tile t).core
  match (c.pocket ++ c.evict).find? fun p => p.1 == line with
  | some p => some (p.2, s.pocketAllocate t line p.2)
  | none => none

/-- Copies of a line are changed by a WB store (case 5). -/
def pocketWrite (s : State) (t line : Nat) (d : Line) (m : BitVec 128) : State :=
  let up (p : Nat × Line) : Nat × Line := if p.1 == line then (line, lineMerge p.2 d m) else p
  s.onCore t fun c => { c with pocket := c.pocket.map up, evict := c.evict.map up }

/-- Copies of a line go (case 14). -/
def pocketDrop (s : State) (t line : Nat) : State :=
  s.onCore t fun c => { c with pocket := c.pocket.filter (fun p => p.1 != line), evict := c.evict.filter (fun p => p.1 != line) }

/-- An entry of the merging buffer holds bytes of a line. -/
def merging (s : State) (t line : Nat) : Bool := (s.tile t).core.merge.any fun e => e.line == line && !e.host

/-- The entries up to the last that `p` selects begin draining: they drain in allocation order (R141). -/
def startDrain (s : State) (t : Nat) (p : MergeEntry → Bool) : State :=
  s.onCore t fun c =>
    let n := (c.merge.reverse.dropWhile fun e => !p e).length
    { c with merge := (c.merge.take n).map (fun e => { e with draining := true }) ++ c.merge.drop n }

/-- A store enters the merging buffer; none while it is full with no mergeable entry (cases 5 to 7 and 12; Log 114). -/
def mergeStore (s : State) (t ctx line : Nat) (d : Line) (m : BitVec 128) (ucm host : Bool) : Option State :=
  let c := (s.tile t).core
  let joins (e : MergeEntry) : Bool := e.line == line && e.host == host && !e.draining
  let types (u : BitVec 128) : BitVec 128 := if ucm then u ||| m else u &&& ~~~m
  if c.merge.any (fun e => joins e) then
    some (s.onCore t fun c => { c with
      merge := c.merge.map fun e => if joins e then { e with data := lineMerge e.data d m, mask := e.mask ||| m, umask := types e.umask } else e })
  else if 8 ≤ c.merge.length then none
  else some (s.onCore t fun c => { c with merge := c.merge ++ [{ line := line, data := d, mask := m, since := s.time.cycle, ctx := ctx,
                                                                 umask := types 0, host := host }] })

/-- An entry is to drain (R141): its bytes are all valid, 32 half-rate cycles have passed, or something waits for it. -/
def mergeDue (s : State) (t : Nat) : Bool :=
  let c := (s.tile t).core
  c.merge.any (fun e => e.draining || e.mask == BitVec.allOnes 128 || decide (e.since + 64 ≤ s.time.cycle))
    || (match c.wait with
      | .fence _ _ | .post _ _ | .ending => true
      | _ => false)
    || (match (s.tile t).mode with
      | .draining _ => true
      | _ => false)

/-- Stores of a tile's bytes at a service-host bus address leave for the host port, or are dropped while detached (Table 18.3). -/
def hostStore (s : State) (x : Access) (bus : Nat) (bs : List Byte) : State :=
  if s.hostUp then
    let s := match x.desc with
      | some (q, n) => s.usePort q n 4 (bus + bs.length - 1)
      | none => s
    (s.hostWrite bus bs).issue { x with write := true, addr := bus, bytes := bs.length, data := bs, host := some bus,
                                        tout := s.timeoutOf 0 true }
  else
    let s := s.bump Reg.HP_DATADROP_CNT.COUNT bs.length
    match x.desc with
    | some (q, n) => s.addLoss q n { dropped := bs.length }
    | none => s

/-- A store of bytes to an outbound window leaves for its root port. -/
def portStore (s : State) (x : Access) (a : Nat) (bs : List Byte) : State :=
  let s := match x.desc with
    | some (q, n) => s.usePort q n ((a - outboundBase) / 2 ^ 47) (a + bs.length - 1)
    | none => s
  s.issue { x with write := true, addr := a, bytes := bs.length, data := bs, tout := s.timeoutOf a false }

/-! ## Targets of a core's access -/

/-- Where an access of a tile's core, or of a lane, to a virtual address goes (R309, R317, R386, R400, R401, R533). An access of
`n` bytes that is not aligned to them is an access fault (Log 25). -/
def target (s : State) (id : TlbId) (who : Who) (va n access : Nat) : Target :=
  if 2 ^ 48 ≤ va || va % n ≠ 0 then .trap s false
  else
    match s.translate id who va access with
    | (.stall, s) => .wait s
    | (.failed, s) => .trap (s.resumeDone who.w) false
    | (.bad, s) => .trap s true
    | (.ok a host rattr, s) =>
      let eff := s.effType a host (min 2 rattr)
      if host then (if s.hostUp || access = accStore then .host s a eff else .trap s false)
      else
        match s.space a with
        | some .tier0 | some .tier1 => if s.retired (a / 2 ^ 21) then .trap s false else .mem s a eff
        | some .device => .device s (a - deviceBase) eff
        | some .outbound =>
          if (s.portOf a).isSome && s.windowCheck who.ctx a n (access.testBit 1) then .port s a eff else .trap s false
        | _ => .trap s false

/-- A DEV access of a unit is outstanding (R408). -/
def devBusy (s : State) (u : AccUnit) : Bool := s.order.out.any fun x => x.unit == u && x.dev

/-- The predecessor set of a FENCE is done (R410, R411): i 8, o 4, r 2, w 1. -/
def fenceDone (s : State) (t pred : Nat) : Bool :=
  let mine := s.order.out.filter fun x => x.unit == .core t
  let c := (s.tile t).core
  (!pred.testBit 0 || (c.merge.isEmpty && !(mine.any fun x => x.write && !x.dev) && c.notices == 0))
    && (!pred.testBit 1 || !(mine.any fun x => !x.write && !x.dev))
    && (!pred.testBit 2 || (!(mine.any fun x => x.write && x.dev) && c.notices == 0))
    && (!pred.testBit 3 || !(mine.any fun x => !x.write && x.dev))

/-- Every store of a tile's core has been acknowledged or discarded (R121, R125). -/
def coreDrained (s : State) (t : Nat) : Bool := s.fenceDone t 15

end State

end Sys2Proof.Machine
end

