-- ==== Sys2Proof/Machine/ThreadTrap.lean ====
section
/-! DEFINITION. Resident kernels and their fatal traps (R295, R302, R303, R311, R312): the issuing set of a group, and the debug record. -/

namespace Sys2Proof.Machine

/-- Field of a kernel's body (Table 9.2). -/
def kfield (k : Kernel) (off n : Nat) : Nat := bitsOf k.body (8 * off) (8 * n)

def kRegs32 (k : Kernel) : Bool := (kfield k 21 1).testBit 0
def kFtz (k : Kernel) : Bool := (kfield k 21 1).testBit 1
def kSat (k : Kernel) : Bool := (kfield k 21 1).testBit 2
def kGpb (k : Kernel) : Nat := kfield k 20 1
def kLocal (k : Kernel) : Nat := kfield k 22 2

/-- A lane is runnable (R295), but for a halt of its group. -/
def laneRunnable (l : Lane) : Bool := !l.exited && l.wait.isNone

/-- The lowest pc of some lanes. -/
def lowestPc (ls : List Lane) : Nat := ls.foldl (fun n l => min n l.pc.toNat) (2 ^ 64)

/-- The issuing set of a group (R295): the runnable lanes whose pc is the lowest among them, by number. -/
def issuing (g : Group) : List Nat :=
  let pc := lowestPc (g.lanes.filter laneRunnable)
  (List.range 32).filter fun i => match g.lanes[i]? with
    | some l => laneRunnable l && l.pc.toNat == pc
    | none => false

/-- A count that every instruction which a group issues raises, and nothing else: retirements, waits and exits of its lanes. -/
def groupWork (g : Group) : Nat :=
  g.lanes.foldl (fun n l => n + l.retired + (if l.wait.isSome then 1 else 0) + (if l.exited then 1 else 0)) 0

/-- A group that a debugger has halted does not issue, but for one instruction after each STEP (R313). -/
def groupHeld (g : Group) : Bool := g.halted && g.stepAt != some (groupWork g)

/-- A mask of lanes as a number. -/
def laneMask (ls : List Nat) : Nat := ls.foldl (fun n l => n ||| 2 ^ l) 0

/-- Lanes of a group that satisfy `p`, as a mask. -/
def lanesThat (g : Group) (p : Lane → Bool) : Nat :=
  laneMask ((List.range 32).filter fun i => (g.lanes[i]?).any p)

/-- A map of the threads of a block that satisfy `p` (Table 9.5). -/
def threadMap (gs : List Group) (p : Lane → Bool) : Nat := gs.foldl (fun n g => n + lanesThat g p * 2 ^ (32 * g.g)) 0

/-- The debug record of a trap of a group (Table 9.5). `bar` is BARID, where valid: 0–15 or 16 for GSYNC. -/
def trapRecord (now : Nat) (k : Kernel) (g : Group) (cause : Nat) (bar : Option Nat) (mask pc tval : Nat) : List Byte :=
  let mates := k.groups.filter fun h => h.block == g.block
  let at' (l : Lane) : Bool := bar.isSome && l.wait == bar
  let barid := match bar with
    | some b => (if b = 16 then 2 ^ 4 else b % 16) + 2 ^ 7
    | none => 0
  leBytes 8 now ++ leBytes 4 g.block ++ leBytes 1 g.g ++ leBytes 1 cause ++ leBytes 1 barid ++ leBytes 1 0
    ++ leBytes 4 (lanesThat g at') ++ leBytes 4 (lanesThat g fun l => l.exited) ++ leBytes 4 mask ++ leBytes 4 0
    ++ leBytes 8 pc ++ leBytes 8 tval ++ leBytes 16 0
    ++ leBytes 128 (threadMap mates fun l => !l.exited && !at' l) ++ leBytes 128 (threadMap mates fun l => l.wait.isSome && !at' l)
    ++ ((List.range 32).flatMap fun i => leBytes 4 ((g.lanes.getD i {}).pc.toNat % 2 ^ 32)) ++ leBytes 64 0

namespace State

def onKernel (s : State) (t : Nat) (f : Kernel → Kernel) : State := s.onTile t fun x => { x with kernel := x.kernel.map f }

/-- A resident group. -/
def group? (s : State) (t b g : Nat) : Option (Kernel × Group) :=
  (s.tile t).kernel.bind fun k => (k.groups.find? fun x => x.block == b && x.g == g).map fun x => (k, x)

def onGroup (s : State) (t b g : Nat) (f : Group → Group) : State :=
  s.onKernel t fun k => { k with groups := k.groups.map fun x => if x.block == b && x.g == g then f x else x }

/-- The record of a trapped kernel is written at its DBG; once it is acknowledged, the trap is a fatal trap of the tile (R311). -/
def finishTrap (s : State) (t : Nat) : State :=
  match (s.tile t).kernel with
  | some k =>
    match k.trapped with
    | some (bs, unc) =>
      match k.recordOut with
      | some (a, b) =>
        if s.order.out.any fun x => x.unit == .store t && x.write && decide (a ≤ x.id) && decide (x.id < b) then s
        else s.fatalTrap t unc
      | none =>
        if kfield k 32 8 = 0 then s.fatalTrap t unc
        else
          match s.bulkWrite (s.tileWho t (.store t)) (kfield k 32 8 + 512 * k.index) (bs.map some) with
          | .done _ s' =>
            if s'.order.nextId = s.order.nextId then s'.fatalTrap t unc
            else s'.onKernel t fun k => { k with recordOut := some (s.order.nextId, s'.order.nextId) }
          | .limit => s.fatalTrap t unc
          | .wait s => s
    | none => s
  | none => s

/-- A fatal trap of a group (R311): the groups stop, and the debug record is formed. Later traps of the part, and those of a tile that is
being reset, change nothing. -/
def threadTrap (s : State) (t b g cause : Nat) (bar : Option Nat) (mask pc tval : Nat) : State :=
  match s.group? t b g with
  | some (k, x) =>
    if k.trapped.isSome || (s.tile t).mode != .normal then s
    else
      let s := s.bump (Reg.TG_TRAP_CNT.COUNT t)
      let s := if cause = 6 then s.bump (Reg.TG_MISMATCH_CNT.COUNT t) else s
      let s := if cause = 7 ∨ cause = 8 then s.bump (Reg.TG_BWDOG_CNT.COUNT t) else s
      (s.onKernel t fun k => { k with trapped := some (trapRecord s.now k x cause bar mask pc tval, cause == 3) }).finishTrap t
  | none => s

/-- A load that a lane has outstanding ends in an access fault (R311, R317). -/
def laneFault (s : State) (x : Access) : State :=
  match x.unit with
  | .thread t b g =>
    match s.group? t b g with
    | some (_, y) => s.threadTrap t b g 2 none y.lastSet ((y.lanes.getD x.lane {}).pc.toNat - 4) x.va
    | none => s
  | _ => s

end State

end Sys2Proof.Machine
end

