-- ==== Sys2Proof/Machine/Time.lean ====
section
/-! DEFINITION. Node time, rounds and the collection tick (chapter 2), with what a tick does to tile sets, ledgers, tiles and
granules (R55, R60, R85, R89, R96, R114, R130, R148, R303, R336). -/

namespace Sys2Proof.Machine

namespace State

/-- The round period in ns. -/
def period (s : State) : Nat := 1000 * s.get Reg.RND_PERIOD.PERIOD

/-- A tick instant has been reached since the last tick (R46, R51); none once node time holds at its end (Table 21.3). -/
def tickDue (s : State) : Bool :=
  s.flag Reg.RND_CTL.EN && decide (s.time.tickBase < s.now / s.period * s.period) && decide (s.now < 2 ^ 64 - 1)

/-! ## Tile sets at a tick -/

/-- The enabled set that holds a tile. -/
def setOf (s : State) (t : Nat) : Option Nat :=
  (s.sorter.tsets.find? fun p => p.2.en && p.2.mask.getLsbD t).map (·.1)

/-- A TSDEFINE or TSCLEAR takes effect, and its descriptor completes (R85, R86). -/
def applyChange (s : State) (c : TSetChange) : State :=
  let s := s.onTset c.set fun t =>
    match c.define with
    | some (m, o, sh) => { t with mask := m, owner := o, shared := sh, en := true }
    | none => if c.effect then {} else t
  s.endFlight c.queue c.seq

/-- Ledgers at a tick (R55, R56): C less the carried debt; a set newly enabled has the full capacity, and so has every set at the
first tick after a wake (R516). -/
def rebuildLedgers (s : State) : State :=
  let c : Int := s.capacity
  { s with sorter := { s.sorter with tsets := s.sorter.tsets.map fun p =>
      (p.1, if p.2.en then { p.2 with live := true, balance := if p.2.live && !s.power.fresh then c + min 0 p.2.balance else c }
        else { p.2 with live := false }) } }

/-- The parts of tile `t` that it has not ended. -/
def unended (s : State) (t : Nat) : List (Nat × Nat) :=
  (s.sorter.flights.filter fun f => f.parts.any fun p => p.tile == t && p.st != .ended && p.st != .reported).map fun f =>
    (f.queue, f.seq)

/-- Tile `t` has left or joined an enabled set: it is to clear once its old work has ended (R148). -/
def memberChange (s : State) (t : Nat) : State :=
  (s.onTile t fun x => { x with clears := x.clears ++ [(s.setOf t, s.unended t)] }).tryClear t

/-- The tile sets' part of a tick: pending changes, writes of SORT_TSET, the clears that they bring, and the ledgers (R85, R86, R114,
R148). -/
def setsTick (s : State) : State :=
  let old := s.sorter.members
  let cs := s.sorter.changes
  let cleared := (cs.filter fun c => c.define.isNone && c.effect).map (·.set)
  let s := cs.foldl applyChange { s with sorter := { s.sorter with changes := [], written := [] } }
  let now := (List.range 256).filterMap fun t => (s.setOf t).map fun n => (t, n)
  let left (t : Nat) : Bool := match AMap.get? old t with
    | some n => cleared.contains n
    | none => false
  let s := (List.range 256).foldl (fun (s : State) t =>
    if left t || AMap.get? now t != AMap.get? old t then s.memberChange t else s) s
  { s with sorter := { s.sorter with members := now } }.rebuildLedgers

/-! ## Work at a tick -/

/-- A descriptor that a tick finds incomplete is a late delivery (R60, R62, R65). -/
def lateTick (s : State) : State :=
  let n := (s.sorter.flights.filter fun f => !f.parts.isEmpty && !f.late).length
  { s.bump Reg.RND_LATE_CNT.COUNT n with sorter := { s.sorter with flights := s.sorter.flights.map fun f =>
      if f.parts.isEmpty then f else { f with late := true, lateUnheld := 0, debits := 0 } } }

/-- Deferred queues try again (R89). -/
def deferTick (s : State) : State :=
  { s with sorter := { s.sorter with pigeons := s.sorter.pigeons.map fun p =>
      (p.1, if p.2.defer then { p.2 with defer := false } else p.2) } }

/-- WAITROUND descriptors whose round has come complete (R96). -/
def waitTick (s : State) : State :=
  (s.sorter.flights.filter fun f => f.acted && opOf f.desc == 0x59 && s.roundReached (body f.desc 0 6)).foldl
    (fun s f => s.endSync f 0) s

/-- PENDING granules that no context owns or shares are retired (R336). -/
def retireTick (s : State) : State :=
  (List.range 256).foldl (fun (s : State) e =>
    if s.get (Reg.MEM_RETIRE.STATE e) = 1 && (s.ownOf (s.get (Reg.MEM_RETIRE.GRANULE e))).mode = 0 then
      s.set (Reg.MEM_RETIRE.STATE e) 2
    else s) s

/-- A tile's watchdog counts (R130, R272, R303): engines and the core that wait, and lanes that wait or have not issued. A tick on which
a page fault stalls the unit does not count (R391), nor one for a block that holds a halted group (R314). -/
def watchTile (s : State) (t : Nat) (x : Tile) : Tile :=
  let eng (n : Engine) (e : EngineSt) (stalled : Bool) : EngineSt :=
    if headWaits x n e then (if stalled then e else { e with waitTicks := e.waitTicks + 1 })
    else { e with waitTicks := 0 }
  let waits := match x.core.wait with
    | .take _ _ _ | .test _ _ _ | .summary _ | .launch _ _ => true
    | _ => s.chainWaits t
  let core := { x.core with waitTicks :=
    if !waits then 0 else if s.stalled (.core t) || s.stalled (.fill t) && x.chain.waiting then x.core.waitTicks else x.core.waitTicks + 1 }
  let lane (l : Lane) : Lane := if l.exited then l else { l with waitTicks := l.waitTicks + 1 }
  let kernel := x.kernel.map fun k => { k with groups := k.groups.map fun g =>
    if (k.groups.any fun h => h.block == g.block && h.halted) || s.stalled (.group t g.block g.g) then g
    else { g with lanes := g.lanes.map lane } }
  { x with ld := eng .load x.ld (s.stalled (.fill t)), mx := eng .matrix x.mx false, ve := eng .vector x.ve false
           st := eng .store x.st (s.stalled (.store t)), core := core, kernel := kernel }

def watchTick (s : State) : State := { s with tiles := s.tiles.map fun p => (p.1, s.watchTile p.1 p.2) }

/-- Registers that take effect at a tick (R149, R182, R315). -/
def regsTick (s : State) : State :=
  { s with tick := { wdog := s.get Reg.CT_CTL.WDOG, seed := s.get Reg.NF_SRSEED.SEED, tilemix := s.flag Reg.NF_SRCTL.TILEMIX,
                     bwdog := s.get Reg.TG_CTL.BWDOG } }

/-- Byte bounds of parcel moves start anew (R440), and so do the corrections traced to bond groups (R457). -/
def ratesTick (s : State) : State :=
  { s with
    flash := { s.flash with rate := [] }
    repair := { s.repair with bond := [] } }

/-- The round number and the round's base at a tick (R46, R47). -/
def roundTick (s : State) : State :=
  let s := s.set Reg.RND_NUM.NUM (s.now / s.period % 2 ^ 48)
  { s with time := { s.time with tickBase := s.now / s.period * s.period, ticked := true, beats := 0 } }

/-- A collection tick. In Nap and Night it only advances the round number. -/
def tickWork (s : State) : State :=
  let s := s.roundTick
  if s.power.sleep == .nap || s.power.sleep == .night then s
  else
    let s := (s.sorter.tsets.map (·.1)).foldl (fun (s : State) n => s.dueDebits n) s
    let s := ((((s.setsTick).lateTick).deferTick).waitTick).retireTick
    let s := ((s.watchTick).regsTick).ratesTick
    { s with power := { s.power with fresh := false } }.settle s

/-! ## Writes of the node-time block -/

/-- A write of NT_STEP (R39, R40, R41, R48). -/
def ntStep (s : State) (v : W64) : State :=
  let d := v.toInt
  if s.flag Reg.NT_STAT.HOLDING || d < -1000000000 then s.raise Reg.NT_STAT.STEPERR
  else if d = 0 then s
  else if d < 0 then
    { s.raise Reg.NT_STAT.HOLDING with time := { s.time with hold := 4 * d.natAbs } }
  else
    let s := if s.tickDue then s.tickWork else s
    let before := s.now
    let s := s.set Reg.NT_NOW.NOW (min (2 ^ 64 - 1) (before + d.natAbs))
    if s.flag Reg.RND_CTL.EN then
      let n := s.now / s.period - before / s.period
      if n = 0 then s else (s.bump Reg.RND_SKIP_CNT.COUNT (n - 1)).tickWork
    else s

/-- A write of NT_ALARM (R45). -/
def ntAlarm (s : State) (v : Nat) : State :=
  let s := s.set Reg.NT_ALARM.ALARM v
  if v = 2 ^ 64 - 1 then { s with time := { s.time with armed := false } }
  else if v ≤ s.now then { s with time := { s.time with armed := false } }.assertSource 7
  else { s with time := { s.time with armed := true } }

/-- A write of RND_CTL (R49, R50, R51). -/
def rndCtl (s : State) (v : Nat) : State :=
  if v / 2 % 4 = 3 then s.raise Reg.RND_STAT.CFGERR
  else
    let was := s.flag Reg.RND_CTL.EN
    let s := (s.set Reg.RND_CTL.MAINT (v / 2 % 4)).set Reg.RND_CTL.EN (v % 2)
    if v % 2 = 1 && !was then { s with time := { s.time with tickBase := s.now, ticked := false, beats := 0 } } else s

/-- A write of RND_PERIOD (R49). -/
def rndPeriod (s : State) (v : Nat) : State :=
  if s.flag Reg.RND_CTL.EN || v % 2 ^ 14 < 10 || 10000 < v % 2 ^ 14 then s.raise Reg.RND_STAT.CFGERR
  else s.set Reg.RND_PERIOD.PERIOD (v % 2 ^ 14)

/-- A write to the register at `off` by a requester: performed where the access reaches it. -/
def writeAs (s : State) (r : Requester) (off : Nat) (k : State → State) : State :=
  match s.reaches r off with
  | (true, s) => k s
  | (false, s) => s

/-- A captured edge (R42, R43, R44). -/
def ppsCapture (s : State) : State :=
  let cap := (s.now + 2 ^ 64 - s.get Reg.NT_PPSCOMP.COMP) % 2 ^ 64
  let s := (s.set Reg.NT_PPSCAP.CAP cap).raise Reg.NT_STAT.PPSSEEN
  let s := { s with time := { s.time with ppsOffset := 0, ppsLeft := 0 } }
  if s.flag Reg.NT_CTL.PPSAUTO then
    let r := cap % 1000000000
    if r ≤ 1000 then { s with time := { s.time with ppsOffset := -r, ppsLeft := 4000000000 } }
    else if 1000000000 - 1000 ≤ r then { s with time := { s.time with ppsOffset := 1000000000 - r, ppsLeft := 4000000000 } }
    else (s.raise Reg.NT_STAT.PPSFAR).assertSource 33
  else s

/-- Tarle runs, on the VA rail: from the power-on start until MATE_N takes the rail away, but for its own resets (R509, R539, R540,
R543). -/
def tarleRuns (s : State) : Bool :=
  !s.tarle.resetting && (s.start.begun || match s.start.off with
    | some .stop | some .supply | some .trip => true
    | some .mate | none => false)

end State

/-! ## Rows -/

/-- NT_STEP_FORWARD (R39, R41, R48). -/
def execNtStepForward (by_ : Requester) (d : W64) (s : State) : Host.Outcome State Fault Refusal :=
  .next (s.writeAs by_ 0x010018 fun s => s.ntStep d)

/-- NT_STEP_BACKWARD (R40, R41). -/
def execNtStepBackward (by_ : Requester) (d : W64) (s : State) : Host.Outcome State Fault Refusal :=
  .next (s.writeAs by_ 0x010018 fun s => s.ntStep d)

/-- HOLD_END (R40). -/
def execHoldEnd (s : State) : Host.Outcome State Fault Refusal :=
  if s.flag Reg.NT_STAT.HOLDING && s.time.hold = 0 then .next (s.setFlag Reg.NT_STAT.HOLDING false) else .next s

/-- PPS_EDGE (R42 to R44, R539): through a closed bypass it goes on at once (R540). -/
def execPpsEdge (rising : Bool) (s : State) : Host.Outcome State Fault Refusal :=
  let late := if s.tarleRuns && !s.flag Reg.TC_STAT.BYPASS then 100 else 0
  let s : State := { s with time := { s.time with ppsOut := some (rising, s.time.cycle + late) } }
  if s.flag Reg.NT_CTL.PPSEN && (rising != s.flag Reg.NT_CTL.PPSEDGE) then .next s.ppsCapture else .next s

/-- PPS_CORRECTION_END (R43). -/
def execPpsCorrectionEnd (s : State) : Host.Outcome State Fault Refusal :=
  if s.time.ppsLeft = 0 then .next { s with time := { s.time with ppsOffset := 0 } } else .next s

/-- NT_ALARM_WRITE (R45). -/
def execNtAlarmWrite (by_ : Requester) (v : W64) (s : State) : Host.Outcome State Fault Refusal :=
  .next (s.writeAs by_ 0x010038 fun s => s.ntAlarm v.toNat)

/-- TIME_ALARM (R45). -/
def execTimeAlarm (s : State) : Host.Outcome State Fault Refusal :=
  if s.time.armed && s.get Reg.NT_ALARM.ALARM ≤ s.now then
    .next (State.assertSource { s with time := { s.time with armed := false } } 7)
  else .next s

/-- ROUNDS_ENABLE (R49, R51). -/
def execRoundsEnable (by_ : Requester) (v : W32) (s : State) : Host.Outcome State Fault Refusal :=
  .next (s.writeAs by_ 0x010040 fun s => s.rndCtl v.toNat)

/-- ROUNDS_DISABLE (R49, R50). -/
def execRoundsDisable (by_ : Requester) (v : W32) (s : State) : Host.Outcome State Fault Refusal :=
  .next (s.writeAs by_ 0x010040 fun s => s.rndCtl v.toNat)

/-- COLLECTION_TICK (R46, R47, R55, R60, R85, R89, R96, R148, R336). -/
def execCollectionTick (s : State) : Host.Outcome State Fault Refusal :=
  if s.tickDue then .next s.tickWork else .next s

/-- SCRATCHPAD_CLEAR_END (R148): 2,048 cycles after the clear began. -/
def execScratchpadClearEnd (t : Fin 256) (s : State) : Host.Outcome State Fault Refusal :=
  match (s.tile t).mode with
  | .clearing since set =>
    if since + 2048 ≤ s.time.cycle then
      let s := match set with
        | some n => (s.set (Reg.CT_TSET.VALID t) 1).set (Reg.CT_TSET.TSET t) n
        | none => (s.set (Reg.CT_TSET.VALID t) 0).set (Reg.CT_TSET.TSET t) 0
      .next ((s.onTile t fun x => takeWaiting { x with
        mode := .normal, sp := [], spLost := none, spBad := [], tokens := [], fifo := [] }).tryClear t)
    else .next s
  | _ => .next s

end Sys2Proof.Machine
end

