-- ==== Sys2Proof/Machine/Dram.lean ====
section
/-! DEFINITION. The memory channels (chapter 10): service by class and age, correction, refresh, scrubbing. -/

namespace Sys2Proof.Machine

/-- Class of the requests that a channel serves next (R327): the class of the oldest guarded request that has waited its age, else
the lowest-numbered class present. -/
def nextReq (ages : List Nat) (now : Nat) (q : List MemReq) : Option MemReq :=
  let aged (k : Nat) : Option MemReq :=
    match q.find? fun r => r.cls == k with
    | some r => if ages.getD k 0 != 0 && ages.getD k 0 ≤ now - r.at_ then some r else none
    | none => none
  match q.find? fun r => (aged r.cls).isSome with
  | some r => some r
  | none => (List.range 4).findSome? fun k => q.find? fun r => r.cls == k

namespace State

/-- MEM_PRIO's ages by class; P0 has none. -/
def memAges (s : State) : List Nat :=
  [0, s.get Reg.MEM_PRIO.AGE1, s.get Reg.MEM_PRIO.AGE2, s.get Reg.MEM_PRIO.AGE3]

/-- Bytes of device `d` that a scrub step reads (R333). -/
def scrubBytes (d : Nat) : Nat := if d < 8 then 2 ^ 25 else 2 ^ 22

/-- The request reads or writes the line. -/
def covers (s : State) (d : Nat) (r : MemReq) (line : Nat) : Bool :=
  match r.span with
  | none => r.line == line
  | some o =>
    let p := s.place (line * 128)
    s.coherent (line * 128) && p.1 == d && pchOf d p.2 == r.pch && decide (o ≤ p.2) && decide (p.2 < o + scrubBytes d)

/-- Two requests name a common line. -/
def meets (s : State) (d : Nat) (x r : MemReq) : Bool :=
  match x.span, r.span with
  | some a, some b => a == b
  | none, _ => s.covers d r x.line
  | some _, none => s.covers d x r.line

/-- The request that pseudo-channel `pch` of device `d` serves next: that of R327, or the first request to its line where one came
before it; a throttled device serves no P3 request (R329), and one whose VM or VG rail is paused or gated no P1 or P2 request (R495, Table
17.1), nor one behind such a request of its line. -/
def nextService (s : State) (d pch : Nat) : Option MemReq :=
  let q := (s.dev d).queue.filter fun r => r.pch == pch
  let throt := s.flag (Reg.MEM_DSTAT.THROT d)
  let paused := s.railGated (if d < 8 then 13 else 14)
  let held (r : MemReq) : Bool := (throt && r.cls == 3) || (paused && (r.cls == 1 || r.cls == 2))
  let q := q.filter fun r => !((q.takeWhile (· != r)).any fun x => s.meets d x r && held x) && !held r
  match nextReq s.memAges s.time.cycle q with
  | some r => q.find? fun x => s.meets d x r
  | none => none

/-- What the decoding of a line read reports: corrections counted, or the line uncorrectable, its granule then PENDING (R332, R335). -/
def reportLine (s : State) (d line : Nat) (e : LineErrors) : State :=
  let (n, bad) := decodeErrors d e
  let s := if n = 0 then s else s.correction d line n
  if bad then (s.bump (Reg.MEM_UNC_CNT.COUNT d)).granulePending (line * 128 / 2 ^ 21) 1 else s

/-- A scrub read of a line: one found correctable is to be written back corrected (R333, R334). -/
def scrubLine (s : State) (d line : Nat) (e : LineErrors) : State :=
  let (n, bad) := decodeErrors d e
  let s := s.reportLine d line e
  if n = 0 || bad then s
  else s.onDev d fun m => { m with scrub := if m.scrub.contains line then m.scrub else m.scrub ++ [line] }

/-- A served read is reported, and each line of a scrub's (R330 to R333). -/
def served (s : State) (d : Nat) (r : MemReq) : State :=
  if r.write then s
  else
    match r.span with
    | none => s.reportLine d r.line r.errs
    | some _ => ((s.dev d).errors.filter fun e => s.covers d r e.1).foldl (fun (s : State) e => s.scrubLine d e.1 e.2) s

/-- Errors of lines of the device change (Log 121). -/
def linesErr (s : State) (d : Nat) (es : List (BitVec 45 × LineErrors)) : State :=
  es.foldl (fun (s : State) e =>
    if (s.place (e.1.toNat * 128)).1 = d then
      s.onDev d fun m => { m with errors := if e.2 = {} then AMap.erase m.errors e.1.toNat else AMap.put m.errors e.1.toNat e.2 }
    else s) s

/-- One service slot of a pseudo-channel of device `d`. -/
def serviceSlot (s : State) (d pch : Nat) : State :=
  let throt := s.flag (Reg.MEM_DSTAT.THROT d)
  let slot := AMap.getD (s.dev d).slots pch 0
  let next (s : State) (n : Nat) : State := s.onDev d fun m => { m with slots := AMap.put m.slots pch n }
  if throt && slot != 0 then next s ((slot + 1) % 4)
  else
    match s.nextService d pch with
    | none => s
    | some r =>
      let s := s.onDev d fun m => { m with queue := m.queue.erase r }
      (if throt then next s 1 else s).served d r

/-- One scrub step of a present device (R333, R335): its reads leave in class P3, one request for the step's lines on each
pseudo-channel (Log 122); the pass ends at the device's end. -/
def scrubDev (s : State) (d : Nat) : State :=
  if !s.flag (Reg.MEM_DSTAT.PRESENT d) || s.flag (Reg.MEM_DSTAT.THROT d) then s
  else
    let o := s.get (Reg.MEM_SCRUB_POS.NEXT d)
    let s := s.onDev d fun m => { m with
      queue := m.queue ++ (List.range (if d < 8 then 64 else 1)).map fun p =>
        { cls := 3, line := 0, at_ := s.time.cycle, write := false, pch := p, span := some o } }
    let next := o + scrubBytes d
    if next < (if d < 8 then 2 ^ 36 else 2 ^ 32) then s.set (Reg.MEM_SCRUB_POS.NEXT d) next
    else
      ((s.set (Reg.MEM_SCRUB_POS.NEXT d) 0).set (Reg.MEM_SCRUB_POS.PASS d) (min 0xFFFF (s.get (Reg.MEM_SCRUB_POS.PASS d) + 1))).onDev
        d fun m => { m with corrected := [] }

/-- The scrub steps of a maintenance beat (R333). -/
def scrubStep (s : State) : State :=
  if !s.flag Reg.MEM_CTL.SCRUBEN then s else (List.range 24).foldl scrubDev s

/-- A temperature reading of a memory device (R328, R329): the refresh multiple, and throttling. -/
def memTemp (s : State) (d : Nat) (t : Int) : State :=
  if !s.flag (Reg.MEM_DSTAT.PRESENT d) then s
  else
    let was := if s.flag (Reg.MEM_DSTAT.THROT d) then 3 else s.get (Reg.MEM_DSTAT.REFMUL d)
    let up := if 105 ≤ t then 3 else if 95 ≤ t then 2 else if 85 ≤ t then 1 else 0
    let down := if 102 ≤ t then 3 else if 92 ≤ t then 2 else if 82 ≤ t then 1 else 0
    let now := max up (min was down)
    let s := (s.set (Reg.MEM_DSTAT.TEMP d) (min 255 (max 0 t)).toNat).set (Reg.MEM_DSTAT.REFMUL d) (min 2 now)
    let s := s.setFlag (Reg.MEM_DSTAT.THROT d) (now == 3)
    if now = 3 && was != 3 then (s.raise Reg.MEM_STAT.HOT).signal 66
    else if now != 3 then s.onDev d fun m => { m with slots := [] }
    else s

end State

/-! ## Rows -/

/-- MEMORY_REQUEST_SERVICE (R327, R329 to R333, R335, R338): a service slot, after what has become of stored lines (Log 121). -/
def execMemoryRequestService (d : Fin 24) (slot : ServiceSlot) (s : State) : Host.Outcome State Fault Refusal :=
  .next ((s.linesErr d slot.errors).serviceSlot d slot.pch)

/-- REFRESH (R328): of a device that is present; DRAM contents stay. -/
def execRefresh (d : Fin 24) (s : State) : Host.Outcome State Fault Refusal :=
  if s.flag (Reg.MEM_DSTAT.PRESENT d) then .next (s.onDev d fun m => { m with refreshes := m.refreshes + 1 }) else .next s

/-- SCRUB_WRITE_BACK (R333, R334): the corrected line is written back, in class P3; a line that a newer write has reached is no longer
awaited. -/
def execScrubWriteBack (d : Fin 24) (line : BitVec 45) (s : State) : Host.Outcome State Fault Refusal :=
  if (s.dev d).scrub.contains line.toNat then
    let s := s.onDev d fun m => { m with scrub := m.scrub.erase line.toNat }
    .next (s.request 3 line.toNat true)
  else .next s

/-- GDDR7_TRAINING_DONE (R321, Table 10.7). -/
def execGddr7TrainingDone (ch : Fin 16) (s : State) : Host.Outcome State Fault Refusal :=
  if s.t1Channels.contains ch.val then .next (s.setFlag (Reg.MEM_DSTAT.PRESENT (8 + ch.val)) true) else .next s

end Sys2Proof.Machine
end

