-- ==== Sys2Proof/Machine/Repair.lean ====
section
/-! DEFINITION. Units that can fail, their numbers in repair entries, the state of the links, and the assignment of logical units at a
full start (chapter 15, Table 20.2). -/

namespace Sys2Proof.Machine

/-- KIND, LOC and POS of a unit (Table 20.2). Inside a LOC the positions count rows of columns, lanes, groups and wires in ascending
order; the manual gives POS no inner layout (Log 26). -/
def unitEntry : UnitRef → Nat × Nat × Nat
  | .column d t r c => (1, d, (t * 128 + r) * 130 + c)
  | .lane d t l => (2, d, t * 132 + l)
  | .tile d t => (3, d, t)
  | .core c => (4, 0x20, c)
  | .bondGroup d t g => (5, d, t * 784 + g)
  | .routerGroup d c g => (5, d, 36 * 784 + c * 48 + g)
  | .wire dir b w => (6, 0x30 + dir, b * 36 + w)
  | .bundle dir b => (7, 0x30 + dir, b)
  | .router d c => (8, d, c)

/-- The unit of a repair entry; none where its numbers name no unit. -/
def entryUnit (kind loc pos : Nat) : Option UnitRef :=
  if loc < 8 then
    let d : Fin 8 := Fin.ofNat 8 loc
    match kind with
    | 1 => if pos < 36 * 128 * 130 then
        some (.column d (Fin.ofNat 36 (pos / (128 * 130))) (Fin.ofNat 128 (pos / 130)) (Fin.ofNat 130 pos)) else none
    | 2 => if pos < 36 * 132 then some (.lane d (Fin.ofNat 36 (pos / 132)) (Fin.ofNat 132 pos)) else none
    | 3 => if pos < 36 then some (.tile d (Fin.ofNat 36 pos)) else none
    | 5 =>
      if pos < 36 * 784 then some (.bondGroup d (Fin.ofNat 36 (pos / 784)) (Fin.ofNat 784 pos))
      else if pos < 36 * 784 + 9 * 48 then
        some (.routerGroup d (Fin.ofNat 9 ((pos - 36 * 784) / 48)) (Fin.ofNat 48 (pos - 36 * 784)))
      else none
    | 8 => if pos < 9 then some (.router d (Fin.ofNat 9 pos)) else none
    | _ => none
  else if loc = 0x20 then (if kind = 4 && pos < 36 then some (.core (Fin.ofNat 36 pos)) else none)
  else if 0x30 ≤ loc && loc < 0x40 then
    let dir : Fin 16 := Fin.ofNat 16 loc
    match kind with
    | 6 => if pos < 32 * 36 then some (.wire dir (Fin.ofNat 32 (pos / 36)) (Fin.ofNat 36 pos)) else none
    | 7 => if pos < 32 then some (.bundle dir (Fin.ofNat 32 pos)) else none
    | _ => none
  else none

/-- A repair entry as one number of 8 bytes: KIND, EVENT, LOC, a reserved byte, POS (Table 20.2). -/
def entryNat (u : UnitRef) (event : Nat) : Nat :=
  let e := unitEntry u
  e.1 + 2 ^ 8 * event + 2 ^ 16 * e.2.1 + 2 ^ 32 * e.2.2

/-- Ascending LOC, then POS (R584). -/
def entryLe (a b : UnitRef) : Bool :=
  let x := unitEntry a
  let y := unitEntry b
  decide (x.2.1 < y.2.1) || (x.2.1 == y.2.1 && decide (x.2.2 ≤ y.2.2))

def insertUnit (u : UnitRef) : List UnitRef → List UnitRef
  | [] => [u]
  | v :: rest => if u = v then v :: rest else if entryLe u v then u :: v :: rest else v :: insertUnit u rest

/-- Units in the order of the start record, each once. -/
def sortUnits (us : List UnitRef) : List UnitRef := us.foldr insertUnit []

/-! ## Forwarding maps (R184, R454, R459) -/

/-- A group of like elements, of which some are spares. -/
structure SpareGroup where
  /-- Number of the group among the forwarding maps: the model's own. -/
  key : Nat
  size : Nat
  /-- Positions that carry the logical identities while nothing has failed. -/
  whole : List Nat
  deriving DecidableEq, Repr

/-- Group and position of an element: 128 columns of the 130 cells of an array row, 128 of 132 lanes, and the 32 data wires and the valid
wire of a bundle, with its spares 32 and 33. -/
def elementGroup : UnitRef → Option (SpareGroup × Nat)
  | .column d t r c => some (⟨3 * ((36 * d + t) * 128 + r), 130, List.range 128⟩, c)
  | .lane d t l => some (⟨3 * (36 * d + t) + 1, 132, List.range 128⟩, l)
  | .wire dir b w => if w.val = 35 then none else some (⟨3 * (32 * dir + b) + 2, 35, List.range 32 ++ [34]⟩, w)
  | _ => none

/-- The map of a group at a full start: the working positions in ascending order (R454); the valid wire keeps its own wire while that
works. -/
def SpareGroup.atStart (g : SpareGroup) (failed : List Nat) : List Nat :=
  let working := (List.range g.size).filter fun p => !failed.contains p
  if g.key % 3 = 2 then
    let data := (working.filter (· != 34)).take 32
    data ++ (((if working.contains 34 then [34] else []) ++ working.filter fun p => !data.contains p).take 1)
  else working.take g.whole.length

/-- A failed position passes its identity to the lowest-numbered free spare (R459). -/
def SpareGroup.pass (g : SpareGroup) (map failed : List Nat) (p : Nat) : List Nat :=
  match (List.range g.size).find? fun q => !map.contains q && !failed.contains q with
  | some q => map.map fun x => if x = p then q else x
  | none => map

/-! ## Links and tiles -/

/-- Tiles, on compute die `d`, that a set of failed elements takes out of use: a failed tile; a row with more than two failed
columns; more than four failed lanes; a bond group that cannot carry its signals; a router stop that fails (R453, R456). -/
def tileBad (bad : List UnitRef) (d : Fin 8) (t : Fin 36) : Bool :=
  bad.contains (.tile d t) || bad.contains (.router d (Fin.ofNat 9 (t / 4)))
    || (bad.any fun u => match u with
      | .bondGroup d' t' _ => d' == d && t' == t
      | .routerGroup d' c _ => d' == d && c.val == t.val / 4
      | _ => false)
    || decide (4 < (bad.filter fun u => match u with
      | .lane d' t' _ => d' == d && t' == t
      | _ => false).length)
    || (bad.any fun u => match u with
      | .column d' t' r _ => d' == d && t' == t && decide (2 < (bad.filter fun v => match v with
        | .column d'' t'' r' _ => d'' == d && t'' == t && r' == r
        | _ => false).length)
      | _ => false)

namespace State

/-- DEGRADED follows the links; a link that has newly failed raises the link and repair source, and a loss of every route the
device-critical one (R451). -/
def linksChanged (s old : State) : State :=
  let s := s.setFlag Reg.LR_STAT.DEGRADED ((List.range 8).any fun l => s.linkBelow l)
  let s := if (List.range 8).any fun l => s.linkFailed l && !old.linkFailed l then s.signal 68 else s
  if s.noRoute && !old.noRoute then s.signal 9 else s

/-! ## Assignment at a full start (R23, R28, R454 to R456) -/

/-- Usable physical tiles of compute die `d`, and usable node cores, in ascending order. -/
def usableTiles (_ : State) (bad : List UnitRef) (d : Fin 8) : List Nat :=
  ((List.range 36).filter fun t => !tileBad bad d (Fin.ofNat 36 t))

def usableCores (_ : State) (bad : List UnitRef) : List Nat :=
  (List.range 36).filter fun c => !bad.contains (.core (Fin.ofNat 36 c))

/-- The links as the start test leaves them. -/
def trainLinks (s : State) (bad : List UnitRef) : State :=
  (List.range 16).foldl (fun (s : State) dir =>
    s.onLink dir fun _ =>
      { trained := true
        wires := bad.filterMap fun u => match u with
          | .wire d b w => if d.val = dir then some (b.val * 36 + w.val) else none
          | _ => none
        bundles := bad.filterMap fun u => match u with
          | .bundle d b => if d.val = dir then some b.val else none
          | _ => none }) s

/-- Positions of a group that hold a failed element. -/
def failedIn (s : State) (g : SpareGroup) : List Nat :=
  (s.repair.elements ++ (List.range 16).flatMap fun d => (s.link d).wires.map fun w =>
    UnitRef.wire (Fin.ofNat 16 d) (Fin.ofNat 32 (w / 36)) (Fin.ofNat 36 w)).filterMap fun u =>
      (elementGroup u).bind fun e => if e.1.key = g.key then some e.2 else none

/-- The positions that carry a group's logical identities. -/
def groupMap (s : State) (g : SpareGroup) : List Nat := (AMap.get? s.repair.maps g.key).getD g.whole

/-- Physical column that carries logical column `c` of array row `r` (R184), and physical lane of logical lane `l`. -/
def columnOf (s : State) (d : Fin 8) (t : Fin 36) (r : Fin 128) (c : Fin 128) : Nat :=
  match elementGroup (.column d t r 0) with
  | some e => (s.groupMap e.1).getD c c
  | none => c
def laneOf (s : State) (d : Fin 8) (t : Fin 36) (l : Fin 128) : Nat :=
  match elementGroup (.lane d t 0) with
  | some e => (s.groupMap e.1).getD l l
  | none => l

/-- The forwarding map of an element's group at a full start. -/
def mapAtStart (s : State) (u : UnitRef) : State :=
  match elementGroup u with
  | some e => { s with repair := { s.repair with maps := AMap.put s.repair.maps e.1.key (e.1.atStart (s.failedIn e.1)) } }
  | none => s

/-- An element that has failed passes its identity on (R459). -/
def passIdentity (s : State) (u : UnitRef) : State :=
  match elementGroup u with
  | some e => { s with repair := { s.repair with
      maps := AMap.put s.repair.maps e.1.key (e.1.pass (s.groupMap e.1) (s.failedIn e.1) e.2) } }
  | none => s

/-- Logical numbers for the usable units in ascending physical order, and what is retired. -/
def assignUnits (s : State) (bad assembly : List UnitRef) : State :=
  let tiles := (List.range 8).flatMap fun d =>
    (((s.usableTiles bad (Fin.ofNat 8 d)).take 32).zipIdx).map fun p => (d * 32 + p.2, d * 36 + p.1)
  let cores := (((s.usableCores bad).take 32).zipIdx).map fun p => (p.2, p.1)
  bad.foldl mapAtStart { s with repair := { s.repair with
      phys := tiles
      cores := cores
      retired := (List.range 288).filter fun x => tileBad bad (Fin.ofNat 8 (x / 36)) (Fin.ofNat 36 x)
      retiredCores := (List.range 36).filter fun c => bad.contains (.core (Fin.ofNat 36 c))
      retiredRouters := (List.range 72).filter fun x => bad.contains (.router (Fin.ofNat 8 (x / 9)) (Fin.ofNat 9 x))
      assembly := (List.range 288).filter fun x => assembly.contains (.tile (Fin.ofNat 8 (x / 36)) (Fin.ofNat 36 x))
      assemblyCores := (List.range 36).filter fun c => assembly.contains (.core (Fin.ofNat 36 c))
      elements := bad
      maps := []
      moved := [] } }

end State

end Sys2Proof.Machine
end

