-- ==== Sys2Proof/Machine/Messages.lean ====
section
/-! DEFINITION. The rows of the coherence protocol (chapter 11): a message arrives at its destination. -/

namespace Sys2Proof.Machine

namespace State

/-- A message of kind `k` arrives; a message of another kind is none of the row's, but for one with a reserved opcode or agent (R364). -/
def arrive (s : State) (k : MsgKind) (m : Msg) (f : State → Msg → State) : State :=
  if reservedKind m.kind || reservedAgent m.src.toNat || reservedAgent m.dst.toNat || m.kind == k then s.arriving m f else s

end State

/-! ## Rows -/

/-- RDS (R352, R353, R356, R357, R362). -/
def execRds (m : Msg) (s : State) : Host.Outcome State Fault Refusal := .next (s.arrive .rdS m State.homeRequest)

/-- RDM (R352, R353, R356, R357, R362). -/
def execRdm (m : Msg) (s : State) : Host.Outcome State Fault Refusal := .next (s.arrive .rdM m State.homeRequest)

/-- UPG (R352, R353, R356, R357, R362). -/
def execUpg (m : Msg) (s : State) : Host.Outcome State Fault Refusal := .next (s.arrive .upg m State.homeRequest)

/-- RDCUR (R352, R353, R357, R362). -/
def execRdcur (m : Msg) (s : State) : Host.Outcome State Fault Refusal := .next (s.arrive .rdCur m State.homeRequest)

/-- WRFULL (R352, R353, R357, R362). -/
def execWrfull (m : Msg) (s : State) : Host.Outcome State Fault Refusal := .next (s.arrive .wrFull m State.homeRequest)

/-- WRPART (R352, R353, R357, R362). -/
def execWrpart (m : Msg) (s : State) : Host.Outcome State Fault Refusal := .next (s.arrive .wrPart m State.homeRequest)

/-- WBM (R352, R357, R361, R362). -/
def execWbm (m : Msg) (s : State) : Host.Outcome State Fault Refusal := .next (s.arrive .wbM m State.homeRequest)

/-- WBO (R352, R357, R361, R362). -/
def execWbo (m : Msg) (s : State) : Host.Outcome State Fault Refusal := .next (s.arrive .wbO m State.homeRequest)

/-- EVE (R352, R361, R362). -/
def execEve (m : Msg) (s : State) : Host.Outcome State Fault Refusal := .next (s.arrive .evE m State.homeRequest)

/-- CHK (R353, R354). -/
def execChk (m : Msg) (s : State) : Host.Outcome State Fault Refusal := .next (s.arrive .chk m State.homeRequest)

/-- HOME_REQUEST_DEQUEUE (R352). -/
def execHomeRequestDequeue (home : Fin 5) (line : BitVec 45) (s : State) : Host.Outcome State Fault Refusal :=
  if s.homeOf line.toNat = home.val then .next (s.dequeue line.toNat) else .next s

/-- SNPS (R360, R361, R363, R364). -/
def execSnps (m : Msg) (s : State) : Host.Outcome State Fault Refusal := .next (s.arrive .snpS m State.agentSnoop)

/-- SNPM (R360, R361, R363, R364). -/
def execSnpm (m : Msg) (s : State) : Host.Outcome State Fault Refusal := .next (s.arrive .snpM m State.agentSnoop)

/-- SNPI (R360, R361, R363, R364). -/
def execSnpi (m : Msg) (s : State) : Host.Outcome State Fault Refusal := .next (s.arrive .snpI m State.agentSnoop)

/-- SNPC (R360, R361, R363, R364). -/
def execSnpc (m : Msg) (s : State) : Host.Outcome State Fault Refusal := .next (s.arrive .snpC m State.agentSnoop)

/-- SNPRSP (R361, R362, R363). -/
def execSnprsp (m : Msg) (s : State) : Host.Outcome State Fault Refusal := .next (s.arrive .snpRsp m State.homeSnpRsp)

/-- COMPACK (R349, R362). -/
def execCompack (m : Msg) (s : State) : Host.Outcome State Fault Refusal := .next (s.arrive .compAck m State.homeCompAck)

/-- GNTM (R360). -/
def execGntm (m : Msg) (s : State) : Host.Outcome State Fault Refusal := .next (s.arrive .gntM m State.agentGntM)

/-- CMP (R349, R354, R409, R415). -/
def execCmp (m : Msg) (s : State) : Host.Outcome State Fault Refusal := .next (s.arrive .cmp m State.agentCmp)

/-- RELACK (R349, R360). -/
def execRelack (m : Msg) (s : State) : Host.Outcome State Fault Refusal := .next (s.arrive .relAck m State.agentRelAck)

/-- DENY (R349, R354, R375). -/
def execDeny (m : Msg) (s : State) : Host.Outcome State Fault Refusal := .next (s.arrive .deny m State.agentDeny)

/-- PERR (R364). -/
def execPerr (m : Msg) (s : State) : Host.Outcome State Fault Refusal := .next (s.arrive .pErr m State.homePErr)

/-- CRDRET (R349). -/
def execCrdret (m : Msg) (s : State) : Host.Outcome State Fault Refusal := .next (s.arrive .crdRet m State.agentCrdRet)

/-- DATA (R360, R363, R415). -/
def execData (m : Msg) (s : State) : Host.Outcome State Fault Refusal := .next (s.arrive .data m State.agentData)

/-- WBDATA (R357, R363). -/
def execWbdata (m : Msg) (s : State) : Host.Outcome State Fault Refusal := .next (s.arrive .wbData m State.homeWbData)

end Sys2Proof.Machine
end

