-- ==== Sys2Proof/Machine/Functions.lean ====
section
/-! DEFINITION. The functions of Table 5.6: what their bounds admit (R179 to R181). A function's value is computed to well over a hundred
bits in fixed point, and a result is held within the bound of its row around that value (Log 6). -/

namespace Sys2Proof.Machine

/-- Fixed-point numbers in units of 2^−256. -/
def fixOne : Int := 2 ^ 256
def fixLn2 : Int := 0xb17217f7d1cf79abc9e3b39803f2f6af40f343267298b62d8a0d175b8baafa2b
def fixPi : Int := 0x3243f6a8885a308d313198a2e03707344a4093822299f31d0082efa98ec4e6c89
/-- 2 / √π. -/
def fixErf : Int := 0x120dd750429b6d11ae3a914fed7fd8688281341d7587cea2e7342b06199cc4161

def fixMul (a b : Int) : Int := (a * b).fdiv fixOne
def fixDiv (a b : Int) : Int := (a * fixOne).fdiv b

/-- A value in fixed point. -/
def fixOf : FV → Int
  | .fin s m e =>
    let n : Int := if -256 ≤ e then m * pow2 (e + 256) else (m / pow2 (-256 - e) : Nat)
    if s then -n else n
  | _ => 0

/-- A fixed-point number times 2^k as a value. -/
def ofFix (n k : Int) : FV := .fin (decide (n < 0)) n.natAbs (k - 256)

/-- Σ of `n` terms from `t`, number `i`, each made from the one before by `f`. -/
def fixSeries (f : Int → Nat → Int) : Nat → Nat → Int → Int
  | 0, _, _ => 0
  | n + 1, i, t => t + fixSeries f n (i + 1) (f t i)

/-- e^x of a fixed-point x between −256 and 256. -/
def expFix (x : Int) : FV :=
  let k := (x + fixLn2 / 2).fdiv fixLn2
  let r := x - k * fixLn2
  ofFix (fixSeries (fun t i => (fixMul t r).fdiv (i + 1)) 64 0 fixOne) k

/-- e^x, with its tails at ±256. -/
def expV (x : Int) : FV := expFix (max (-256 * fixOne) (min (256 * fixOne) x))

/-- ln of a positive value: ln 2 times its exponent, and 2 artanh of the rest, which lies in [0.75, 1.5). -/
def lnFix (v : FV) : Int :=
  match v with
  | .fin _ m e =>
    let l := Nat.log2 m
    let one : Int := m * pow2 (256 - l)
    let (y, k) : Int × Int := if 3 * fixOne ≤ 2 * one then (one / 2, e + l + 1) else (one, e + l)
    let z := fixDiv (y - fixOne) (y + fixOne)
    let zz := fixMul z z
    let s := (List.range 128).foldl (fun (acc : Int × Int) i => (acc.1 + acc.2.fdiv (2 * i + 1), fixMul acc.2 zz)) (0, z)
    2 * s.1 + k * fixLn2
  | _ => 0

/-- sin, or cos, of a fixed-point number. -/
def sinFix (cos : Bool) (x : Int) : Int :=
  let k := (x + fixPi).fdiv (2 * fixPi)
  let r := x - k * (2 * fixPi)
  let rr := fixMul r r
  let b := if cos then 1 else 2
  fixSeries (fun t i => (-(fixMul t rr)).fdiv ((2 * i + b) * (2 * i + b + 1))) 64 0 (if cos then fixOne else r)

/-- erf of a fixed-point number between −6 and 6. -/
def erfFix (x : Int) : Int :=
  let xx := fixMul x x
  let s := (List.range 256).foldl (fun (acc : Int × Int) i =>
    (acc.1 + acc.2.fdiv (2 * i + 1), (-(fixMul acc.2 xx)).fdiv (i + 1))) (0, x)
  fixMul fixErf s.1

/-- The function of OP 0x22 to 0x2C at a finite nonzero value of its domain. -/
def functionValue (op : Nat) (v : FV) : FV :=
  let one : FV := .fin false 1 0
  let x := fixOf v
  match op with
  | 0x22 => divF one v
  | 0x23 => divF one (sqrtF v)
  | 0x24 => expV (fixMul (max (-512 * fixOne) (min (512 * fixOne) x)) fixLn2)
  | 0x25 => expV x
  | 0x26 => ofFix (fixDiv (lnFix v) fixLn2) 0
  | 0x27 => ofFix (lnFix v) 0
  | 0x28 => ofFix (sinFix false x) 0
  | 0x29 => ofFix (sinFix true x) 0
  | 0x2A =>
    let n := min (64 * fixOne) (Int.natAbs x)
    let e := fixOf (expV (2 * n))
    let r := fixDiv (e - fixOne) (e + fixOne)
    ofFix (if x < 0 then -r else r) 0
  | 0x2B =>
    let e := expV x
    divF e (addF false one e)
  | _ => if 6 * fixOne ≤ Int.natAbs x then .fin (decide (x < 0)) 1 0 else ofFix (erfFix x) 0

/-- The spacing of FP32 values at a value. -/
def ulp32 (v : FV) : FV := .fin false 1 (max v.log2 (-126) - 23)

def FV.times (v : FV) (n : Nat) : FV := match v with
  | .fin s m e => .fin s (n * m) e
  | _ => v

/-- The bound of Table 5.6 at an argument whose exact result is `y`. -/
def functionBound (op : Nat) (v y : FV) : FV :=
  let near := !ltF v.abs (.fin false 3 (-2)) && !ltF (.fin false 3 (-1)) v.abs
  match op with
  | 0x22 => ulp32 y
  | 0x23 | 0x24 => (ulp32 y).times 2
  | 0x26 => if near then .fin false 1 (-24) else (ulp32 y).times 2
  | 0x27 => if near then .fin false 1 (-24) else (ulp32 y).times 3
  | 0x28 | 0x29 => .fin false 1 (-22)
  | 0x2C => (ulp32 y).times 4
  | _ => (ulp32 y).times 3

/-- FP32 bits held between two values: bits outside them give the nearest FP32 value inside, a NaN the value between them. -/
def within (lo mid hi : FV) (bits : Nat) : Nat :=
  match decodeF fp32 bits with
  | .nan => (encodeF fp32 {} 0 mid).1
  | y =>
    if ltF y lo then (encodeF fp32 { rnd := 3 } 0 lo).1
    else if ltF hi y then
      (if y == .inf false && (encodeF fp32 { rnd := 3 } 0 hi).1 == infCode fp32 then bits else (encodeF fp32 { rnd := 2 } 0 hi).1)
    else bits

/-- FP32 bits as the result of a function at a finite nonzero value: within its bound, or, for sin and cos beyond 2^20, between −1 and 1
(R179). -/
def functionHeld (op : Nat) (v : FV) (bits : Nat) : Nat :=
  let one : FV := .fin false 1 0
  if (op == 0x28 || op == 0x29) && ltF (.fin false 1 20) v.abs then within one.negate (.zero false) one bits
  else
    let y := functionValue op v
    let b := functionBound op v y
    within (addF false y b.negate) y (addF false y b) bits

end Sys2Proof.Machine
end

