-- ==== Sys2Proof/Machine/Programs.lean ====
section
/-! DEFINITION. Programs of the vector engine: the layout and validity of instructions, and what the chain does to one row
(R213 to R236). A lane's 32-bit value is its bits; the wires of one row are four lists of 128 values. -/

namespace Sys2Proof.Machine

/-! ## Instructions -/

def vOp (i : W64) : Nat := bitsOf i 56 8
def vDst (i : W64) : Nat := bitsOf i 54 2
def vA (i : W64) : Nat := bitsOf i 50 4
def vB (i : W64) : Nat := bitsOf i 46 4
def vC (i : W64) : Nat := bitsOf i 42 4
def vFmt (i : W64) : Nat := bitsOf i 37 5
def vMod (i : W64) : Nat := bitsOf i 32 5
def vImm (i : W64) : Nat := bitsOf i 0 32

/-- Classes of Table 7.1. -/
inductive VClass where
  | l | m | x | t | f
  deriving DecidableEq, Repr

/-- Class and FMT codes of an operation (Table 7.4), none for a reserved OP. Code 0x00 is FP64, 0x01 FP32, 0x0B INT32. -/
def vRow (op : Nat) : Option (VClass × List Nat) :=
  if op = 0x00 then some (.l, [0])
  else if op = 0x01 ∨ op = 0x09 ∨ op = 0x12 then some (.l, [0x01, 0x0B, 0x00])
  else if 0x02 ≤ op ∧ op ≤ 0x07 then some (.l, [0x01, 0x00])
  else if op = 0x08 then some (.l, [0x01, 0x00, 0x0B])
  else if 0x0A ≤ op ∧ op ≤ 0x11 then some (.l, [0x0B])
  else if op = 0x13 then some (.l, [0x02, 0x03, 0x04, 0x05, 0x06, 0x07, 0x08])
  else if 0x18 ≤ op ∧ op ≤ 0x1A then some (.m, [0x01, 0x00])
  else if op = 0x1B then some (.m, [0x0B])
  else if op = 0x20 ∨ op = 0x21 then some (.f, [0x01, 0x00])
  else if 0x22 ≤ op ∧ op ≤ 0x2C then some (.f, [0x01])
  else if op = 0x40 ∨ op = 0x41 ∨ op = 0x44 then some (.x, [0x01, 0x0B])
  else if op = 0x42 ∨ op = 0x43 then some (.x, [0x02, 0x03])
  else if op = 0x60 ∨ op = 0x62 ∨ op = 0x63 then some (.t, [0x01, 0x0B])
  else if op = 0x61 ∨ op = 0x64 ∨ op = 0x65 then some (.t, [0x01])
  else if op = 0x66 then some (.t, [0x0B])
  else if op = 0x70 then some (.t, [0x01, 0x0B])
  else none

/-- Sources that an instruction uses: a, b, c. -/
def vUses (i : W64) : Bool × Bool × Bool :=
  let op := vOp i
  if op = 0x00 then (false, false, false)
  else if op = 0x09 ∨ op = 0x19 ∨ op = 0x1A then (true, true, true)
  else if op = 0x41 then (true, false, vMod i == 3)
  else if op = 0x44 then (true, false, (vMod i).testBit 2)
  else if (2 ≤ op ∧ op ≤ 5) ∨ op = 8 ∨ (0x0A ≤ op ∧ op ≤ 0x11) ∨ op = 0x18 ∨ op = 0x1B ∨ op = 0x20 ∨ op = 0x40 ∨ op = 0x42 then
    (true, true, false)
  else (true, false, false)

/-- Codes of the sources that an instruction uses. -/
def vSources (i : W64) : List Nat :=
  let u := vUses i
  (if u.1 then [vA i] else []) ++ (if u.2.1 then [vB i] else []) ++ (if u.2.2 then [vC i] else [])

/-- An FP64 instruction: FMT is FP64, or it converts from FP64. -/
def vWide (i : W64) : Bool := vOp i != 0 && (vFmt i == 0 || (vOp i == 0x12 && vMod i == 2))

/-- MOD of an instruction is among those its operation uses. -/
def vModOk (i : W64) : Bool :=
  match vOp i with
  | 0x04 | 0x05 | 0x43 => vMod i ≤ 1
  | 0x08 | 0x70 => vMod i ≤ 7
  | 0x12 => vMod i ≤ 2
  | 0x41 => vMod i ≤ 3
  | 0x44 => vMod i ≤ 7 && vMod i % 4 != 3
  | _ => vMod i == 0

/-- IMM has no bit beyond those its instruction uses. -/
def vImmOk (i : W64) : Bool :=
  (vSources i).contains 9
    || (match vOp i with
      | 0x41 => vImm i < 128
      | 0x70 => vImm i < 8
      | _ => vImm i == 0)

/-- Instruction `j` of a program is invalid (R215, R222, R223). -/
def vBad (j : Nat) (i : W64) : Bool :=
  match vRow (vOp i) with
  | none => true
  | some (cl, fmts) =>
    let place := match cl with
      | .m => j % 16 == 0
      | .x => j % 16 == 7
      | .t => j % 16 == 15
      | _ => true
    let u := vUses i
    !place || !fmts.contains (vFmt i) || !vModOk i || !vImmOk i
      || (vSources i).any (fun c => 0xC ≤ c || (vWide i && (c == 1 || c == 3)))
      || (vOp i != 0 && vOp i != 0x70 && vFmt i == 0 && vDst i % 2 == 1)
      || (!u.1 && vA i != 0) || (!u.2.1 && vB i != 0) || (!u.2.2 && vC i != 0)

/-- A program is invalid (R223). -/
def programBad (p : List W64) : Bool :=
  p.isEmpty || 64 < p.length || p.zipIdx.any (fun x => vBad x.2 x.1)
    || (let k := (p.filter fun i => vOp i == 0x70).map fun i => vImm i % 8
        decide (k.eraseDups.length < k.length))

/-- A program reads the source with code `c`. -/
def programReads (p : List W64) (c : Nat) : Bool := p.any fun i => (vSources i).contains c

/-- A program reads source `c` as a 32-bit value. -/
def programReads32 (p : List W64) (c : Nat) : Bool :=
  p.any fun i => (vSources i).contains c && !(if vOp i = 0x12 then vMod i == 2 else vFmt i == 0)

def programWide (p : List W64) : Bool := p.any vWide

/-! ## The row in the chain -/

/-- What a row finds on its way: the stream elements as they entered, with the FP32 form of FP64 ones, the lane constants, the row's
scalar and number. -/
structure ChainEnv where
  in0 : List Nat := []
  in1 : List Nat := []
  /-- The stream's elements are FP64. -/
  wide0 : Bool := false
  wide1 : Bool := false
  in0r : List Nat := []
  in1r : List Nat := []
  k0 : List Nat := []
  k1 : List Nat := []
  rs : Nat := 0
  row : Nat := 0
  ucrev : Nat := 0
  /-- Lane limit of a chain run: lanes from it on are left out of class T (R255). -/
  lim : Nat := 128
  deriving DecidableEq, Repr

/-- A row in the chain: wires W0 to W3, the lanes' generators, FLUSHED, and the summaries of the run so far. -/
structure ChainRow where
  wires : List (List Nat) := List.replicate 4 (List.replicate 128 0)
  gens : List W64 := List.replicate 128 0
  flushed : Bool := false
  sums : AMap Nat := []
  deriving DecidableEq, Repr

def lanes128 (f : Nat → Nat) : List Nat := (List.range 128).map f

/-- FP32 bits widened exactly to FP64. -/
def widen (b : Nat) : Nat := (encodeF fp64 {} 0 (decodeF fp32 b)).1

/-- A source read as 32-bit values. -/
def src32 (e : ChainEnv) (c : ChainRow) (imm code : Nat) : List Nat :=
  if code < 4 then c.wires.getD code []
  else match code with
    | 4 => if e.wide0 then e.in0r else e.in0
    | 5 => if e.wide1 then e.in1r else e.in1
    | 6 => e.k0
    | 7 => e.k1
    | 8 => lanes128 fun _ => e.rs
    | 9 => lanes128 fun _ => imm
    | 10 => lanes128 id
    | _ => lanes128 fun _ => e.row

/-- A source read as FP64: a wire pair, an FP64 stream, or a 32-bit value widened exactly. -/
def src64 (e : ChainEnv) (c : ChainRow) (imm code : Nat) : List Nat :=
  if code < 4 then
    ((c.wires.getD code []).zip (c.wires.getD (code + 1) [])).map fun p => p.1 % 2 ^ 32 + p.2 * 2 ^ 32
  else if code = 4 && e.wide0 then e.in0
  else if code = 5 && e.wide1 then e.in1
  else (src32 e c imm code).map widen

/-- One draw of every lane, or none where the mode is not stochastic (R167). -/
def drawAll (a : AMode) (c : ChainRow) : List Nat × ChainRow :=
  if a.sr then
    let ds := c.gens.map fun g => srDraw g a.srbits
    (ds.map (·.2), { c with gens := ds.map (·.1) })
  else (List.replicate 128 0, c)

/-- One rounding in every lane. -/
def roundAll (f : FFmt) (a : AMode) (vs : List FV) (c : ChainRow) : List Nat × ChainRow :=
  let (ds, c) := drawAll a c
  let rs := (vs.zip ds).map fun p => encodeF f a p.2 p.1
  (rs.map (·.1), { c with flushed := c.flushed || rs.any (·.2) })

/-- One rounding by lane 0, given to every lane (R225). -/
def roundLane0 (a : AMode) (v : FV) (c : ChainRow) : List Nat × ChainRow :=
  let (d, c) :=
    if a.sr then
      let x := srDraw (c.gens.headD 0) a.srbits
      (x.2, { c with gens := x.1 :: c.gens.drop 1 })
    else (0, c)
  let r := encodeF fp32 a d v
  (lanes128 fun _ => r.1, { c with flushed := c.flushed || r.2 })

/-- The destination wire, or pair, takes its values. -/
def setWire (c : ChainRow) (dst : Nat) (wide : Bool) (vs : List Nat) : ChainRow :=
  if wide then
    { c with wires := (c.wires.set dst (vs.map fun v => v % 2 ^ 32)).set (dst + 1) (vs.map fun v => v / 2 ^ 32) }
  else { c with wires := c.wires.set dst vs }

/-- The relation of CMP on floating-point values and on integers. -/
def cmpF (m : Nat) (a b : FV) : Bool :=
  let un := a == .nan || b == .nan
  match m with
  | 0 => !un && eqF a b
  | 1 => un || !eqF a b
  | 2 => !un && ltF a b
  | 3 => !un && (ltF a b || eqF a b)
  | 4 => !un && ltF b a
  | 5 => !un && (ltF b a || eqF a b)
  | 6 => un
  | _ => !un

def cmpI (m : Nat) (a b : Int) : Bool :=
  match m with
  | 0 => a == b
  | 1 => a != b
  | 2 => decide (a < b)
  | 3 => decide (a ≤ b)
  | 4 => decide (b < a)
  | 5 => decide (b ≤ a)
  | 6 => false
  | _ => true

/-- A function of Table 5.6 on FP32 bits (R153, R179 to R181): its exact special values, else a fixed function held to the bound of its
row (Log 6); with the flush of an input or of the result. -/
def function32 (op : Nat) (a : AMode) (ucrev x : Nat) : Nat × Bool :=
  let (v, fi) := readF fp32 a.ftz x
  let enc (v : FV) : Nat := (encodeF fp32 {} 0 v).1
  let one : FV := .fin false 1 0
  let other : Nat := functionHeld op v (Config.function op (BitVec.ofNat 32 (enc v)) a.rnd a.sat a.ftz a.srbits ucrev).toNat
  let out : Nat :=
    match v with
    | .nan => nanCode fp32
    | .inf s =>
      match op with
      | 0x22 => enc (.zero s)
      | 0x23 => if s then nanCode fp32 else 0
      | 0x24 | 0x25 => if s then 0 else enc (.inf false)
      | 0x26 | 0x27 => if s then nanCode fp32 else other
      | 0x28 | 0x29 => nanCode fp32
      | 0x2A | 0x2C => enc (.fin s 1 0)
      | 0x2B => if s then 0 else enc one
      | _ => other
    | .fin s 0 _ =>
      match op with
      | 0x22 | 0x23 => enc (.inf s)
      | 0x24 | 0x25 | 0x29 => enc one
      | 0x26 | 0x27 => enc (.inf true)
      | 0x28 | 0x2A | 0x2C => enc (.zero s)
      | 0x2B => enc (.fin false 1 (-1))
      | _ => other
    | .fin s m e =>
      match op with
      | 0x23 => if s then nanCode fp32 else other
      | 0x24 =>
        let n := encodeInt 32 { rnd := 1 } 0 v
        if !s && 128 ≤ n then enc (.inf false)
        else if eqF (.ofInt n) v && -149 ≤ n && n ≤ 127 then enc (.fin false 1 n)
        else other
      | 0x26 =>
        let l := FV.log2 v
        if s then nanCode fp32 else if eqF v (.fin false 1 l) then enc (.ofInt l) else other
      | 0x27 => if s then nanCode fp32 else if eqF v one then 0 else other
      | _ => let _ := m + e.toNat; other
  let (w, fo) := readF fp32 a.ftz out
  (if fo then enc w else out, fi || fo)

/-- The inclusive scan of R229: steps s = 0 to 6. -/
def scanLanes (isF : Bool) (op : Nat) (a : AMode) (g : List Nat) (v : List Nat) (c : ChainRow) : List Nat × ChainRow :=
  (List.range 7).foldl (fun (acc : List Nat × ChainRow) s =>
    let (v, c) := acc
    let w := 2 ^ s
    let joins (i : Nat) : Bool := w ≤ i && (List.range w).all fun k => g.getD (i - k) 0 == 0
    let (ds, c) := if isF && op == 0 then drawAll a c else (List.replicate 128 0, c)
    let rs := (List.range 128).map fun i =>
      let x := v.getD (i - w) 0
      let y := v.getD i 0
      if !joins i then (y, false)
      else if isF then
        match op with
        | 0 => encodeF fp32 a (ds.getD i 0) (addF (a.rnd == 2) (decodeF fp32 x) (decodeF fp32 y))
        | 1 => encodeF fp32 {} 0 (maxF false (decodeF fp32 x) (decodeF fp32 y))
        | _ => encodeF fp32 {} 0 (minF false (decodeF fp32 x) (decodeF fp32 y))
      else
        match op with
        | 0 => ((x + y) % 2 ^ 32, false)
        | 1 => (if intOf 32 x ≤ intOf 32 y then y else x, false)
        | _ => (if intOf 32 x ≤ intOf 32 y then x else y, false)
    (rs.map (·.1), { c with flushed := c.flushed || rs.any (·.2) })) (v, c)

/-- Lowest lane whose value satisfies `p`. -/
def lowestLane (vs : List FV) (p : FV → Bool) : Option Nat := vs.findIdx? p

/-- The exact sum over the lanes; −0 over no lanes (R255). -/
def laneSum (rdn : Bool) (vs : List FV) : FV := if vs.isEmpty then .zero true else sumF rdn vs

/-- A summary's start (Table 7.7). -/
def summStart (kind : Nat) : Nat :=
  match kind with
  | 0 => (encodeF fp32 {} 0 (.inf true)).1
  | 1 => (encodeF fp32 {} 0 (.inf false)).1
  | 6 => (encodeF fp32 {} 0 (.zero true)).1
  | _ => 0

/-- A summary after one row (Table 7.7): its value and a flush. -/
def summRow (kind : Nat) (ftz : Bool) (old : Nat) (a : List Nat) : Nat × Bool :=
  let vs := a.map (decodeF fp32)
  let f (v : FV) : Nat × Bool := encodeF fp32 {} 0 v
  match kind with
  | 0 => f (vs.foldl (maxF false) (decodeF fp32 old))
  | 1 => f (vs.foldl (minF false) (decodeF fp32 old))
  | 2 => f ((vs.map FV.abs).foldl (maxF false) (decodeF fp32 old))
  | 3 => (if vs.any (· == .nan) then 1 else old, false)
  | 4 => (if vs.any (fun v => v == .inf true || v == .inf false) then 1 else old, false)
  | 5 => (min (2 ^ 31 - 1) (old + (a.filter (· != 0)).length), false)
  | 6 =>
    let (l, fl) := encodeF fp32 { ftz := ftz } 0 (sumF false vs)
    let (r, fr) := encodeF fp32 { ftz := ftz } 0 (addF false (decodeF fp32 old) (decodeF fp32 l))
    (r, fl || fr)
  | _ => (a.foldl (fun n x => (n + x) % 2 ^ 32) old, false)

/-- Lanes of a wire as its sixteen-bit elements: element `2i` is the low half of lane `i`. -/
def halves (a : List Nat) (n : Nat) : Nat := a.getD (n / 2) 0 / 2 ^ (16 * (n % 2)) % 2 ^ 16

/-- One instruction acts on a row (Table 7.4). -/
def chainStep (a : AMode) (e : ChainEnv) (c : ChainRow) (i : W64) : ChainRow :=
  let wide := vFmt i == 0
  let int := vFmt i == 0x0B
  let fm := if wide then fp64 else fp32
  let rd (code : Nat) : List Nat := if wide then src64 e c (vImm i) code else src32 e c (vImm i) code
  let x := rd (vA i)
  let y := rd (vB i)
  let z := rd (vC i)
  let fx := x.map (decodeF fm)
  let fy := y.map (decodeF fm)
  let fz := z.map (decodeF fm)
  let rdn := a.rnd == 2
  let tx := x.take e.lim
  let tf := fx.take e.lim
  let put (vs : List Nat) : ChainRow := setWire c (vDst i) wide vs
  let rounded (vs : List FV) : ChainRow :=
    let (bs, c) := roundAll fm a vs c
    setWire c (vDst i) wide bs
  let exact (vs : List FV) : ChainRow := put (vs.map fun v => (encodeF fm {} 0 v).1)
  let ints (f : Nat → Nat → Nat) : ChainRow := put ((x.zip y).map fun p => f p.1 p.2 % 2 ^ 32)
  let every (n : Nat) : ChainRow := put (lanes128 fun _ => n)
  match vOp i with
  | 0x00 => c
  | 0x01 => put x
  | 0x02 => rounded ((fx.zip fy).map fun p => addF rdn p.1 p.2)
  | 0x03 => rounded ((fx.zip fy).map fun p => addF rdn p.1 p.2.negate)
  | 0x04 => exact ((fx.zip fy).map fun p => minF (vMod i == 1) p.1 p.2)
  | 0x05 => exact ((fx.zip fy).map fun p => maxF (vMod i == 1) p.1 p.2)
  | 0x06 => exact (fx.map FV.abs)
  | 0x07 => exact (fx.map FV.negate)
  | 0x08 =>
    let r (b : Bool) : Nat := if b then 2 ^ 32 - 1 else 0
    setWire c (vDst i) false (if int then (x.zip y).map fun p => r (cmpI (vMod i) (intOf 32 p.1) (intOf 32 p.2))
      else (fx.zip fy).map fun p => r (cmpF (vMod i) p.1 p.2))
  | 0x09 => put ((z.zip (x.zip y)).map fun p => if p.1 != 0 then p.2.1 else p.2.2)
  | 0x0A => ints fun p q => p &&& q
  | 0x0B => ints fun p q => p ||| q
  | 0x0C => ints fun p q => p ^^^ q
  | 0x0D => ints fun p q => p * 2 ^ (q % 32)
  | 0x0E => ints fun p q => p / 2 ^ (q % 32)
  | 0x0F => ints fun p q => intCode 32 ((intOf 32 p).fdiv (2 ^ (q % 32) : Nat))
  | 0x10 => ints fun p q => p + q
  | 0x11 => ints fun p q => p + 2 ^ 32 - q % 2 ^ 32
  | 0x12 =>
    let src := if vMod i = 2 then src64 e c (vImm i) (vA i) else src32 e c (vImm i) (vA i)
    if int && vMod i == 1 then put src
    else
      let vs := src.map fun b => if vMod i = 1 then FV.ofInt (intOf 32 b) else decodeF (if vMod i = 2 then fp64 else fp32) b
      if int then
        let (ds, c) := drawAll a c
        setWire c (vDst i) false ((vs.zip ds).map fun p => intCode 32 (encodeInt 32 a p.2 p.1))
      else rounded vs
  | 0x13 =>
    match elemOf (vFmt i) with
    | some (.float f) =>
      let (bs, c) := roundAll f a ((src32 e c (vImm i) (vA i)).map (decodeF fp32)) c
      setWire c (vDst i) false (bs.map fun b => (encodeF fp32 {} 0 (decodeF f b)).1)
    | _ => c
  | 0x18 => rounded ((fx.zip fy).map fun p => mulF p.1 p.2)
  | 0x19 => rounded (((fx.zip fy).zip fz).map fun p => addF rdn (mulF p.1.1 p.1.2) p.2)
  | 0x1A => rounded (((fx.zip fy).zip fz).map fun p => addF rdn (mulF p.1.1 p.1.2).negate p.2)
  | 0x1B => ints fun p q => p * q
  | 0x20 =>
    -- DIV and SQRT are functions of Table 5.6 too: FTZ flushes their inputs (R180)
    let us := x.map (readF fm a.ftz)
    let ws := y.map (readF fm a.ftz)
    let c := rounded ((us.zip ws).map fun p => divF p.1.1 p.2.1)
    { c with flushed := c.flushed || us.any (·.2) || ws.any (·.2) }
  | 0x21 =>
    let us := x.map (readF fm a.ftz)
    let c := rounded (us.map fun p => sqrtF p.1)
    { c with flushed := c.flushed || us.any (·.2) }
  | 0x40 => put (y.map fun n => x.getD (n % 128) 0)
  | 0x41 =>
    let m := vImm i % 128
    put (lanes128 fun l => match vMod i with
      | 0 => x.getD (l ^^^ m) 0
      | 1 => x.getD ((l + m) % 128) 0
      | 2 => x.getD m 0
      | _ => if m ≤ l then x.getD (l - m) 0 else z.getD l 0)
  | 0x42 =>
    match elemOf (vFmt i) with
    | some (.float f) =>
      let seq := (src32 e c (vImm i) (vA i) ++ src32 e c (vImm i) (vB i)).map (decodeF fp32)
      let pick (h : Nat) : List FV := (List.range 128).map fun l => seq.getD (2 * l + h) .nan
      let (lo, c) := roundAll f a (pick 0) c
      let (hi, c) := roundAll f a (pick 1) c
      setWire c (vDst i) false ((lo.zip hi).map fun p => p.1 + p.2 * 2 ^ 16)
    | _ => c
  | 0x43 =>
    match elemOf (vFmt i) with
    | some (.float f) =>
      let src := src32 e c (vImm i) (vA i)
      setWire c (vDst i) false (lanes128 fun l => (encodeF fp32 {} 0 (decodeF f (halves src (128 * (vMod i % 2) + l)))).1)
    | _ => c
  | 0x44 =>
    let g := if (vMod i).testBit 2 then z else lanes128 fun _ => 0
    let (bs, c) := scanLanes (!int) (vMod i % 4) a g x c
    setWire c (vDst i) false bs
  | 0x60 =>
    if int then every (tx.foldl (fun n v => (n + v) % 2 ^ 32) 0)
    else
      let (bs, c) := roundLane0 a (laneSum rdn tf) c
      setWire c (vDst i) false bs
  | 0x61 =>
    let (bs, c) := roundLane0 a (laneSum rdn (tf.map fun v => mulF v v)) c
    setWire c (vDst i) false bs
  | 0x62 =>
    if int then
      every (if tx.isEmpty then (Config.noLanes 0x62).toNat
        else intCode 32 (tx.foldl (fun (n : Int) v => max n (intOf 32 v)) (-(2 ^ 31 : Nat))))
    else every (encodeF fp32 {} 0 (tf.foldl (maxF false) (.inf true))).1
  | 0x63 =>
    if int then
      every (if tx.isEmpty then (Config.noLanes 0x63).toNat
        else intCode 32 (tx.foldl (fun (n : Int) v => min n (intOf 32 v)) ((2 ^ 31 : Nat) - 1)))
    else every (encodeF fp32 {} 0 (tf.foldl (minF false) (.inf false))).1
  | 0x64 => every (encodeF fp32 {} 0 ((tf.map FV.abs).foldl (maxF false) (.zero false))).1
  | 0x65 =>
    let top := tf.foldl (maxF false) (.inf true)
    let code (v : FV) : Nat := (encodeF fp32 {} 0 v).1
    every (((lowestLane tf (· == .nan)).orElse fun _ => lowestLane tf fun v => code v == code top).getD 128)
  | 0x66 => every (tx.filter (· != 0)).length
  | 0x70 =>
    let n := vImm i % 8
    let (v, fl) := summRow (vMod i) a.ftz (AMap.getD c.sums n (summStart (vMod i))) x
    { c with sums := AMap.put c.sums n v, flushed := c.flushed || fl }
  | op =>
    if 0x22 ≤ op ∧ op ≤ 0x2C then
      let rs := x.map fun b => function32 op a e.ucrev b
      let c := { c with flushed := c.flushed || rs.any (·.2) }
      setWire c (vDst i) false (rs.map (·.1))
    else c

/-! ## Entry and output -/

/-- The elements of a row in format `fmt` enter the chain (R224, R226): their values, with whether they are FP64. -/
def enterRow (fmt : Nat) (a : AMode) (codes scales : List Nat) (c : ChainRow) : List Nat × ChainRow :=
  match elemOf fmt with
  | some (.int n) => (codes.map fun v => intCode 32 (intOf n v), c)
  | some x =>
    if fmtMx fmt then
      roundAll fp32 a (codes.zipIdx.map fun p => mxValue x (scales.getD (p.2 / 32) 0xFF) p.1) c
    else
      let f := match x with
        | .float f => f
        | _ => fp32
      let out := if fmt = 0 then fp64 else fp32
      let rs := codes.map fun v =>
        let bits := if fmt = 0 ∨ fmt = 1 then v else (encodeF fp32 {} 0 (decodeF f v)).1
        let r := readF out a.ftz bits
        if r.2 then ((encodeF out {} 0 r.1).1, true) else (bits, false)
      (rs.map (·.1), { c with flushed := c.flushed || rs.any (·.2) })
  | none => (codes, c)

/-- FP64 elements that 32-bit operands read are rounded to FP32 as they enter (R224). -/
def narrowRow (a : AMode) (reads : Bool) (vs : List Nat) (c : ChainRow) : List Nat × ChainRow :=
  if reads then roundAll fp32 a (vs.map (decodeF fp64)) c else ([], c)

/-- The output conversion of a row (R243, R174, R175): 128 element codes, and four scale bytes of an MX format. -/
def leaveRow (fmt ty : Nat) (o : AMode) (vs : List Nat) (c : ChainRow) : List Nat × List Nat × ChainRow :=
  let f := if ty = 2 then fp64 else fp32
  let ins := vs.map fun b => if ty = 1 then (FV.ofInt (intOf 32 b), false) else readF f o.ftz b
  let c := { c with flushed := c.flushed || ins.any (·.2) }
  match elemOf fmt with
  | some (.int n) =>
    if ty = 1 then
      (vs.map fun b =>
        let v := intOf 32 b
        if o.sat then intCode n (max (-(2 ^ (n - 1) : Nat)) (min ((2 ^ (n - 1) : Nat) - 1) v)) else intCode n v, [], c)
    else
      let (ds, c) := drawAll o c
      ((ins.zip ds).map fun p => intCode n (encodeInt n o p.2 p.1.1), [], c)
  | some x =>
    if fmtMx fmt then
      let (ds, c) := drawAll o c
      let blocks := (List.range 4).map fun b => mxBlock x o ((ds.drop (32 * b)).take 32) (((ins.map (·.1)).drop (32 * b)).take 32)
      (blocks.flatMap (·.2), blocks.map (·.1), c)
    else
      let g := match x with
        | .float g => g
        | _ => fp32
      let (bs, c) := roundAll g o (ins.map (·.1)) c
      (bs, [], c)
  | none => (vs, [], c)

/-- The start of the column accumulators (R231). -/
def colStart (op : Nat) : Nat :=
  (encodeF fp32 {} 0 (match op with
    | 1 => .zero true
    | 2 => .inf true
    | 3 => .inf false
    | _ => .zero false)).1

/-- The column accumulators add a row (R231). -/
def colAdd (op : Nat) (a : AMode) (acc vs : List Nat) (c : ChainRow) : List Nat × ChainRow :=
  let fv := (acc.zip vs).map fun p => (decodeF fp32 p.1, decodeF fp32 p.2)
  match op with
  | 1 => roundAll fp32 a (fv.map fun p => addF (a.rnd == 2) p.1 p.2) c
  | 2 => (fv.map fun p => (encodeF fp32 {} 0 (maxF false p.1 p.2)).1, c)
  | 3 => (fv.map fun p => (encodeF fp32 {} 0 (minF false p.1 p.2)).1, c)
  | 4 => (fv.map fun p => (encodeF fp32 {} 0 (maxF false p.1.abs p.2.abs)).1, c)
  | _ => (acc, c)

end Sys2Proof.Machine
end

