-- ==== Sys2Proof/Machine/Start.lean ====
section
/-! DEFINITION. What survives a reset or a power state (R585, Table 20.6), detach (R525 to R528), sleep entry (R513), the module record
and boot bundle (R545, R546, R574), full starts (R577 to R579), stops (R582) and the Tarle-only reset. -/

namespace Sys2Proof.Machine

/-- The full starts of Table 20.4. -/
inductive StartKind where
  | powerOn | module | warm
  deriving DecidableEq, Repr

/-- A register field of a class keeps its value through a full start (Tables 20.6 and 22.4). Class R is loaded anew from the
record, and class F shows its unit's state. -/
def StartKind.keeps : StartKind → Cls → Bool
  | .powerOn, _ => false
  | .module, .t | .module, .z | .module, .g => true
  | .module, _ => false
  | .warm, .t | .warm, .z | .warm, .g | .warm, .c | .warm, .i | .warm, .s => true
  | .warm, _ => false

/-- Fields of class F whose unit a full start leaves as it is: the chain address, the flash channels and their wear; on a
device-warm reset also the host link and its session (Table 20.4). -/
def StartKind.keepsKey (k : StartKind) (key : Nat) : Bool :=
  key / 64 == 0x080018 || (decide (0x080200 ≤ key / 64) && decide (key / 64 < 0x080280)) || key == Reg.TC_STAT.ADDR.key
    || (k == .warm && (key == Reg.HP_STAT.LINKUP.key || key == Reg.HP_STAT.SESSION.key || key == Reg.TC_STAT.BYPASS.key))

/-- Bytes `off` to `off + n - 1` of a file as a number. -/
def fileNat (b : List Byte) (off n : Nat) : Nat := leNat ((b.drop off).take n)

def fileBytes (b : List Byte) (off n : Nat) : List Byte := (b.drop off).take n

def allZero (b : List Byte) : Bool := b.all (· == 0)

/-- Ranges that do not overlap. -/
def disjoint : List (Nat × Nat) → Bool
  | [] => true
  | x :: rest => (rest.all fun y => decide (x.1 + x.2 ≤ y.1) || decide (y.1 + y.2 ≤ x.1)) && disjoint rest

/-! ## The module record (Table 20.1) -/

/-- Directory entry `e` of a record: type, offset, length. -/
def recordDir (r : List Byte) (e : Nat) : Nat × Nat × Nat :=
  (fileNat r (96 + 16 * e) 4, fileNat r (100 + 16 * e) 4, fileNat r (104 + 16 * e) 4)

/-- Section of a type, where the record has one. -/
def recordSection (r : List Byte) (ty : Nat) : Option (List Byte) :=
  ((List.range 8).map (recordDir r)).findSome? fun d => if d.1 = ty then some (fileBytes r d.2.1 d.2.2) else none

/-- Repair entries whose reserved byte and EVENT are zero, as those of the module record are (Table 20.2, R14). -/
def entriesOk (b : List Byte) : Bool :=
  (List.range (b.length / 8)).all fun i => fileNat b (8 * i + 1) 1 == 0 && fileNat b (8 * i + 3) 1 == 0

/-- Tarle accepts a record (R574); its reserved fields are zero (R14). -/
def recordOk (serial : BitVec 128) (r : List Byte) : Bool :=
  let signed := fileNat r 4 4
  let total := fileNat r 8 4
  let dirs := ((List.range 8).map (recordDir r)).filter fun d => d.1 != 0
  r.length ≤ 0x60000 && fileNat r 0 4 == 0x314D4C46 && total == r.length && signed ≤ total && 288 ≤ signed
    && (total - signed) % 8 == 0 && fileBytes r 12 16 == leBytes 16 serial.toNat
    && Config.sm3 (fileBytes r 32 64) == Config.vendorKeyDigest
    && Config.sm2Verify (fileBytes r 32 64) (r.take (signed - 64)) (fileBytes r (signed - 64) 64)
    && (dirs.all fun d => decide (d.2.1 + d.2.2 ≤ signed)) && disjoint (dirs.map fun d => d.2)
    && allZero (fileBytes r 28 4) && ((List.range 8).all fun e => fileNat r (108 + 16 * e) 4 == 0)
    && entriesOk ((recordSection r 1).getD []) && entriesOk (r.drop signed)

/-- Repair entries of 8 bytes. -/
def repairEntries (b : List Byte) : List UnitRef :=
  (List.range (b.length / 8)).filterMap fun i =>
    entryUnit (fileNat b (8 * i) 1) (fileNat b (8 * i + 2) 1) (fileNat b (8 * i + 4) 4)

/-- The assembly repairs and the field repairs of a record. -/
def assemblyRepairs (r : List Byte) : List UnitRef := repairEntries ((recordSection r 1).getD [])
def fieldRepairs (r : List Byte) : List UnitRef := repairEntries (r.drop (fileNat r 4 4))

/-! ## The boot bundle (Table 19.1) -/

/-- Component entry `c`: type, offset, length. -/
def bundleComp (b : List Byte) (c : Nat) : Nat × Nat × Nat :=
  (fileNat b (64 + 16 * c) 4, fileNat b (68 + 16 * c) 4, fileNat b (72 + 16 * c) 4)

/-- The bytes of the component of a type. -/
def bundlePart (b : List Byte) (ty : Nat) : List Byte :=
  (((List.range 3).map (bundleComp b)).findSome? fun c => if c.1 = ty then some (fileBytes b c.2.1 c.2.2) else none).getD []

/-- Tarle accepts a bundle (R546). -/
def bundleOk (b : List Byte) : Bool :=
  let total := fileNat b 4 4
  let comps := (List.range 3).map (bundleComp b)
  fileNat b 0 4 == 0x31424C46 && total == b.length && 4096 ≤ total && total ≤ 0x4000000
    && allZero (fileBytes b 20 44) && allZero (fileBytes b 176 3920)
    && ((List.range 3).all fun c => fileNat b (76 + 16 * c) 4 == 0)
    && Config.sm3 (fileBytes b 112 64) == Config.vendorKeyDigest
    && Config.sm2Verify (fileBytes b 112 64) (b.take (total - 64)) (fileBytes b (total - 64) 64)
    && ([1, 2, 3].all fun ty => comps.any fun c => c.1 == ty)
    && (comps.all fun c => decide (4096 ≤ c.2.1) && decide (c.2.1 + c.2.2 ≤ total - 64))
    && disjoint (comps.map fun c => c.2)

/-- A measurement slot of zero. -/
def zeroSlot : List Byte := List.replicate 32 0

namespace State

/-! ## Measurements (R550) -/

def slotOf (s : State) (n : Nat) : List Byte := AMap.getD s.tarle.slots n zeroSlot

/-- An extension of slot `n` with data `x`. -/
def extendSlot (s : State) (n : Nat) (x : List Byte) : State :=
  { s with tarle := { s.tarle with slots := AMap.put s.tarle.slots n (Config.sm3 (s.slotOf n ++ Config.sm3 x)) } }

/-! ## Detach (R525 to R528) -/

/-- Accesses on their way to the service host end: a read is abandoned, a write is dropped (Table 18.3), and a record whose flag is not
acknowledged is held whole (R527). -/
def dropHostAccess (s : State) (x : Access) : State :=
  let gone (s : State) : State :=
    { s with order := { s.order with out := s.order.out.erase x, late := s.order.late ++ [x.id] } }
  let lossy (s : State) (n : Nat) : State := match x.desc with
    | some (q, seq) => s.addLoss q seq { dropped := n }
    | none => s
  if let some (fault, ring, bs) := x.mail then (gone s).holdMail fault ring bs
  else if x.write then lossy ((gone s).bump Reg.HP_DATADROP_CNT.COUNT x.bytes) x.bytes
  else
    match x.unit with
    | .core t => (gone s).fatalTrap t
    | .hart h => (gone s).hartFault h
    | .thread _ _ _ => (gone s).laneFault x
    | .hubIo => gone s
    | _ => { s with order := { s.order with out := s.order.out.map fun y =>
        if y = x then { y with got := some (List.replicate y.bytes none) } else y } }

/-- The device detaches, for cause 1, 2 or 3 of Table 18.4 (R526, R528, R483, R555). -/
def detach (s : State) (cause : Nat) : State :=
  let s := (s.raise Reg.HP_STAT.DETACHED).setFlag Reg.HP_STAT.SESSION false
  let s : State := { s with
    tarle := { s.tarle with spdm := [] }
    sorter := { s.sorter with pigeons := s.sorter.pigeons.map fun p =>
      (p.1, if p.2.loc && p.2.en then { p.2 with fetching := false, held := [] } else p.2) }
    host := { s.host with
      detachPm := s.now, gen := (s.host.gen + 1) % 2 ^ 32, cause := cause, heldDrop := 0
      dataAt := s.get Reg.HP_DATADROP_CNT.COUNT, attaching := false
      qdet := (s.sorter.pigeons.filter fun p => p.2.loc && p.2.en).length
      rdet := (s.sorter.rings.filter fun p => p.2.loc && p.2.en).length
        + (s.xlat.rings.filter fun p => p.2.loc && p.2.en).length } }
  let s := (s.order.out.filter fun x => x.host.isSome).foldl (fun (s : State) x => s.dropHostAccess x) s
  s.releaseMsixClaims

/-- Held records are written into their rings in held order, until one's ring is full (R530, step 1). -/
def writeHeld (s : State) : List (Bool × Nat × List Byte) → State
  | [] => { s with host := { s.host with held := [] } }
  | (fault, r, bs) :: rest =>
    let with_ (n : Nat) (ph : Nat) : List Byte := bs.take n ++ leBytes 1 ph
    if fault then
      (if (s.fring r).en && (s.fring r).full then { s with host := { s.host with held := (fault, r, bs) :: rest } }
       else if (s.fring r).en then (s.putFault r (with_ 63)).writeHeld rest
       else s.writeHeld rest)
    else if (s.ring r).en && (s.ring r).full then { s with host := { s.host with held := (fault, r, bs) :: rest } }
    else if (s.ring r).en then (s.putCompletion r (with_ 31)).writeHeld rest
    else s.writeHeld rest

/-- A write of HP_ATTACH (R530). -/
def attach (s : State) (v : Nat) : State :=
  if v % 2 = 1 && s.flag Reg.HP_STAT.DETACHED && s.flag Reg.HP_STAT.SESSION then
    let s : State := { s with host := { s.host with attaching := true } }
    s.writeHeld s.host.held
  else s.raise Reg.HP_STAT.CFGERR

/-- The attach ends once the last held flag is visible (R530, steps 2 and 3). -/
def attachDone (s : State) : State :=
  if !s.host.attaching then s
  else
    let s := s.writeHeld s.host.held
    if s.host.held.isEmpty then
      { s.setFlag Reg.HP_STAT.DETACHED false with host := { s.host with attaching := false } }
    else s

/-! ## Work drained (R513, step 2) -/

/-- No tile work, move or sorting-mode descriptor is in flight, every record has been written, and every buffered store has been
acknowledged or discarded. That the harts wait in WFI is the sender's to say (Log 28). -/
def workDrained (s : State) : Bool :=
  !(s.sorter.flights.any fun f => match classOf (opOf f.desc) with
      | some .management | some .sync => false
      | _ => true)
    && (s.sorter.rings.all fun p => p.2.waiting.isEmpty)
    && !(s.order.out.any fun x => x.write)
    && (s.tiles.all fun p => p.2.core.merge.isEmpty)
    && (s.harts.all fun p => p.2.unc.isEmpty)

/-! ## Sleep (R513, Table 20.6) -/

/-- Every line whose newest bytes are not in DRAM is written back. -/
def writeBackAll (s : State) : State :=
  let lines : List Nat := ((s.coh.lines.map fun (p : Nat × CLine) => p.1 % 2 ^ 45) ++ (s.coh.copies.map fun (p : Nat × Line × Bool) => p.1))
    ++ ((s.coh.net.filter carriesLine).map fun (m : Msg) => m.line.toNat)
  lines.foldl (fun (s : State) line =>
    match s.lineValue 2 line with
    | (some l, s) => s.dramWrite 2 line l
    | (none, s) => s) s

/-- A tile in Nap or Night: its scratchpad is kept in Nap. -/
def sleepTile (night : Bool) (epoch : Nat) (x : Tile) : Tile :=
  { mode := x.mode, clears := x.clears, idleSince := x.idleSince
    sp := if night then [] else x.sp
    spLost := if night then some epoch else x.spLost }

/-- Entry to Nap or Night completes: steps 3 to 5 of R513 with what Table 20.6 leaves. -/
def sleepNow (s : State) (night : Bool) : State :=
  let s := s.writeBackAll
  let keep (p : Nat × CLine) : Bool := !night && decide (p.1 / 2 ^ 45 < 32) && p.2.st.stable
  let s := if night then (s.loseTier1).detach 3 else s
  let s : State := { s with
    tiles := s.tiles.map fun p => (p.1, sleepTile night s.ident.losses p.2)
    posts := []
    coh := { lines := s.coh.lines.filter keep, lru := s.coh.lru.filter fun k => decide (k / 2 ^ 45 < 32) && !night, txn := s.coh.txn,
             rsize := (List.range 4).map fun h => s.get (Reg.COH_HCFG.RSIZE h) }
    harts := if night then [] else s.harts.map fun p => (p.1, { p.2 with wfi := true, resv := none })
    sorter := { s.sorter with halted := true }
    power := { s.power with sleep := if night then .night else .nap } }
  let s := s.dropTlb (fun e => night || e.id != .hub) (fun e => night || e.die != 4)
  let s := s.setFlag Reg.CG_STAT.LINKUP false
  if night then
    let s : State := { s with
      ec := { s.ec with src := s.ec.src.map fun p => (p.1, { p.2 with pend := false, active := false }), signals := [], pba := [] }
      tarle := { s.tarle with ide := [], sessions := [] } }
    let s := [0, 1, 2, 3].foldl (fun (s : State) p => (s.set (Reg.OB_PSTAT.RATE p) 0).set (Reg.OB_PSTAT.WIDTH p) 0) s
    s.setFlag Reg.HP_STAT.LINKUP false
  else s

/-- An entry is abandoned (R514). -/
def abandonEntry (s : State) : State :=
  match s.power.sleep with
  | .entering _ _ _ =>
    let s : State := { s with
      power := { s.power with sleep := .run }
      sorter := { s.sorter with halted := false }
      ec := { s.ec with wake := [] } }
    (s.raise Reg.PW_STAT.ENTFAIL).answerPower 4
  | _ => s

/-! ## Full starts -/

/-- Stores that have left for a port and are not acknowledged, and entries of merging buffers for targets beyond the coherent memory, are
discarded as at the end of a reset drain (Table 13.3; Log 29). -/
def dropStores (s : State) : State :=
  let merged := s.tiles.flatMap fun p =>
    (p.2.core.merge.filter fun e => e.host || !s.coherent (e.line * 128)).map fun e => s.mergeAccess p.1 e
  ((s.order.out.filter fun x => x.write) ++ merged).foldl (fun (s : State) x => s.drainDrop x) s

/-- Key pairs of the contexts that are open from the start (R559). -/
def drawKeys (s : State) : State :=
  let (_, s) := s.entropy 64
  let (a, s) := s.entropy 64
  let (b, s) := s.entropy 64
  { s with xlat := { s.xlat with ctxs := s.xlat.ctxs.map fun p =>
      (p.1, if p.1 = 1 then { p.2 with keys := a } else if p.1 = 2 then { p.2 with keys := b } else p.2) } }

/-- What a full start leaves of the state (Table 20.6). -/
def fullReset (s : State) (k : StartKind) : State :=
  let s := if k == .powerOn then s else s.dropStores
  let on := k == .powerOn
  let fl := s.flds.filter fun (p : Nat × Nat) => k.keepsKey p.1 || match fieldRow p.1 with
    | some (_, f) => k.keeps f.cls
    | none => false
  let s' : State :=
    { pending := s.pending
      flds := fl
      mem := s.mem.filter fun c => decide (flashBase ≤ c.1) || (!on && decide (reservedBase ≤ c.1) && decide (c.1 < tier0End))
      hostMem := s.hostMem
      ident := { s.ident with fill := s.ident.fill.filter fun p => decide (flashBase ≤ p.1 * 65536) }
      time := if on then {} else s.time
      ec := { sent := s.ec.sent, msixOn := k == .warm && s.ec.msixOn
              vectors := if k == .warm then s.ec.vectors else 0 }
      letters := if on then [] else s.letters
      power := { trip := s.power.trip, fresh := false }
      start := { s.start with
        record := if on then [] else s.start.record, bundle := if on then [] else s.start.bundle
        fetch := none, parts := [], lengths := [], stop := none, report := {} }
      flash := { s.flash with rate := [] }
      host := { gen := if on then 0 else s.host.gen, perst := s.host.perst, chainOut := s.host.chainOut, chainIdle := if on then 0 else s.host.chainIdle
                chainBusy := if on then 0 else s.host.chainBusy, letterSeq := if on then 0 else s.host.letterSeq
                forward := if k == .warm then s.host.forward else [], sendQ := if k == .warm then s.host.sendQ else [] }
      gate := { answers := s.gate.answers }
      tarle :=
        { draws := s.tarle.draws, answers := s.tarle.answers
          slots := if k == .warm then s.tarle.slots else []
          d := if k == .warm then s.tarle.d else [], vkey := if k == .warm then s.tarle.vkey else []
          cert := if k == .warm then s.tarle.cert else []
          components := if k == .warm then s.tarle.components else []
          letters := if k == .warm then s.tarle.letters else []
          spdm := if k == .warm then s.tarle.spdm else [], ide := if k == .warm then s.tarle.ide else []
          debugSeen := if on then [] else s.tarle.debugSeen }
      order := { timer := s.order.timer, frac := s.order.frac, tested := s.order.tested, nextId := s.order.nextId }
      free := s.free }
  -- new key pairs, and scratchpads and Tier 1 without their contents
  let s' := (s'.loseTier1).loseRanges (s'.flash.map.map fun p => (flashBase + p.1 * 65536) / 65536)
  let s' := s'.drawKeys
  let s' : State := { s' with tiles := (List.range 256).map fun t => (t, { spLost := some s'.ident.losses }) }
  let s' := s'.setFlag Reg.CG_STAT.PRESENT s.ident.guest
  if k == .warm then s' else s'.raise Reg.TC_STAT.BYPASS

/-- Fields with Reset MR take the record's values (R574, Table 20.1). -/
def loadFields (s : State) : State :=
  let c := s.start.calibration
  (List.range 16).foldl (fun (s : State) i =>
    (s.set (Reg.PW_RLEAK.LEAK i) (Config.recordField c (Reg.PW_RLEAK.LEAK i).off).toNat).set (Reg.PW_WGT.WEIGHT i)
      (Config.recordField c (Reg.PW_WGT.WEIGHT i).off).toNat) s

/-- A verified record is taken: slot 4, the identity, IDOK, the calibrated fields (Table 20.3; R548, R549). -/
def takeRecord (s : State) (r : List Byte) : State :=
  let s := s.extendSlot 4 r
  let vkey := fileBytes r 32 64
  let cert := (recordSection r 5).getD []
  let d := Config.identityKey (Config.identitySeed ((recordSection r 4).getD []))
  let s : State := { s with
    start := { s.start with record := r, calibration := (recordSection r 2).getD [] }
    tarle := { s.tarle with d := d, vkey := vkey, cert := cert } }
  (s.setFlag Reg.TRL_STAT.IDOK (Config.certSubjectKey cert == Config.sm2Public d && Config.certVerify vkey cert)).loadFields

/-- A verified bundle is loaded: slots 1 to 3 and 5, and its numbers (R546, R550). -/
def takeBundle (s : State) (b : List Byte) : State :=
  let s := [1, 2, 3].foldl (fun (s : State) ty => s.extendSlot ty (bundlePart b ty)) s
  let s := s.extendSlot 5 (fileBytes b 8 12)
  let s : State := { s with
    start := { s.start with bundle := b }
    tarle := { s.tarle with components := [1, 2, 3].map fun ty => (ty, bundlePart b ty) } }
  (((s.set Reg.TRL_BVER.VERSION (fileNat b 8 4)).set Reg.TRL_SVN.SVN (fileNat b 12 4)).set Reg.TRL_UCREV.UCREV
    (fileNat b 16 4)).raise Reg.TRL_STAT.BOOTED

/-- The start record (R584, Table 20.5). -/
def formRecord2 (s : State) (result : Nat) : State :=
  let st := s.start
  let r := st.report
  let b (x : Bool) (i : Nat) : Nat := if x then 2 ^ i else 0
  let flags := b st.unclean 0 + b (s.flag Reg.LR_STAT.NORECORD) 1 + b s.power.trip.isSome 2 + b st.supplyLoss 3 + b st.forced 4
    + b (s.flag Reg.TRL_STAT.TAMPER) 5
  let trip := s.power.trip.getD (0, [])
  let temp := ((trip.2.headD 0) % 256).toNat
  let bytes := leBytes 8 s.now ++ leBytes 4 st.gen ++ leBytes 1 st.kind ++ leBytes 1 result ++ leBytes 2 flags ++ leBytes 1 trip.1
    ++ leBytes 1 temp ++ leBytes 2 0 ++ ((List.range 8).map fun d => BitVec.ofNat 8 (r.usable.getD d 0)) ++ leBytes 1 r.cores
    ++ leBytes 1 r.links ++ leBytes 2 0 ++ leBytes 4 r.nret ++ leBytes 4 r.nreadmit ++ leBytes 4 r.nasm
    ++ leBytes 4 (r.entries.length - 56) ++ leBytes 16 0 ++ (r.entries.take 56).flatMap (leBytes 8)
  { s with
    start := { st with startRec := bytes ++ List.replicate (512 - bytes.length) 0, forced := false, supplyLoss := false }
    power := { s.power with trip := none } }

/-- A start fails with a result (R578, R579). -/
def startFail (s : State) (result : Nat) : State := (s.formRecord2 result).set Reg.ST_STAT.STATE 6

/-- The end of a start that succeeds: the record is written, UNCLEAN is set under R417, the harts are released (Table 20.3). -/
def startReady (s : State) : State :=
  let un := !s.flash.clean
  let s : State := { s with
    flash := { s.flash with clean := false }
    start := { s.start with unclean := un, parts := [], lengths := [] } }
  let s := (s.setFlag Reg.MO_STAT.UNCLEAN un).formRecord2 0
  let s : State := { s with harts := (List.range 32).map fun h => (h, { running := true }) }
  s.set Reg.ST_STAT.STATE 5

/-- A record or a bundle that is refused is discarded and counted; a record sets LOADERR, and so does a file that was fetched (R546, R574,
R575). -/
def discardRecord (s : State) : State :=
  (({ s with start := { s.start with record := [] } }).bump Reg.TRL_AUTHFAIL_CNT.COUNT).raise Reg.ST_STAT.LOADERR
def discardBundle (s : State) : State :=
  ({ s with start := { s.start with bundle := [] } }).bump Reg.TRL_AUTHFAIL_CNT.COUNT

/-- A module start: held copies are verified again and the slots extended from zero; after a full maintenance stop the device waits
for new files (R579, R582). -/
def moduleStart (s : State) (maintenance : Bool) : State :=
  let s := s.fullReset .module
  let s : State := { s with start := { s.start with
    kind := if maintenance then 4 else 2, gen := s.start.gen + 1
    record := if maintenance then [] else s.start.record, bundle := if maintenance then [] else s.start.bundle } }
  let s := s.extendSlot 0 Config.bootRom
  if maintenance then s.set Reg.ST_STAT.STATE 1
  else if recordOk s.ident.serial s.start.record then (s.takeRecord s.start.record).set Reg.ST_STAT.STATE 2
  else s.discardRecord.startFail 6

/-- A device-warm start: the bundle's components are compared when they are reloaded, after training (R579). -/
def warmStart (s : State) : State :=
  let s := s.fullReset .warm
  let s : State := { s with start := { s.start with kind := 3, gen := s.start.gen + 1 } }
  s.loadFields.set Reg.ST_STAT.STATE 2

/-- Reloaded components match slots 1 to 3 (R579, R551). -/
def componentsMatch (s : State) : Bool :=
  bundleOk s.start.bundle && [1, 2, 3].all fun ty =>
    s.slotOf ty == Config.sm3 (zeroSlot ++ Config.sm3 (bundlePart s.start.bundle ty))

/-- A power-on start begins (R577, Table 20.3): node time starts, Tarle's boot ROM extends slot 0, and the device waits for the
record. -/
def powerOnStart (s : State) : State :=
  let s := s.fullReset .powerOn
  let s : State := { s with start := { s.start with off := none, begun := true, kind := 1, gen := 1 } }
  let s := (s.extendSlot 0 Config.bootRom).set Reg.TC_STAT.ADDR (s.ident.slot.toNat + 1)
  s.set Reg.ST_STAT.STATE 1

/-- Every rail but VA goes off: every other unit loses its state (R509, R511). Tarle keeps the cause on VA. -/
def railsOff (s : State) (cause : OffCause) : State :=
  let keep := s
  let s := s.fullReset .powerOn
  let s : State := { s with
    time := keep.time
    start := { s.start with off := some cause, begun := false, supplyLoss := cause == .supply }
    tarle := { s.tarle with debugSeen := keep.tarle.debugSeen }
    letters := [] }
  -- the node-time block, TAMPER and GBL_SCRATCH stand on the VA rail
  let va := keep.flds.filter fun p => match fieldRow p.1 with
    | some (_, f) => f.cls == .t || f.cls == .z
    | none => false
  let s : State := { s with flds := va.foldr (fun (p : Nat × Nat) m => AMap.put m p.1 p.2) s.flds }
  let s := s.set Reg.ST_STAT.STATE 8
  -- Tarle runs on, and with it the tray chain (R540)
  if cause == .mate then s
  else
    { s with host := { s.host with forward := keep.host.forward, sendQ := keep.host.sendQ } }.set Reg.TC_STAT.BYPASS
      (keep.get Reg.TC_STAT.BYPASS)

/-! ## Resets and stops that software asks for -/

/-- A module reset asked for through the host port or ST_RESET (R525, R579, R580). -/
def moduleReset (s : State) : State := (s.abandonEntry).moduleStart false

/-- A device-warm reset (R579). -/
def warmReset (s : State) : State := (s.abandonEntry).warmStart

/-- A Tarle-only reset begins (R579, R555, R540, Table 20.6). -/
def tarleReset (s : State) : State :=
  let s := s.abandonEntry
  let s : State := { s with tarle := { s.tarle with resetting := true, spdm := [], ide := [] } }
  s.raise Reg.TC_STAT.BYPASS

/-- A stop begins (R582). -/
def beginStop (s : State) (kind limit : Nat) : State :=
  let s := s.abandonEntry
  let s : State := { s with
    sorter := { s.sorter with halted := true }
    start := { s.start with stop := some (kind, (s.get Reg.RND_NUM.NUM + limit) % 2 ^ 48) } }
  s.set Reg.ST_STAT.STATE 7

/-- A write of ST_RESET by a requester of context `c` (R579). -/
def stReset (s : State) (c v : Nat) : State :=
  let kind := v % 8
  let limit := v / 2 ^ 8 % 2 ^ 8
  let st := s.get Reg.ST_STAT.STATE
  if !(c == 2 || (c == 1 && kind == 2)) || !(st == 5 || st == 6) || kind = 0 || 5 < kind || (4 ≤ kind && limit == 0) then
    s.raise Reg.ST_STAT.CFGERR
  else
    match kind with
    | 1 => s.moduleReset
    | 2 => s.warmReset
    | 3 => s.tarleReset
    | _ => s.beginStop kind limit

/-- The last steps of a stop: the clean-stop mark, and the reset or the power-off (R582). -/
def endStop (s : State) (forced : Bool) : State :=
  match s.start.stop with
  | none => s
  | some (kind, _) =>
    let s : State := { s with
      flash := { s.flash with clean := true }
      start := { s.start with stop := none, forced := forced } }
    if kind = 4 then s.moduleStart true else s.railsOff .stop

/-- A write of ST_GO (R575). -/
def stGo (s : State) (v : Nat) : State :=
  let kind := v % 4
  let st := s.get Reg.ST_STAT.STATE
  if (kind == 1 && st == 1) || (kind == 2 && st == 3) then { s with start := { s.start with fetch := some kind } }
  else s.raise Reg.ST_STAT.CFGERR

/-- A file of KIND 1 has arrived whole (R574, R575). -/
def recordArrived (s : State) (r : List Byte) : State :=
  let s : State := { s with start := { s.start with fetch := none } }
  if recordOk s.ident.serial r then (s.takeRecord r).set Reg.ST_STAT.STATE 2
  else s.discardRecord

/-- A file of KIND 2 has arrived whole (R546, R575). -/
def bundleArrived (s : State) (b : List Byte) : State :=
  let s : State := { s with start := { s.start with fetch := none } }
  if bundleOk b then (s.takeBundle b).startReady
  else s.discardBundle.raise Reg.ST_STAT.LOADERR

/-- The file that ST_SRC and ST_LEN name, read from service-host memory; none while it cannot be read. -/
def fetchFile (s : State) : Option (List Byte) :=
  if s.hostUp then some (s.hostBytes (s.get Reg.ST_SRC.ADDR * 4096) (s.get Reg.ST_LEN.LEN)) else none

end State

end Sys2Proof.Machine
end

