-- ==== Sys2Proof/Machine/Faults.lean ====
section
/-! DEFINITION. The end of page faults: resume pages and the fault timeout (R392 to R394). -/

namespace Sys2Proof.Machine

namespace State

/-- A resume is ignored (R392). -/
def badResume (s : State) : State := (s.raise Reg.TR_STAT.BADRES).bump Reg.TR_BADRES_CNT.COUNT

/-- An access of the descriptor `(q, seq)` has an outstanding fault that first occurred `n` rounds ago or earlier (R394). -/
def faultAged (s : State) (q seq n : Nat) : Bool :=
  ((s.xlat.faults.flatMap (·.joined)) ++ s.xlat.beyond.map (·.by_)).any fun j =>
    j.queue == q && j.seq == seq && decide (n ≤ (s.round + 2 ^ 48 - j.first) % 2 ^ 48)

/-- The outstanding faults of a descriptor are withdrawn (R394); one that accesses of other descriptors have joined stays theirs. Accesses
beyond a limit are made again, since room is freed (R390). -/
def withdrawFaults (s : State) (q seq : Nat) : State :=
  let mine (j : Stalled) : Bool := j.queue == q && j.seq == seq
  retryOver { s with xlat := { s.xlat with
      resumed := s.xlat.resumed.filter fun r => !mine r.by_
      beyond := s.xlat.beyond.filter fun r => !mine r.by_
      faults := (s.xlat.faults.map fun f => { f with joined := f.joined.filter fun j => !mine j }).filter fun f =>
        !(f.joined.isEmpty && s.xlat.faults.any fun g => g.ring == f.ring && g.id == f.id && g.joined.any fun j => mine j) } }

/-- A parcel mover stops, and the destination bytes not yet written are lost (R394, R590). -/
def stopMover (s : State) (m : Nat) : State :=
  match AMap.get? s.movers m with
  | some x =>
    let s := s.addLoss x.queue x.seq { dropped := moveBytes x.desc - x.pos }
    { s with movers := AMap.put s.movers m { x with done := true, want := [], buf := [], out := [] } }
  | none => s

/-- The abort of R394 for a consumed descriptor. -/
def faultAbort (s : State) (f : Flight) : State :=
  let s := (s.abortFlight f.queue f.seq 0x20).withdrawFaults f.queue f.seq
  let s := (f.parts.filter fun p => p.st == .running).foldl (fun s p => s.tileReset p.tile) s
  let s := (s.movers.filter fun m => m.2.queue == f.queue && m.2.seq == f.seq).foldl (fun s m => s.stopMover m.1) s
  match classOf (opOf f.desc) with
  | some .tile | some .parcel | some .copy | some .fill => s
  | some .sorting =>
    let s := s.addLoss f.queue f.seq { dropped := sortBytes f.desc }
    if s.sorter.sorting.head? = some (f.queue, f.seq) then s.sortFinished else s
  | _ => s.endFlight f.queue f.seq

/-- FAULT_TIMEOUT's work: on a descriptor in flight, or on a head whose blocks hub microcode is still reading. -/
def faultTimeout (s : State) (q seq : Nat) : State :=
  match s.flight? q seq with
  | some f =>
    if f.abort == 0 && s.faultAged q seq f.snap.ftimeout then (s.faultAbort f).bump Reg.TR_TIMEOUT_CNT.COUNT else s
  | none =>
    let p := s.pigeon q
    if p.fetching && p.nextSeq == seq && s.faultAged q seq (s.ctxOf p.ctx).ftimeout then
      let s := s.withdrawFaults q seq
      let (d, s) := s.fetchHead q
      ((s.consume q).refuse q d 0x20).bump Reg.TR_TIMEOUT_CNT.COUNT
    else s

/-- The timeouts of R394 that a tick has brought for the descriptors of these accesses: the tick acts before a resume of its cycle. -/
def ticksFirst (s : State) (js : List Stalled) : State :=
  js.foldl (fun (s : State) j => s.faultTimeout j.queue j.seq) s

/-- A 64-bit write to resume page `f` (R392): every joined access is to be made again, through a walk from ROOT, or is to fail, and those
beyond a limit are made again too (R390). -/
def resumeWrite (s : State) (f : Nat) (v : W64) : State :=
  let id := v.toNat % 2 ^ 16
  let action := v.toNat / 2 ^ 16
  if action ≠ 1 ∧ action ≠ 2 then s.badResume
  else
    let fault (s : State) := s.xlat.faults.find? fun x => x.ring == f && x.id == id
    let s := match fault s with
      | some x => s.ticksFirst x.joined
      | none => s
    match fault s with
    | none => s.badResume
    | some x =>
      let page := x.va / 4096
      let s : State := { s with xlat := { s.xlat with
        faults := s.xlat.faults.filter fun y => !(y.ring == f && y.id == id)
        resumed := s.xlat.resumed ++ x.joined.map fun j => { by_ := j, page := page, fail := action == 2 } } }
      s.retryOver.dropTlb (fun e => e.ctx == x.ctx && decide (e.page ≤ page) && decide (page < e.page + e.pages))
        (fun e => e.ctx == x.ctx && e.tag == x.va / 2 ^ (21 + 9 * e.level))

end State

/-- FAULT_RESUME_REPLAY (R392, R393). -/
def execFaultResumeReplay (by_ : Requester) (f : Fin 64) (v : W64) (s : State) : Host.Outcome State Fault Refusal :=
  .next (s.writeAs by_ (0x300000 + 4096 * f) fun s => s.resumeWrite f v)

/-- FAULT_RESUME_FAIL (R392). -/
def execFaultResumeFail (by_ : Requester) (f : Fin 64) (v : W64) (s : State) : Host.Outcome State Fault Refusal :=
  .next (s.writeAs by_ (0x300000 + 4096 * f) fun s => s.resumeWrite f v)

/-- FAULT_TIMEOUT (R394). -/
def execFaultTimeout (q : Fin 16384) (seq : W32) (s : State) : Host.Outcome State Fault Refusal :=
  .next ((s.faultTimeout q seq.toNat).settle s)

end Sys2Proof.Machine
end

