-- ==== Sys2Proof/Machine/RegisterAccess.lean ====
section
/-! DEFINITION. Register reads and writes: what each register shows, which writes it takes, the shadows of 32-bit reads, and device
space (R598 to R609, and the conditions of the chapters' field maps). -/

namespace Sys2Proof.Machine

/-- Field `f` of register `i` of a row. The hub's RSIZE and each rail's LIMIT have reset values of their own (Tables 11.12, 17.1). -/
def RegRow.fld (r : RegRow) (i : Nat) (f : FieldRow) : Fld :=
  ⟨r.off + i * r.stride, f.lo, f.len,
    if r.reg == .PW_RLIM && f.lo == 0 then railLimit i else if r.reg == .COH_HCFG && i == 4 then 0 else f.reset⟩

/-- Bits `lo` up of `v`, under a mask of written bits: the field's new value over its old one. -/
def overlay (f : Fld) (old mask v : Nat) : Nat :=
  let m := mask / 2 ^ f.lo % 2 ^ f.len
  let x := v / 2 ^ f.lo % 2 ^ f.len
  (old &&& (2 ^ f.len - 1 - m)) ||| (x &&& m)

/-- 64-bit word `w` of a list of bytes. -/
def wordOf (bs : List Byte) (w : Nat) : Nat := leNat ((bs.drop (8 * w)).take 8)

/-- Word `w` of a byte map. -/
def wordOfMap (m : AMap Byte) (w : Nat) : Nat := leNat ((List.range 8).map fun i => AMap.getD m (8 * w + i) 0)

/-- Set bits `n` of `l` with 64·w ≤ n < 64·w + 64. -/
def bitWord (l : List Nat) (w : Nat) : Nat :=
  (List.range 64).foldl (fun acc i => if l.contains (64 * w + i) then acc + 2 ^ i else acc) 0

def boolBit (b : Bool) (i : Nat) : Nat := if b then 2 ^ i else 0

/-- Key of a requester's shadow; control cores and threads have none (R601). -/
def shadowKey : Requester → Option Nat
  | .tarle => some 0
  | .hart h => some (1 + h)
  | .host => some 33
  | .core _ => none

/-- A register, or a window's words, that R601 reads in two halves. -/
def shadowed (r : RegRow) : Bool :=
  r.bytes == 8 || r.reg == .SORT_QCTX || r.reg == .SORT_CRCTX || r.reg == .SORT_TSET || r.reg == .TR_FRCTX

namespace State

/-! ## Views -/

/-- A register formed of its fields. -/
def fieldsWord (s : State) (r : RegRow) (i : Nat) : Nat :=
  r.fields.foldl (fun acc f => if f.acc == .wo then acc else acc + s.get (r.fld i f) * 2 ^ f.lo) 0

/-- Word `w` of a pigeonhole (Table 3.1). -/
def qctxWord (s : State) (q w : Nat) : Nat :=
  let p := s.pigeon q
  match w with
  | 0 => p.rbase / 4096 * 4096 + p.k * 8 + boolBit p.loc 2
  | 1 => p.pasid * 2 ^ 44 + p.cring * 2 ^ 32 + p.ctx * 2 ^ 16 + p.prio * 2 ^ 13
  | 2 => p.head * 2 ^ 32 + p.tail
  | 3 => p.inflight % 2 ^ 16 * 2 ^ 32 + p.nextSeq
  | 4 => p.lastStat * 2 ^ 8 + boolBit p.slotWait 6 + boolBit (s.crWait q) 5 + boolBit p.syncWait 4 + boolBit p.defer 3
          + boolBit (s.qDetached q) 2 + boolBit p.error 1 + boolBit p.en 0
  | 5 => p.defRnd
  | 6 => p.readyTime
  | _ => 0

/-- Word `w` of a completion-ring context (Table 3.8). -/
def crctxWord (s : State) (r w : Nat) : Nat :=
  let x := s.ring r
  match w with
  | 0 => x.base / 4096 * 4096 + x.j * 8 + boolBit x.loc 2
  | 1 => x.headAddr / 4 * 4
  | 2 => x.pasid * 2 ^ 44 + x.evsrc * 2 ^ 32 + x.ctx * 2 ^ 16 + boolBit x.en 0
  | 3 => x.tail
  | _ => 0

/-- Word `w` of a fault-ring context (Table 12.9). -/
def frctxWord (s : State) (f w : Nat) : Nat :=
  let x := s.fring f
  match w with
  | 0 => x.base / 4096 * 4096 + x.j * 8 + boolBit x.loc 2
  | 1 => x.headAddr / 4 * 4
  | 2 => x.pasid * 2 ^ 44 + x.evsrc * 2 ^ 32 + x.ctx * 2 ^ 16 + boolBit x.en 0
  | 3 => x.tail
  | _ => 0

/-- Word `w` of a SORT_TSET entry (Table 3.14). -/
def tsetWord (s : State) (n w : Nat) : Nat :=
  let x := s.tset n
  if w < 4 then x.mask.toNat / 2 ^ (64 * w) % 2 ^ 64
  else if w = 4 then boolBit x.shared 17 + boolBit x.en 16 + x.owner
  else 0

/-- The attach record (Table 18.4). -/
def attachRecord (s : State) : List Byte :=
  leBytes 8 s.host.detachPm ++ leBytes 4 s.host.gen ++ leBytes 1 s.host.cause ++ leBytes 3 0 ++ leBytes 2 s.host.held.length
    ++ leBytes 2 0 ++ leBytes 4 s.host.heldDrop ++ leBytes 6 (s.get Reg.HP_DATADROP_CNT.COUNT - s.host.dataAt)
    ++ leBytes 2 s.host.qdet ++ leBytes 2 s.host.rdet ++ leBytes 30 0

/-- LR_FMAP_TILE of physical tile `p`, compute die × 36 + number (Table 15.8). -/
def fmapTile (s : State) (p : Nat) : Nat :=
  match (List.range 256).find? fun t => (s.tile t).mode != .absent && s.physTile t == p with
  | some t => 2 ^ 7 + t % 32
  | none =>
    if s.repair.retired.contains p then 2 ^ 6 + boolBit (!s.repair.assembly.contains p) 5 else 0

/-- LR_FMAP_CORE of physical core `p`. -/
def fmapCore (s : State) (p : Nat) : Nat :=
  if s.repair.retiredCores.contains p then 2 ^ 6 + boolBit (!s.repair.assemblyCores.contains p) 5
  else
    match (List.range 32).find? fun h => AMap.getD s.repair.cores h h == p with
    | some h => 2 ^ 7 + h
    | none => 0

/-- TG_RESIDENT of tile `t` (Table 9.7). -/
def residentWord (s : State) (t : Nat) : Nat :=
  match (s.tile t).kernel with
  | some k => k.groups.length * 2 ^ 7 + k.blocks.length * 2 ^ 2 + boolBit (k.groups.any fun g => g.halted) 1 + 1
  | none => 0

/-- EC_SRC of source `n` (Table 16.4). -/
def srcWord (s : State) (n : Nat) : Nat :=
  let x := s.source n
  boolBit x.pend 15 + boolBit x.active 14 + boolBit x.masked 13 + x.target

/-- EC_TSTAT of target `t`. -/
def tstatWord (s : State) (t : Nat) : Nat :=
  (match s.activeAt t with
    | some n => 2 ^ 31 + n * 2 ^ 16
    | none => 0) + (s.best t).getD 0

/-- 64-bit word `w` of register `i` of a row, as a requester of context `c` reads it. -/
def regWord (s : State) (c : Nat) (r : RegRow) (i w : Nat) : Nat :=
  match r.reg with
  | .GBL_ID => 0x4F54 * 2 ^ 48 + 0x7200 * 2 ^ 32 + boolBit s.ident.g 28 + 1 * 2 ^ 24 + 2 * 2 ^ 16 + boolBit s.ident.guest 8
  | .GBL_SERIAL0 => s.ident.serial.toNat % 2 ^ 64
  | .GBL_SERIAL1 => s.ident.serial.toNat / 2 ^ 64
  | .GBL_CAP =>
    32 * 2 ^ 56 + (if s.ident.g then 16 else 0) * 2 ^ 48 + 8 * 2 ^ 40 + 32 * 2 ^ 32 + 256 * 2 ^ 16 + 14 * 2 ^ 11 + 12 * 2 ^ 7
      + 10 * 2 ^ 3
  | .TG_RESIDENT => s.residentWord i
  | .MEM_T1SIZE => s.nch
  | .COH_DIR_OCC => s.dirOcc i
  | .FL_MAPPED => s.flash.map.length
  | .LR_FMAP_TILE => if c == 0 || c == 2 then s.fmapTile i else 0
  | .LR_FMAP_CORE => if c == 0 || c == 2 then s.fmapCore i else 0
  | .HP_ATREC => wordOf s.attachRecord w
  | .ST_REC => if c == 0 || c == 2 then wordOf s.start.startRec w else 0
  | .TRL_SLOT => wordOf (s.slotOf (i / 4)) (i % 4)
  | .TRL_MB1_REQ => if c == 1 then wordOfMap (s.tarle.mailboxes.getD 0 {}).req w else 0
  | .TRL_MB1_RSP => if c == 1 then wordOfMap (s.tarle.mailboxes.getD 0 {}).rsp w else 0
  | .TRL_MB2_REQ => if c == 2 then wordOfMap (s.tarle.mailboxes.getD 1 {}).req w else 0
  | .TRL_MB2_RSP => if c == 2 then wordOfMap (s.tarle.mailboxes.getD 1 {}).rsp w else 0
  | .MSIX_TABLE => s.msixWord (2 * w) + s.msixWord (2 * w + 1) * 2 ^ 32
  | .MSIX_PBA => bitWord s.ec.pba w
  | .DL_ENTRY => match AMap.get? s.letters i with
    | some e => wordOf e.toBytes w
    | none => 0
  | .TR_CTXNUM => s.xlat.ctxs.length + 1
  | .TR_FRCTX => s.frctxWord i w
  | .EC_SRC => s.srcWord i
  | .EC_PEND_SET => s.windowRead .pendSet i
  | .EC_PEND_CLR => s.windowRead .pendClr i
  | .EC_MASK_SET => s.windowRead .maskSet i
  | .EC_MASK_CLR => s.windowRead .maskClr i
  | .EC_TSTAT => s.tstatWord i
  | .SORT_QCTX => s.qctxWord i w
  | .SORT_CRCTX => s.crctxWord i w
  | .SORT_TSET => s.tsetWord i w
  | .SORT_LEDGER => boolBit (s.tset i).en 16 + ((s.tset i).balance % 65536).toNat
  | _ => s.fieldsWord r i

/-! ## Reads -/

/-- The 4 bytes at BAR0 offset `a`, a multiple of 4; a claim has its effect (R479, R599, R600, R605). -/
def read4 (s : State) (c a : Nat) : Nat × State :=
  if !s.answers a then (0, s)
  else
    match findReg a with
    | some (r, i, b) =>
      if r.reg == .EC_CLAIM then s.claim i
      else if r.bytes = 1 then
        (leNat ((List.range 4).map fun k => match findReg (a + k) with
          | some (r, i, _) => if r.bytes = 1 then BitVec.ofNat 8 (s.regWord c r i 0) else 0
          | none => 0), s)
      else (s.regWord c r i (b / 8) / 2 ^ (8 * (b % 8)) % 2 ^ 32, s)
    | none =>
      (leNat ((List.range 4).map fun k => match findReg (a + k) with
        | some (r, i, _) => if r.bytes = 1 then BitVec.ofNat 8 (s.regWord c r i 0) else 0
        | none => 0), s)

/-- A 32-bit read with the requester's shadow (R601). -/
def read32 (s : State) (by_ : Requester) (c a : Nat) : Nat × State :=
  let (v, s) := s.read4 c a
  match findReg a, shadowKey by_ with
  | some (r, _, b), some k =>
    if !shadowed r || !s.answers a then (v, s)
    else if b % 8 = 0 then
      let (h, s) := s.read4 c (a + 4)
      (v, { s with shadows := AMap.put s.shadows k (a, h) })
    else
      match AMap.get? s.shadows k with
      | some (reg, h) => if reg = a - 4 then (h, { s with shadows := AMap.erase s.shadows k }) else (v, s)
      | none => (v, s)
  | _, _ => (v, s)

/-- The identity registers, which a foreign context may read (R603). -/
def identity (s : State) (a : Nat) : Bool := decide (a < 0x20) && s.flag Reg.GBL_CTL.IDPUB

/-- A read by a requester of `n` bytes at BAR0 offset `a` (R600, R601, R603): the bytes, or none where the access is no register
access: a precise access fault for a core, Unsupported Request for the host port. -/
def regRead (s : State) (by_ : Requester) (a n : Nat) : Option Nat × State :=
  let s := s.awake by_
  if !s.present by_ then (some 0, s)
  else if !(n == 4 || n == 8) || a % n != 0 then
    (none, if by_ = .host then s.bump Reg.HP_UR_CNT.COUNT else s)
  else if 2 < s.reqCtx by_ && !s.identity a then (some 0, s.foreign)
  else if n = 4 then
    let (v, s) := s.read32 by_ (s.reqCtx by_) a
    (some v, s)
  else
    let (lo, s) := s.read4 (s.reqCtx by_) a
    let (hi, s) := s.read4 (s.reqCtx by_) (a + 4)
    (some (lo + hi * 2 ^ 32), s)

/-- A register read that answers its sender (Log 13). -/
def regReadBy (s : State) (by_ : Requester) (a n : Nat) : State :=
  match s.regRead by_ a n with
  | (some v, s) => { s with answer := leBytes n v }
  | (none, s) =>
    let s : State := { s with answer := [] }
    match by_ with
    | .hart h => s.hartFault h
    | .core t => s.fatalTrap t
    | _ => s

/-! ## Windows of the sorter and of the fault rings (R114, R529) -/

/-- The exception of R529 for a queue or ring with LOC 1. -/
def detachedWrite (s : State) (c : Nat) (loc : Bool) : Bool :=
  c == 2 && loc && s.flag Reg.HP_STAT.DETACHED && s.flag Reg.HP_STAT.SESSION

/-- A write of word `w` of SORT_QCTX (R68, R114, R529). -/
def qctxWrite (s : State) (c q w v : Nat) : State :=
  let p := s.pigeon q
  let free := !s.flag Reg.SORT_CTL.EN
  let exc := s.detachedWrite c p.loc && (w == 0 || w == 1 || w == 3)
  if !free && !exc then s.raise Reg.SORT_STAT.CFGERR
  else
    match w with
    | 0 =>
      if !baseAligned (v / 4096 * 4096) 64 (v / 8 % 32) then s.raise Reg.SORT_STAT.CFGERR
      else s.onPigeon q fun p => { p with rbase := v / 4096 * 4096, k := v / 8 % 32, loc := v.testBit 2 }
    | 1 => s.onPigeon q fun p => { p with
        pasid := v / 2 ^ 44, cring := v / 2 ^ 32 % 2 ^ 12, ctx := v / 2 ^ 16 % 2 ^ 16, prio := v / 2 ^ 13 % 8 }
    | 3 => s.onPigeon q fun p => { p with nextSeq := v % 2 ^ 32 }
    | 4 => s.onPigeon q fun p => { p with en := v.testBit 0 }
    | _ => s

/-- A write of word `w` of SORT_CRCTX (R104, R114, R529). -/
def crctxWrite (s : State) (c r w v : Nat) : State :=
  if s.flag Reg.SORT_CTL.EN && !(s.detachedWrite c (s.ring r).loc && decide (w < 3)) then s.raise Reg.SORT_STAT.CFGERR
  else
    match w with
    | 0 =>
      if !baseAligned (v / 4096 * 4096) 32 (v / 8 % 32) then s.raise Reg.SORT_STAT.CFGERR
      else (s.onRing r fun x => { x with base := v / 4096 * 4096, j := v / 8 % 32, loc := v.testBit 2 }).ringFull r
    | 1 => s.onRing r fun x => { x with headAddr := v / 4 * 4 }
    | 2 => s.onRing r fun x => { x with
        pasid := v / 2 ^ 44, evsrc := v / 2 ^ 32 % 2 ^ 9, ctx := v / 2 ^ 16 % 2 ^ 16, en := v.testBit 0
        h := if v.testBit 0 && !x.en then 0 else x.h }
    | _ => s

/-- A write of word `w` of TR_FRCTX, which is read-only but for R529. -/
def frctxWrite (s : State) (c f w v : Nat) : State :=
  if !s.detachedWrite c (s.fring f).loc then s
  else
    match w with
    | 0 => s.onFRing f fun x => { x with base := v / 4096 * 4096, j := v / 8 % 32, loc := v.testBit 2 }
    | 1 => s.onFRing f fun x => { x with headAddr := v / 4 * 4 }
    | 2 => s.onFRing f fun x => { x with
        pasid := v / 2 ^ 44, evsrc := v / 2 ^ 32 % 2 ^ 10, ctx := v / 2 ^ 16 % 2 ^ 16, en := v.testBit 0 }
    | _ => s

/-- A write of word `w` of SORT_TSET (R83, R114): it reaches the tiles at the next tick. -/
def tsetWrite (s : State) (n w v : Nat) : State :=
  let x := s.tset n
  let y : TSet :=
    if w < 4 then
      { x with mask := BitVec.ofNat 256 (x.mask.toNat - x.mask.toNat / 2 ^ (64 * w) % 2 ^ 64 * 2 ^ (64 * w) + v * 2 ^ (64 * w)) }
    else if w = 4 then { x with shared := v.testBit 17, en := v.testBit 16, owner := v % 2 ^ 16, live := x.live && v.testBit 16 }
    else x
  if s.flag Reg.SORT_CTL.EN || (y.en && s.sorter.tsets.any fun p => p.1 != n && p.2.en && p.2.mask &&& y.mask != 0) then
    s.raise Reg.SORT_STAT.CFGERR
  else
    let s := s.onTset n fun _ => y
    if s.sorter.written.contains n then s else { s with sorter := { s.sorter with written := s.sorter.written ++ [n] } }

/-! ## Values that a rule refuses -/

/-- The enabled stack-local window `i` keeps R324 and overlaps no other enabled one. -/
def locwinOk (s : State) (i : Nat) : Bool :=
  let b := s.get (Reg.MEM_LOCWIN.BASE i)
  let e := b + s.get (Reg.MEM_LOCWIN.SIZEM1 i) + 1
  !s.flag (Reg.MEM_LOCWIN.EN i) ||
    (decide (e ≤ 64) && (List.range 8).all fun j =>
      j == i || !s.flag (Reg.MEM_LOCWIN.EN j) || decide (e ≤ s.get (Reg.MEM_LOCWIN.BASE j))
        || decide (s.get (Reg.MEM_LOCWIN.BASE j) + s.get (Reg.MEM_LOCWIN.SIZEM1 j) + 1 ≤ b))

/-- A 256 MiB window at 1 MiB unit `b` lies wholly in the mapped range of Tier 0 or of Tier 1 (R521). -/
def w4baseOk (s : State) (b : Nat) : Bool :=
  let a := b * 2 ^ 20
  decide (a + 2 ^ 28 ≤ tier0End) || (decide (tier1Base ≤ a) && decide (a + 2 ^ 28 ≤ tier1Base + s.nch * 2 ^ 32))

def within (v lo hi : Nat) : Bool := decide (lo ≤ v) && decide (v ≤ hi)

/-- The fields of register `i` of a row, as a write with `mask` leaves them, are values that its chapter accepts. -/
def valuesOk (s : State) (r : RegRow) (i mask : Nat) : Bool :=
  match r.reg with
  | .MEM_LOCWIN => s.locwinOk i
  | .MEM_RETIRE => mask / 2 % 4 == 0 || s.get (Reg.MEM_RETIRE.STATE i) == 0 || s.get (Reg.MEM_RETIRE.STATE i) == 2
  | .COH_HCFG => i != 4 && within (s.get (Reg.COH_HCFG.RSIZE i)) 1 4
  | .MO_CTL => within (s.get Reg.MO_CTL.DRAINTO) 1 1000 && within (s.get Reg.MO_CTL.DEFTO) 10 1000000
  | .MO_RGN_CTL =>
    let t := s.get (Reg.MO_RGN_CTL.TOUT i)
    s.get (Reg.MO_RGN_CTL.TYPE i) != 3 && (t == 0 || within t 10 1000000)
      && (!s.flag (Reg.MO_RGN_CTL.EN i) || decide (s.get (Reg.MO_RGN_BASE.BASE i) ≤ s.get (Reg.MO_RGN_LAST.LAST i)))
  | .FL_CTL => within (s.get Reg.FL_CTL.RECLAIM) 2 64 && within (s.get Reg.FL_CTL.RDTHR) 10 1000
  | .CG_WCTL => !s.flag (Reg.CG_WCTL.EN i) || decide (s.get (Reg.CG_WBASE.BASE i) ≤ s.get (Reg.CG_WLAST.LAST i))
  | .OB_WCTL => !s.flag (Reg.OB_WCTL.EN i) || decide (s.get (Reg.OB_WBASE.PAGE i) ≤ s.get (Reg.OB_WLAST.PAGE i))
  | .OB_XLAT => s.get (Reg.OB_XLAT.BUS i) % 4096 == 0
  | .PW_CTL => within (s.get Reg.PW_CTL.DOZEIDLE) 16 65535
  | .PW_SUP => within (s.get Reg.PW_SUP.HYST) 2 20 && within (s.get Reg.PW_SUP.WARN) 0 30
  | .PW_CAP => within (s.get Reg.PW_CAP.WIN) 1 250 && within (s.get Reg.PW_CAP.WATTS) 1000 4800
  | .PW_THERM => within (s.get Reg.PW_THERM.THROT) 80 110 && within (s.get Reg.PW_THERM.WARN) 70 110
  | .PW_DROOP => within (s.get Reg.PW_DROOP.THR) 20 60
  | .PW_RLIM => within (s.get (Reg.PW_RLIM.WIN i)) 1 50 && decide (s.get (Reg.PW_RLIM.LIMIT i) ≤ railLimit i)
  | .TR_CTL => within (s.get Reg.TR_CTL.INITOWN) 1 2
  | .HP_W4BASE => s.w4baseOk (s.get Reg.HP_W4BASE.BASE)
  | _ => true

/-! ## Effects of accepted writes -/

/-- Every register field that accepts writes only while LOCK is 0, in ascending BAR0 offset (Table 19.2, slot 6; Log 30). -/
def lockedFields (s : State) : List Byte :=
  regRows.flatMap fun r =>
    let fs := r.fields.filter fun f => f.locked
    if fs.isEmpty then []
    else (List.range r.count).flatMap fun i => leBytes r.bytes (s.fieldsWord { r with fields := fs } i)

/-- LOCK becomes 1 (R377, R550). -/
def lockSet (s : State) : State :=
  let o := s.get Reg.TR_CTL.INITOWN
  -- an entry that is still MODE 0 of mapped memory outside the device-reserved region is INITOWN's
  let free (g : Nat) : Bool := s.coherent (g * 2 ^ 21) && !(decide (reservedBase ≤ g * 2 ^ 21) && decide (g * 2 ^ 21 < tier0End))
  let s : State := { s with xlat := { s.xlat with
      initOwn := some o
      own := s.xlat.own.map fun p => if p.2.mode = 0 && free p.1 then (p.1, { p.2 with mode := 1, owner := o }) else p } }
  s.extendSlot 6 s.lockedFields

/-- The Tier 0 address at an offset of a stack (R322, R324). -/
def unplace (s : State) (st o : Nat) : Nat :=
  let w := (List.range 8).find? fun w =>
    s.flag (Reg.MEM_LOCWIN.EN w) &&
      (let b := s.get (Reg.MEM_LOCWIN.BASE w) * 2 ^ 33
       let n := (s.get (Reg.MEM_LOCWIN.SIZEM1 w) + 1) * 2 ^ 33
       decide (b ≤ 8 * o) && decide (8 * o < b + n))
  match w with
  | some w =>
    let b := s.get (Reg.MEM_LOCWIN.BASE w) * 2 ^ 33
    let n := (s.get (Reg.MEM_LOCWIN.SIZEM1 w) + 1) * 2 ^ 33
    b + st * (n / 8) + (o - b / 8)
  | none =>
    let u := o / 2 ^ 12
    u * 2 ^ 15 + (st.xor (u / 32 % 8)) * 2 ^ 12 + o % 2 ^ 12

/-- Tier 0's stored bytes stay on their stacks as the stack-local windows change, and are found at new addresses (Log 31). -/
def replaceStacks (s old : State) : State :=
  let move (a : Nat) : Nat := if a < tier0End then let p := old.place a; s.unplace p.1 p.2 else a
  let line (l : Nat) : Nat := move (l * 128) / 128
  { s with
    mem := s.mem.foldl (fun m (c : Host.Cell) => cellPut s.dflt m (move c.1) c.2) []
    devs := s.devs.map fun p => (p.1, { p.2 with
      errors := p.2.errors.map (fun e => (line e.1, e.2)), corrected := p.2.corrected.map line, scrub := p.2.scrub.map line }) }

/-- The devices of channels that are no longer enabled are absent: not trained, refreshed or scrubbed (R321, Table 10.7). -/
def channelsOff (s : State) : State :=
  (List.range 16).foldl (fun (s : State) j =>
    if s.t1Channels.contains j then s
    else ((s.setFlag (Reg.MEM_DSTAT.PRESENT (8 + j)) false).setFlag (Reg.MEM_DSTAT.THROT (8 + j)) false).onDev (8 + j) fun _ => {}) s

/-- What follows an accepted write of register `i` of a row from state `old`. -/
def afterWrite (s old : State) (r : RegRow) (i mask : Nat) : State :=
  match r.reg with
  | .MEM_CTL =>
    let s := if s.get Reg.MEM_CTL.T1EN != old.get Reg.MEM_CTL.T1EN && s.ident.g then s.channelsOff.loseTier1 else s
    if s.locked && !old.locked then s.lockSet else s
  | .MEM_LOCWIN => s.replaceStacks old
  | .MEM_RETIRE => if mask / 2 % 4 == 0 then s else s.set (Reg.MEM_RETIRE.CAUSE i) 0
  | _ => s

/-- A write under `mask` to a register that its fields alone describe (R325, R604). -/
def fieldsWrite (s : State) (r : RegRow) (i mask v : Nat) : State :=
  let put (s : State) (f : FieldRow) : State :=
    let x := r.fld i f
    let old := s.get x
    match f.acc with
    | .rw => s.set x (overlay x old mask v)
    | .w1c => s.set x (old &&& (2 ^ x.len - 1 - (v &&& mask) / 2 ^ x.lo % 2 ^ x.len))
    | .w1s => s.set x (old ||| ((v &&& mask) / 2 ^ x.lo % 2 ^ x.len))
    | .ro | .wo => s
  let writable := r.fields.filter fun f => f.acc != .ro && f.acc != .wo
  let shut := writable.filter fun f => f.locked
  if s.locked && !shut.isEmpty then
    if shut.length = writable.length then s.cfgErr r.reg
    else
      let s' := (writable.filter fun f => !f.locked).foldl put s
      if shut.any fun f => overlay (r.fld i f) (s.get (r.fld i f)) mask v != s.get (r.fld i f) then s'.cfgErr r.reg else s'
  else
    let s' := writable.foldl put s
    if s'.valuesOk r i mask then s'.afterWrite s r i mask else s.cfgErr r.reg

/-- A write of TRL_MBn_DOOR (R567): the request starts; one with an OPC that Table 19.8 has not is answered as malformed. -/
def doorWrite (s : State) (c n v : Nat) : State :=
  let busy := if n = 1 then Reg.TRL_STAT.MB1BUSY else Reg.TRL_STAT.MB2BUSY
  let opc := (AMap.getD (s.tarle.mailboxes.getD (n - 1) {}).req 0 0).toNat
  if c ≠ n then s
  else if v % 2 = 1 && !s.flag busy then
    let s := s.set busy 1
    if s.tarleRuns && (opc == 0 || 13 < opc) then s.mailAnswer n 2 [] else s
  else s.raise Reg.TRL_STAT.CFGERR

/-- Bytes written under `mask` into word `w` of a request page. -/
def pageWrite (s : State) (n w mask v : Nat) : State :=
  let put (b : Mailbox) : Mailbox :=
    { b with req := (List.range 8).foldl (fun m i =>
        if mask / 2 ^ (8 * i) % 256 = 0 then m else AMap.put m (8 * w + i) (BitVec.ofNat 8 (v / 2 ^ (8 * i)))) b.req }
  { s with tarle := { s.tarle with mailboxes := s.tarle.mailboxes.mapIdx fun i b => if i + 1 = n then put b else b } }

/-- A write of one doubleword of the MSI-X table, with the read-only bits of the PCIe standard (Log 20). -/
def msixWrite (s : State) (i v : Nat) : State :=
  let v := if i % 4 = 0 then v / 4 * 4 else if i % 4 = 3 then v % 2 else v
  { s with ec := { s.ec with msix := AMap.put s.ec.msix i v } }

/-- A write under `mask` of 64-bit word `w` of register `i` of a row by a requester of context `c`; `wide` says that a 64-bit
access made it. -/
def wordWrite (s : State) (c : Nat) (r : RegRow) (i w mask v : Nat) (wide : Bool) : State :=
  let merged (old : Nat) : Nat := (old &&& (2 ^ 64 - 1 - mask)) ||| (v &&& mask)
  let lo := v % 2 ^ 32
  match r.reg with
  | .NT_STEP => if wide then s.ntStep (BitVec.ofNat 64 v) else s.raise Reg.GBL_STAT.WIDTHERR
  | .TR_RESUME => if wide then s.resumeWrite i (BitVec.ofNat 64 v) else s.raise Reg.GBL_STAT.WIDTHERR
  | .NT_ALARM => s.ntAlarm (merged (s.get Reg.NT_ALARM.ALARM))
  | .RND_CTL => s.rndCtl lo
  | .RND_PERIOD => s.rndPeriod lo
  | .HP_ATTACH => s.attach lo
  | .ST_RESET => s.stReset c lo
  | .ST_GO => s.stGo lo
  | .TRL_MB1_DOOR => s.doorWrite c 1 lo
  | .TRL_MB2_DOOR => s.doorWrite c 2 lo
  | .TRL_MB1_REQ => if c = 1 then s.pageWrite 1 w mask v else s
  | .TRL_MB2_REQ => if c = 2 then s.pageWrite 2 w mask v else s
  | .MSIX_TABLE =>
    let s := if mask % 2 ^ 32 = 0 then s else s.msixWrite (2 * w) lo
    if mask / 2 ^ 32 = 0 then s else s.msixWrite (2 * w + 1) (v / 2 ^ 32)
  | .EC_PEND => s.pendWrite (lo % 2 ^ 10)
  | .EC_MASK => s.maskWrite (lo % 2 ^ 10) true
  | .EC_UNMASK => s.maskWrite (lo % 2 ^ 10) false
  | .EC_SRC => s.routeWrite i (lo % 2 ^ 9)
  | .EC_NMUW => if s.flag Reg.EC_CTL.MAINT then s.fieldsWrite r i mask v else s.raise Reg.EC_STAT.CFGERR
  | .EC_PEND_SET => s.windowWrite .pendSet i lo
  | .EC_PEND_CLR => s.windowWrite .pendClr i lo
  | .EC_MASK_SET => s.windowWrite .maskSet i lo
  | .EC_MASK_CLR => s.windowWrite .maskClr i lo
  | .EC_COMPLETE => s.complete i lo
  | .SORT_QCTX => s.qctxWrite c i w (merged (s.qctxWord i w))
  | .SORT_CRCTX => s.crctxWrite c i w (merged (s.crctxWord i w))
  | .SORT_TSET => s.tsetWrite i w (merged (s.tsetWord i w))
  | .TR_FRCTX => s.frctxWrite c i w (merged (s.frctxWord i w))
  | _ => s.fieldsWrite r i mask v

/-- A write of 4 bytes `v` at BAR0 offset `a`, a multiple of 4. -/
def write4 (s : State) (c a v : Nat) : State :=
  if !s.answers a then s
  else
    match findReg a with
    | some (r, i, b) =>
      if r.bytes = 1 then s
      else if b % 8 = 0 then s.wordWrite c r i (b / 8) (2 ^ 32 - 1) v false
      else s.wordWrite c r i (b / 8) ((2 ^ 32 - 1) * 2 ^ 32) (v * 2 ^ 32) false
    | none => s

/-- A write of 8 bytes at a multiple of 8: to one 64-bit word, or to the registers within it in ascending offset (R600, R601). -/
def write8 (s : State) (c a v : Nat) : State :=
  match findReg a with
  | some (r, i, b) =>
    if r.bytes = 4 || r.bytes = 1 then (s.write4 c a (v % 2 ^ 32)).write4 c (a + 4) (v / 2 ^ 32)
    else if !s.answers a then s
    else s.wordWrite c r i (b / 8) (2 ^ 64 - 1) v true
  | none => (s.write4 c a (v % 2 ^ 32)).write4 c (a + 4) (v / 2 ^ 32)

/-- A write by a requester of `n` bytes at BAR0 offset `a`; false where the access is no register access (R600). -/
def regWrite (s : State) (by_ : Requester) (a n v : Nat) : Bool × State :=
  let s := s.awake by_
  if !s.present by_ then (true, s)
  else if !(n == 4 || n == 8) || a % n != 0 then
    (false, if by_ = .host then s.bump Reg.HP_UR_CNT.COUNT else s)
  else if 2 < s.reqCtx by_ then (true, s.foreign)
  else if n = 4 then (true, (s.write4 (s.reqCtx by_) a (v % 2 ^ 32)).settle s)
  else (true, (s.write8 (s.reqCtx by_) a v).settle s)

/-! ## Device space (R598) -/

/-- Device space decodes the offset (Table 22.1). -/
def deviceDecoded (_ : State) (off : Nat) : Bool :=
  decide (off < 0x2000000) || (decide (0x4000000 ≤ off) && decide (off < 0x8000000))

/-- 4 bytes of a letterbox page (Table 3.2). -/
def letterboxWord (s : State) (q o : Nat) : Nat :=
  match o with
  | 0x008 => (s.pigeon q).head
  | 0x010 => s.qctxWord q 4 % 2 ^ 16
  | _ => 0

/-- A read of `n` bytes at an offset of device space: none is a precise access fault, or Unsupported Request at BAR2. -/
def deviceRead (s : State) (by_ : Requester) (off n : Nat) : Option Nat × State :=
  if !s.deviceDecoded off then (none, s)
  else if off < 0x2000000 then s.regRead by_ off n
  else
    let s := s.awake by_
    let o := off % 0x1000
    if !(n == 4 || n == 8) || off % n != 0 then (none, if by_ = .host then s.bump Reg.HP_UR_CNT.COUNT else s)
    else if !s.answers 0x800000 then (some 0, s)
    else (some (s.letterboxWord ((off - 0x4000000) / 0x1000) o), s)

/-- A write of `n` bytes at an offset of device space; false where it is no access. -/
def deviceWrite (s : State) (by_ : Requester) (off n v : Nat) : Bool × State :=
  if !s.deviceDecoded off then (false, s)
  else if off < 0x2000000 then s.regWrite by_ off n v
  else
    let s := s.awake by_
    if !(n == 4 || n == 8) || off % n != 0 then (false, if by_ = .host then s.bump Reg.HP_UR_CNT.COUNT else s)
    else if off % 0x1000 = 0 && s.answers 0x800000 then (true, s.doorbell ((off - 0x4000000) / 0x1000) (v % 2 ^ 32))
    else (true, s)

/-- A register write by a command's requester: a core whose access is none takes a precise access fault. -/
def regWriteBy (s : State) (by_ : Requester) (a n v : Nat) : State :=
  match s.regWrite by_ a n v with
  | (true, s) => s
  | (false, s) =>
    match by_ with
    | .hart h => s.hartFault h
    | .core t => s.fatalTrap t
    | _ => s

end State

/-! ## Rows -/

/-- LOW_WORD_READ (R601). -/
def execLowWordRead (by_ : Requester) (offset : BitVec 25) (s : State) : Host.Outcome State Fault Refusal :=
  .next (s.regReadBy by_ offset.toNat 4)

/-- HIGH_WORD_READ (R601). -/
def execHighWordRead (by_ : Requester) (offset : BitVec 25) (s : State) : Host.Outcome State Fault Refusal :=
  .next (s.regReadBy by_ offset.toNat 4)

/-- REFUSED_REGISTER_READ (R600, R603, R519). -/
def execRefusedRegisterRead (by_ : Requester) (offset : BitVec 25) (size : Nat) (s : State) : Host.Outcome State Fault Refusal :=
  .next (s.regReadBy by_ offset.toNat size)

/-- REGISTER_WRITE (R600, R601, R603 to R605). -/
def execRegisterWrite (by_ : Requester) (offset : BitVec 25) (wide : Bool) (v : W64) (s : State) : Host.Outcome State Fault Refusal :=
  .next (s.regWriteBy by_ offset.toNat (if wide then 8 else 4) v.toNat)

/-- MEM_LOCK_SET (R325, R377, R550): a write of MEM_CTL. -/
def execMemLockSet (by_ : Requester) (v : W32) (s : State) : Host.Outcome State Fault Refusal :=
  .next (s.regWriteBy by_ 0x50000 4 v.toNat)

/-- EC_CLAIM (R479, R484). -/
def execEcClaim (by_ : Requester) (t : Fin 321) (s : State) : Host.Outcome State Fault Refusal :=
  .next (s.regReadBy by_ (0x410000 + 4096 * t) 4)

/-- EC_COMPLETE (R480). -/
def execEcComplete (by_ : Requester) (t : Fin 321) (v : W32) (s : State) : Host.Outcome State Fault Refusal :=
  .next (s.regWriteBy by_ (0x410008 + 4096 * t) 4 v.toNat)

/-- EC_PEND (R485). -/
def execEcPend (by_ : Requester) (v : W32) (s : State) : Host.Outcome State Fault Refusal :=
  .next (s.regWriteBy by_ 0x400010 4 v.toNat)

/-- EC_MASK (R485). -/
def execEcMask (by_ : Requester) (v : W32) (s : State) : Host.Outcome State Fault Refusal :=
  .next (s.regWriteBy by_ 0x400018 4 v.toNat)

/-- EC_UNMASK (R485). -/
def execEcUnmask (by_ : Requester) (v : W32) (s : State) : Host.Outcome State Fault Refusal :=
  .next (s.regWriteBy by_ 0x400020 4 v.toNat)

/-- EC_PEND_SET (R486). -/
def execEcPendSet (by_ : Requester) (w : Fin 32) (v : W32) (s : State) : Host.Outcome State Fault Refusal :=
  .next (s.regWriteBy by_ (0x404000 + 4 * w) 4 v.toNat)

/-- EC_PEND_CLR (R486). -/
def execEcPendClr (by_ : Requester) (w : Fin 32) (v : W32) (s : State) : Host.Outcome State Fault Refusal :=
  .next (s.regWriteBy by_ (0x404080 + 4 * w) 4 v.toNat)

/-- EC_MASK_SET (R486). -/
def execEcMaskSet (by_ : Requester) (w : Fin 32) (v : W32) (s : State) : Host.Outcome State Fault Refusal :=
  .next (s.regWriteBy by_ (0x404100 + 4 * w) 4 v.toNat)

/-- EC_MASK_CLR (R486). -/
def execEcMaskClr (by_ : Requester) (w : Fin 32) (v : W32) (s : State) : Host.Outcome State Fault Refusal :=
  .next (s.regWriteBy by_ (0x404180 + 4 * w) 4 v.toNat)

/-- ATTACH (R530). -/
def execAttach (by_ : Requester) (v : W32) (s : State) : Host.Outcome State Fault Refusal :=
  .next (s.regWriteBy by_ 0xc0018 4 v.toNat)

/-- RECORD_DELIVERY (R575): a write of ST_GO. -/
def execRecordDelivery (by_ : Requester) (v : W32) (s : State) : Host.Outcome State Fault Refusal :=
  .next (s.regWriteBy by_ 0xf0020 4 v.toNat)

/-- BUNDLE_DELIVERY (R575): a write of ST_GO. -/
def execBundleDelivery (by_ : Requester) (v : W32) (s : State) : Host.Outcome State Fault Refusal :=
  .next (s.regWriteBy by_ 0xf0020 4 v.toNat)

/-- MODULE_RESET (R579): a write of ST_RESET. -/
def execModuleReset (by_ : Requester) (v : W32) (s : State) : Host.Outcome State Fault Refusal :=
  .next (s.regWriteBy by_ 0xf0008 4 v.toNat)

/-- DEVICE_WARM_RESET (R579): a write of ST_RESET. -/
def execDeviceWarmReset (by_ : Requester) (v : W32) (s : State) : Host.Outcome State Fault Refusal :=
  .next (s.regWriteBy by_ 0xf0008 4 v.toNat)

/-- TARLE_ONLY_RESET (R579, R571): a write of ST_RESET. -/
def execTarleOnlyReset (by_ : Requester) (v : W32) (s : State) : Host.Outcome State Fault Refusal :=
  .next (s.regWriteBy by_ 0xf0008 4 v.toNat)

/-- FULL_MAINTENANCE_STOP (R579, R582): a write of ST_RESET. -/
def execFullMaintenanceStop (by_ : Requester) (v : W32) (s : State) : Host.Outcome State Fault Refusal :=
  .next (s.regWriteBy by_ 0xf0008 4 v.toNat)

/-- POWER_OFF (R579, R582): a write of ST_RESET. -/
def execPowerOff (by_ : Requester) (v : W32) (s : State) : Host.Outcome State Fault Refusal :=
  .next (s.regWriteBy by_ 0xf0008 4 v.toNat)

end Sys2Proof.Machine
end

