-- ==== Sys2Proof/Machine/Commands.lean ====
section
/-! DEFINITION. Engine commands as they stand in the queues: the scratchpad, and what makes a command malformed when it reaches the head
(R131 to R136, R143 to R147, R188, R190, R223, R238 to R244). -/

namespace Sys2Proof.Machine

/-- Number of the engine whose queue an instruction names (R123). -/
def engineNum : Engine → Nat
  | .load => 0 | .matrix => 1 | .vector => 2 | .store => 3

/-- Ranges of `rows` rows of `len` bytes at a pitch in bytes. -/
def rowRanges (start rows pitch len : Nat) : List (Nat × Nat) := (List.range rows).map fun r => (start + r * pitch, len)

def cmdOp (d : BitVec 128) : Nat := bitsOf d 0 8

/-- Reserved header bits are not zero (Table 4.4). -/
def headerBad (d : BitVec 128) : Bool := d.getLsbD 22 || bitsOf d 8 2 != 0

/-- Scratchpad rows of LD.2D, ST.2D or LD.ZERO (Table 4.5). -/
def cmdRows (d : BitVec 128) : List (Nat × Nat) :=
  rowRanges (32 * bitsOf d 110 18) (bitsOf d 98 12 + 1) (32 * bitsOf d 70 12) (bitsOf d 82 16 + 1)

/-- Kc of a format written to the in-tray (R242). -/
def trayKc (fmt rows : Nat) : Nat :=
  if fmtBits fmt = 4 then (if rows = 256 then 256 else 128)
  else ([16, 64, 128].find? fun k => kcOfFmt fmt k).getD 128

namespace State

/-! ## Engine queues -/

def engine (s : State) (t : Nat) : Engine → EngineSt
  | .load => (s.tile t).ld
  | .matrix => (s.tile t).mx
  | .vector => (s.tile t).ve
  | .store => (s.tile t).st

def onEngine (s : State) (t : Nat) (e : Engine) (f : EngineSt → EngineSt) : State :=
  s.onTile t fun x => match e with
    | .load => { x with ld := f x.ld }
    | .matrix => { x with mx := f x.mx }
    | .vector => { x with ve := f x.ve }
    | .store => { x with st := f x.st }

/-! ## Scratchpad -/

/-- A byte of tile `t`'s scratchpad as an operand: zero in a word that cannot be corrected (R147); undefined contents are free (R148,
R585; Log 4). -/
def spGet (s : State) (t a : Nat) : Byte :=
  let x := s.tile t
  if x.spBad.contains (a / 8) then 0
  else
    AMap.getD x.sp a (match x.spLost with
      | none => 0
      | some e => Config.lostByte e (2 ^ 60 + t * 2 ^ 23 + a))

def spBytes (s : State) (t a n : Nat) : List Byte := (List.range n).map fun i => s.spGet t (a + i)

/-- Words of tile `t`'s scratchpad that cannot be corrected, among ranges given by first byte and length (R147). -/
def spBadIn (s : State) (t : Nat) (rs : List (Nat × Nat)) : List Nat :=
  (s.tile t).spBad.filter fun w => rs.any fun r => r.2 != 0 && decide (r.1 / 8 ≤ w) && decide (8 * w < r.1 + r.2)

/-- `n` uncorrectable words of the scratchpad have been read: counted at the tile, and `errs` of them at its descriptor (R147). -/
def spSpoilt (s : State) (t n errs : Nat) : State :=
  let s := if n = 0 then s else s.bump (Reg.CT_SPUNC_CNT.COUNT t) n
  match s.running t with
  | some f => s.addLoss f.queue f.seq { errs := errs }
  | none => s

/-- Ranges are read for an operand of an engine (R147). -/
def spOperand (s : State) (t : Nat) (rs : List (Nat × Nat)) : State :=
  let n := (s.spBadIn t rs).length
  s.spSpoilt t n n

/-- Bytes as the store engine reads them: none in a word that cannot be corrected (R147). -/
def spStored (s : State) (t a n : Nat) : List (Option Byte) :=
  (List.range n).map fun i => if (s.tile t).spBad.contains ((a + i) / 8) then none else some (s.spGet t (a + i))

/-- Bytes written from address `a`; a byte that is none is left unchanged. A word all of whose bytes are written can be read again
(Log 57). -/
def spPut (s : State) (t a : Nat) (bs : List (Option Byte)) : State :=
  let whole (w : Nat) : Bool := (List.range 8).all fun i =>
    decide (a ≤ 8 * w + i) && (bs.getD (8 * w + i - a) none).isSome
  s.onTile t fun x => { x with
    spBad := x.spBad.filter fun w => !whole w
    sp := bs.zipIdx.foldl (fun m p => match p.1 with
      | some b => AMap.put m (a + p.2) b
      | none => m) x.sp }

/-- `n` packed elements of format `fmt` from byte `a` (R161). -/
def spElems (s : State) (t a fmt n : Nat) : List Nat :=
  let v := leNat (s.spBytes t a (n * fmtBits fmt / 8))
  (List.range n).map fun i => packed v i (fmtBits fmt)

def spScales (s : State) (t a n : Nat) : List Nat := (s.spBytes t a n).map (·.toNat)

/-- A range passes byte 0x7F_FFFF, or touches the local region while a kernel holds it (R136, R146). -/
def rangeBad (s : State) (t : Nat) (rs : List (Nat × Nat)) : Bool :=
  rs.any fun r => r.2 != 0 && (decide (0x800000 < r.1 + r.2) || ((s.tile t).kernel.isSome && decide (0x600000 < r.1 + r.2)))

/-- Sets a sticky FLUSHED flag of a tile: 0 matrix, 1 vector, 2 thread-group, 3 feed (R172, R173). -/
def setFlushed (s : State) (t bit : Nat) (b : Bool) : State :=
  if b then s.onTile t fun x => { x with flags := x.flags ||| 2 ^ bit } else s

/-- The state of a lane opened now: the seed and the tile word in force (R169, R182). -/
def openLane (s : State) (t engine lane stream : Nat) : W64 :=
  srOpen s.tick.seed (if s.tick.tilemix then t else 0) engine lane stream

/-! ## Malformed commands -/

/-- A load or store command is malformed (R134, R136). -/
def moveBad (s : State) (t : Nat) (load : Bool) (d : BitVec 128) : Bool :=
  headerBad d || match cmdOp d with
  | 0 => false
  | 1 | 2 => bitsOf d 35 29 != 0
  | 3 | 4 =>
    (cmdOp d == 4 && (!load || bitsOf d 32 38 != 0)) || s.rangeBad t (cmdRows d)
      || (decide (32 * bitsOf d 70 12 < bitsOf d 82 16 + 1) && bitsOf d 98 12 != 0)
  | _ => true

/-- Row lines of a matrix operand at 32-byte units `sp` with its pitch in SETP bits from `lo` (R188). -/
def operandLines (_ : State) (m : MatrixSt) (sp lo len : Nat) : List (Nat × Nat) :=
  rowRanges (32 * sp) 128 (32 * bitsOf m.pitch lo 16) len

/-- Bank rules of Table 6.10 that make an MX.MMA malformed. -/
def bankBad (m : MatrixSt) (d : BitVec 128) : Bool :=
  let b := (bankOf m (bitsOf d 44 2)).st
  let zero := d.getLsbD 43
  let held := anyBank m .acc64 || anyBank m .close64
  if modeSliced m then
    bitsOf d 44 2 != 0 || (held && zero) || (!zero && !anyBank m .acc64)
  else held || (b == .free && !zero) || (b == .accum && zero) || ((b == .closing || b == .tray) && !zero)

/-- Scratchpad ranges that an MX.MMA reads: the lines of its operands, A's in the in-tray excepted, and their scales (R188). -/
def mmaRanges (s : State) (m : MatrixSt) (d : BitVec 128) : List (Nat × Nat) :=
  let fa := bitsOf m.mode 91 5
  let fb := bitsOf m.mode 86 5
  let kc := (modeKc m).getD 128
  let ina := d.getLsbD 41
  (if ina then [] else s.operandLines m (bitsOf d 110 18) 112 (lineLen fa kc)) ++ s.operandLines m (bitsOf d 92 18) 96 (lineLen fb kc)
    ++ (if fmtMx fa && !ina then rowRanges (bitsOf d 69 23) 128 (bitsOf m.pitch 80 16) (kc / 32) else [])
    ++ (if fmtMx fb then rowRanges (bitsOf d 46 23) 128 (bitsOf m.pitch 64 16) (kc / 32) else [])

/-- Scratchpad ranges that an MX.EXP reads (R202). -/
def expRanges (s : State) (m : MatrixSt) (d : BitVec 128) : List (Nat × Nat) :=
  s.operandLines m (bitsOf d 110 18) 112 1024 ++ s.operandLines m (bitsOf d 92 18) 96 1024

/-- A matrix command is malformed (R190). -/
def matrixBad (s : State) (t : Nat) (d : BitVec 128) : Bool :=
  let m := (s.tile t).matrix
  let fa := bitsOf m.mode 91 5
  let fb := bitsOf m.mode 86 5
  let kc := (modeKc m).getD 128
  let la := lineLen fa kc
  let lb := lineLen fb kc
  let short (lo len : Nat) : Bool := decide (32 * bitsOf m.pitch lo 16 < len)
  let unset := !m.modeValid || !m.pitchValid
  headerBad d || match cmdOp d with
  | 0 => false
  | 1 => bitsOf d 32 44 != 0 || (pairKc (bitsOf d 91 5) (bitsOf d 86 5)).isNone || !srbitsOk (bitsOf d 83 3) (bitsOf d 77 5)
  | 2 => bitsOf d 32 32 != 0
  | 3 =>
    let ina := d.getLsbD 41
    let sab := bitsOf d 69 23
    let sbb := bitsOf d 46 23
    let spa := bitsOf m.pitch 80 16
    let spb := bitsOf m.pitch 64 16
    bitsOf d 32 9 != 0 || unset || short 112 la || short 96 lb
      || (fmtMx fa && decide (spa < kc / 32)) || (fmtMx fb && decide (spb < kc / 32))
      || (!fmtMx fa && sab != 0) || (!fmtMx fb && sbb != 0)
      || (ina && (modeSliced m || bitsOf d 110 18 != 0 || sab != 0))
      || s.rangeBad t (s.mmaRanges m d)
      || bankBad m d
  | 4 =>
    bitsOf d 32 59 != 0 || unset || fa != 0 || fb != 0 || short 112 1024 || short 96 1024
      || s.rangeBad t (s.expRanges m d)
      || anyBank m .acc64
  | _ => true

/-- A stream setting of IDX 0–7 (Table 7.9). -/
def stream? (s : State) (t i : Nat) : Option (BitVec 128) := AMap.get? (s.tile t).vector.streams i

def streamFmt (d : BitVec 128) : Nat := bitsOf d 89 5

/-- Byte ranges of a stream over `rows` rows (R239). -/
def streamRanges (_ : State) (i rows : Nat) (d : BitVec 128) : List (Nat × Nat) :=
  let a := 32 * bitsOf d 110 18
  let p := bitsOf d 94 16
  match i with
  | 2 => [(a, 4 * rows)]
  | 3 | 4 => [(a, 512)]
  | 6 | 7 => rowRanges a rows p 4
  | _ => rowRanges a rows (32 * p) (16 * fmtBits (streamFmt d))

/-- Input streams that a run of program `p` reads, their scales among them (R239). -/
def runInputs (s : State) (t : Nat) (d : BitVec 128) (p : List W64) : List Nat :=
  let mx := fmtMx (streamFmt ((s.stream? t 0).getD 0))
  (if programReads p 4 && !d.getLsbD 112 then [0] ++ (if mx then [6] else []) else []) ++ (if programReads p 5 then [1] else [])
    ++ (if programReads p 8 then [2] else []) ++ (if programReads p 6 then [3] else []) ++ (if programReads p 7 then [4] else [])

/-- Scratchpad ranges of streams over the rows of a run. -/
def runRanges (s : State) (t : Nat) (d : BitVec 128) (is : List Nat) : List (Nat × Nat) :=
  is.flatMap fun i => s.streamRanges i (bitsOf d 113 12 + 1) ((s.stream? t i).getD 0)

/-- A run is malformed (R244). -/
def runBad (s : State) (t : Nat) (d : BitVec 128) : Bool :=
  let v := (s.tile t).vector
  let rows := bitsOf d 113 12 + 1
  let srct := d.getLsbD 112
  let dstt := d.getLsbD 111
  let outTy := bitsOf d 53 2
  let colOp := bitsOf d 61 3
  match AMap.get? v.programs (bitsOf d 125 3) with
  | none => true
  | some p =>
    let wide := programWide p
    let missing (i : Nat) : Bool := (s.stream? t i).isNone
    let fmtOf (i : Nat) : Nat := streamFmt ((s.stream? t i).getD 0)
    let in0 := programReads p 4 && !srct
    let outFmt := fmtOf 5
    let used := s.runInputs t d p
    let outs := (if dstt then [] else [5] ++ (if fmtMx outFmt then [7] else []))
    used.any missing || missing 5 || (fmtMx outFmt && missing 7)
      || outTy == 3 || (outTy == 2 && !wide) || (in0 && fmtOf 0 == 0 && !wide)
      || (used.any fun i => (i == 2 || i == 3 || i == 4) && fmtOf i != 0x01 && fmtOf i != 0x0B)
      || (programReads p 5 && fmtMx (fmtOf 1))
      || !rndOk (bitsOf d 107 3) || !rndOk (bitsOf d 104 3) || !srbits2Ok (bitsOf d 107 3) (bitsOf d 104 3) (bitsOf d 97 5)
      || 4 < colOp || (d.getLsbD 58 && (v.colOp == 0 || v.colOp != colOp))
      || s.rangeBad t (s.runRanges t d (used ++ outs)
          ++ (if d.getLsbD 57 then [(32 * bitsOf d 35 18, 512)] else []))
      || (srct && rows != 128)
      || (dstt && (outFmt == 0 || !((List.range 32).any fun g => (pairKc outFmt g).isSome)
          || !(rows == 128 || (rows == 256 && fmtBits outFmt == 4)) || decide (128 ≤ bitsOf d 32 3 * trayKc outFmt rows)))

/-- A vector command is malformed. -/
def vectorBad (s : State) (t : Nat) (d : BitVec 128) : Bool :=
  headerBad d || match cmdOp d with
  | 0 => false
  | 1 =>
    let n := bitsOf d 101 6 + 1
    let a := 32 * bitsOf d 110 18
    bitsOf d 32 69 != 0 || s.rangeBad t [(a, 8 * n)]
      || programBad ((List.range n).map fun i => BitVec.ofNat 64 (leNat (s.spBytes t (a + 8 * i) 8)))
  | 2 =>
    let i := bitsOf d 86 3
    bitsOf d 32 54 != 0 || (if 6 ≤ i then streamFmt d != 0 else !fmtValid (streamFmt d))
      || ((i == 2 || i == 3 || i == 4) && bitsOf d 94 16 != 0)
  | 3 => s.runBad t d
  | _ => true

/-- The command at the head of an engine's queue is malformed (R136). -/
def commandBad (s : State) (t : Nat) (e : Engine) (d : BitVec 128) : Bool :=
  match e with
  | .load => s.moveBad t true d
  | .store => s.moveBad t false d
  | .matrix => s.matrixBad t d
  | .vector => s.vectorBad t d

/-- What a matrix command or a run reads has come, and is of another format than its settings: the slot of the in-tray (R190, R212), or
the bank at the out-tray head (R244). -/
def lateBad (s : State) (t : Nat) (e : Engine) (d : BitVec 128) : Bool :=
  let m := (s.tile t).matrix
  match e with
  | .matrix => cmdOp d == 3 && d.getLsbD 41 && match m.inTray.find? fun i => !i.used with
    | some i => i.full && (i.fmt != bitsOf m.mode 91 5 || i.kc != (modeKc m).getD 128)
    | none => false
  | .vector => cmdOp d == 3 && d.getLsbD 112 && !programWide (AMap.getD (s.tile t).vector.programs (bitsOf d 125 3) [])
      && (m.tray.head?).any fun x => x.ty == .fp64
  | _ => false

/-- The head of an engine's queue is tested when it reaches it: a malformed command is a fatal trap (R136). -/
def testHead (s : State) (t : Nat) (e : Engine) : State :=
  match (s.engine t e).queue with
  | d :: _ => if s.commandBad t e d then s.fatalTrap t else s
  | [] => s

end State

end Sys2Proof.Machine
end

