-- ==== Sys2Proof/Machine/TileCore.lean ====
section
/-! DEFINITION. The control core: LAUNCH, Xflstile instructions, loads, stores, atomics and fences through the pocket cache, and the
tile's resets and watchdog (R117 to R142, R581). A command of an instruction is the core's execution of it; where the access has
to wait for a page fault, for a line or for an earlier store, the command leaves the request that it has made, and the instruction
is executed by its next command (Log 32). -/

namespace Sys2Proof.Machine

/-- Result of an AMO on `old` and the operand `x`, of 4 or 8 bytes. -/
def amoResult (op : AmoOp) (double : Bool) (old x : W64) : W64 :=
  let a := if double then old else old.truncate 32 |>.signExtend 64
  let b := if double then x else x.truncate 32 |>.signExtend 64
  let ua := if double then old.toNat else old.toNat % 2 ^ 32
  let ub := if double then x.toNat else x.toNat % 2 ^ 32
  match op with
  | .swap => x
  | .add => old + x
  | .xor => old ^^^ x
  | .and => old &&& x
  | .or => old ||| x
  | .min => if a.toInt ≤ b.toInt then old else x
  | .max => if b.toInt ≤ a.toInt then old else x
  | .minu => if ua ≤ ub then old else x
  | .maxu => if ub ≤ ua then old else x

/-- The `n` bytes of a line from byte `i`, as a number. -/
def lineNat (l : Line) (i n : Nat) : Nat := l.toNat / 2 ^ (8 * i) % 2 ^ (8 * n)

/-- A line with `n` bytes of `v` at byte `i`, and the mask of those bytes. -/
def lineWith (i n : Nat) (v : W64) : Line × BitVec 128 :=
  (BitVec.ofNat 1024 (v.toNat % 2 ^ (8 * n) * 2 ^ (8 * i)), byteMask i n)

/-- The naturally aligned parts of 1, 2, 4 or 8 bytes that make up a run of bytes, in ascending order: what a device block accepts. -/
def alignedParts : Nat → Nat → Nat → List (Nat × Nat)
  | 0, _, _ => []
  | fuel + 1, a, n =>
    match [8, 4, 2, 1].find? fun k => a % k = 0 && decide (k ≤ n) with
    | some k => (a, k) :: alignedParts fuel (a + k) (n - k)
    | none => []

namespace State

/-! ## Engine queues and token counters -/

/-- Free entries of an engine's queue (R132). -/
def queueFree (s : State) (t : Nat) (e : Engine) : Nat := 64 - (s.engine t e).queue.length

/-- The take of an engine's head, where the counter allows it. -/
def serveHead (s : State) (t c : Nat) (e : Engine) : State :=
  if headWants (s.engine t e) == some c && decide (1 ≤ s.counterOf t c) then
    (s.setCounter t c (s.counterOf t c - 1)).onEngine t e fun x => { x with taken := true }
  else s

/-- The waiters on counter `c` in the order of R128: load, matrix, vector, store, control core. -/
def serveWaiters (s : State) (t c : Nat) : State :=
  let s := [Engine.load, .matrix, .vector, .store].foldl (fun s e => s.serveHead t c e) s
  let v := s.counterOf t c
  match (s.tile t).core.wait with
  | .take rd c' n =>
    if c' = c ∧ n ≤ v then
      (((s.setCounter t c (v - n)).setCoreReg t rd (BitVec.ofNat 64 v)).onCore t fun x => { x with wait := .none }).retire t
    else s
  | .test rd c' n =>
    if c' = c ∧ n ≤ v then ((s.setCoreReg t rd (BitVec.ofNat 64 v)).onCore t fun x => { x with wait := .none }).retire t
    else s
  | _ => s

/-! ## The core goes on -/

/-- A command enters an engine's queue (R123), and is tested where it reaches the head with that (R136). -/
def pushCommand (s : State) (t : Nat) (e : Engine) (rd : Nat) (cmd : BitVec 128) : State :=
  let first := (s.engine t e).queue.isEmpty
  let s := s.onEngine t e fun x => { x with queue := x.queue ++ [cmd] }
  let s := (s.setCoreReg t rd (BitVec.ofNat 64 (s.queueFree t e))).retire t
  if first then s.testHead t e else s

/-- The counter `c` receives a post of the low word of `v`, on the tile that `v` names (R123, R126, R129). -/
def makePost (s : State) (t : Nat) (v : W64) (c : Nat) : State :=
  let n := v.toNat % 2 ^ 32
  if !v.getLsbD 63 then
    -- behind an earlier post of the core to the same counter that is still on its way
    if s.posts.any fun p => p.sender == t && p.tile == t && p.c == c then
      { s with posts := s.posts ++ [{ sender := t, tile := t, c := c, n := n }] }
    else s.postToken t t c n
  else
    match s.running t with
    | none => s
    | some f =>
      match f.parts[v.toNat / 2 ^ 32 % 256]? with
      | some p => { s with posts := s.posts ++ [{ sender := t, tile := p.tile, c := c, n := n }] }
      | none => s.bump (Reg.CT_TOKDROP_CNT.COUNT t)

/-- What the control core waits for, but a token or a line, is tested; what has come lets the instruction complete. -/
def coreProgress (s : State) (t : Nat) : State :=
  let done (s : State) : State := s.onCore t fun x => { x with wait := .none }
  match (s.tile t).core.wait with
  | .push e rd cmd => if s.queueFree t e = 0 then s else (done s).pushCommand t e rd cmd
  | .summary rd =>
    match (s.tile t).fifo with
    | v :: rest => ((done s).setCoreReg t rd v |>.onTile t fun x => { x with fifo := rest }).retire t
    | [] => s
  | .fence pred _ => if s.fenceDone t pred then (done s).retire t else s
  | .post v c => if s.coreDrained t then ((done s).makePost t v c).retire t else s
  | _ => s

/-- The core begins to wait, and goes on at once where nothing holds it. -/
def coreWaits (s : State) (t : Nat) (w : CoreWait) : State := (s.onCore t fun x => { x with wait := w, waitTicks := 0 }).coreProgress t

/-! ## The merging buffer drains -/

/-- Merged stores to device space reach their blocks; a refused one is a fatal trap (R399, Table 13.2; Log 114). -/
def drainDevice (s : State) (t off : Nat) (ps : List (Nat × Nat)) (data : Line) : State :=
  ps.foldl (fun (s : State) p =>
    match s.deviceWrite (.core ⟨t % 256, Nat.mod_lt _ (by decide)⟩) (off + p.1) p.2 (lineNat data p.1 p.2) with
    | (true, s) => s
    | (false, s) => s.fatalTrap t) s

/-- The first entry of a tile's merging buffer drains: its WB bytes to the base-die L2 in M, its UCM bytes then as WrFull or WrPart, or
all of it to a port or to device space (R141, R346, R409). A refused store is a fatal trap (R375). -/
def drainEntry (s : State) (t : Nat) : State :=
  match (s.tile t).core.merge with
  | [] => s
  | e :: rest =>
    let pop (s : State) : State := s.onCore t fun c => { c with merge := rest }
    let x := s.mergeAccess t e
    let a := e.line * 128
    let wb := e.mask &&& ~~~e.umask
    let bytes (r : Nat × Nat) : List Byte := (List.range r.2).map fun i => e.data.extractLsb' (8 * (r.1 + i)) 8
    if e.host then
      pop ((maskRuns e.mask).foldl (fun s r => s.hostStore x (a + r.1) (bytes r)) s)
    else if s.space a == some .device then
      (pop s).drainDevice t (a - deviceBase) ((maskRuns e.mask).flatMap fun r => alignedParts 128 r.1 r.2) e.data
    else if !s.coherent a then
      pop ((maskRuns e.mask).foldl (fun s r => s.portStore x (a + r.1) (bytes r)) s)
    else if wb = 0 then
      if s.granuleHeld a 128 then s
      else
      match s.writeLine e.ctx e.line e.data e.mask (some t) true (agentOf (.core t)) with
      | (none, s) => pop s
      | (some _, s) => (pop s).fatalTrap t
    else if s.storeGone (.core t) e.line then pop (s.tryEnds (.core t) e.line)
    else
      match s.l2Avail (s.dieOf t) e.line e.ctx true with
      | .ready c =>
        let s := (s.tryEnds (.core t) e.line).l2Put (s.dieOf t) e.line c (lineMerge c.data e.data wb)
        let s := (s.breakReservations e.line (some t)).dieInvalidate (s.dieOf t) e.line (some t)
        if e.umask = 0 then pop s
        else s.onCore t fun c => { c with merge := { e with mask := e.umask, draining := true } :: rest }
      | .wait s => (s.tries x).onCore t fun c => { c with merge := { e with draining := true } :: rest }
      | .refused s => (pop s).fatalTrap t
      | .spoiled s => (pop s).fatalTrap t true

/-! ## Starting a part -/

/-- A part of opcode `op` at the head of a tile's slots starts with `k`; one whose descriptor has been aborted under R394 ends without
running. -/
def beginPart (s : State) (t op : Nat) (k : Flight → State → State) : State :=
  match s.partHead t op with
  | some f => if f.abort = 0x20 then s.endPart t else k f (s.startPart t f)
  | none => s

/-- The start of a control program (R119, R120, R122). -/
def startProgram (s : State) (t : Nat) (f : Flight) : State :=
  let d := f.desc
  let (i, n) := s.tileIndex f t
  let flags := body d 40 1
  let args := [body d 8 8, body d 16 8, body d 24 8, body d 32 8, i, n]
  let s := s.onTile t fun x => { x with
    core := { x.core with
      running := true, pc := BitVec.ofNat 64 (body d 0 8), wait := .none, mmode := false, resv := none, notices := 0, launches := 0
      waitTicks := 0, icache := [], pocket := [], evict := [], f := []
      x := args.zipIdx.map fun p => (10 + p.2, BitVec.ofNat 64 p.1) }
    ld := { x.ld with ar := [], sr := [] }
    st := { x.st with ar := [], sr := [] }
    tokens := if flags.testBit 0 then [] else x.tokens
    fifo := if flags.testBit 1 then [] else x.fifo }
  if body d 0 8 % 4 ≠ 0 then s.fatalTrap t else s

/-! ## Memory accesses -/

/-- A load's register takes the value (RV64IFD: a single-precision value is NaN-boxed). -/
def loadDone (s : State) (t rd v size : Nat) (sext float : Bool) : State :=
  let s :=
    if float then s.setCoreFReg t rd (BitVec.ofNat 64 (if size = 4 then v % 2 ^ 32 + (2 ^ 32 - 1) * 2 ^ 32 else v))
    else s.setCoreReg t rd (extend v size sext)
  (s.onCore t fun x => { x with wait := .none }).retire t

/-- A load's answer from a line read without caching it (UCM and DEV). -/
def loadUncached (s : State) (t a rd n : Nat) (sext float : Bool) (ctx : Nat) : State :=
  if s.granuleHeld a n then s
  else
  match s.readLine 0 ctx (a / 128) (agentOf (.core t)) with
  | (.data l, s) => s.loadDone t rd (lineNat l (a % 128) n) n sext float
  | (.bad, s) => s.fatalTrap t true
  | (_, s) => s.fatalTrap t

/-- A load or an atomic of the core as an access to coherent memory. -/
def coreTry (s : State) (t a n : Nat) : Access :=
  let who := s.tileWho t (.core t)
  { id := 0, unit := .core t, write := false, dev := false, addr := a, bytes := n, ctx := who.ctx, desc := some (who.queue, who.seq) }

/-- A load blocked on a line goes on (Table 4.7, cases 3, 4, 9, 11 and 16). -/
def fillArrives (s : State) (t : Nat) : State :=
  match (s.tile t).core.wait with
  | .fill rd a n sext float keep eff =>
    let line := a / 128
    let ctx := (s.tileWho t (.core t)).ctx
    if s.merging t line then s
    else if eff = 0 then
      match s.l2Avail (s.dieOf t) line ctx false with
      | .ready c =>
        let s := (s.tryEnds (.core t) line).loadDone t rd (lineNat c.data (a % 128) n) n sext float
        if keep then (s.pocketAllocate t line c.data).markPresence t line else s
      | .wait s => s.tries (s.coreTry t a n)
      | .refused s => s.fatalTrap t
      | .spoiled s => s.fatalTrap t true
    else s.loadUncached t a rd n sext float ctx
  | _ => s

/-- A load of the control core (Table 4.7). -/
def coreLoad (s : State) (t : Nat) (va : Nat) (rd n : Nat) (sext float : Bool) : State :=
  let who := s.tileWho t (.core t)
  let x (a : Nat) (dev : Bool) : Access :=
    { id := 0, unit := .core t, write := false, dev := dev, addr := a, bytes := n, rd := rd, sext := sext, float := float
      ctx := who.ctx, desc := some (who.queue, who.seq) }
  match s.target (.dtlb t) who va n accLoad with
  | .wait s => s
  | .trap s unc => s.fatalTrap t unc
  | .mem s a eff =>
    let s := s.resumeDone who.w
    if eff = 2 && s.devBusy (.core t) then s
    else if eff = 2 then s.loadUncached t a rd n sext float who.ctx
    else
      let hit := if eff = 0 then s.pocketFind t (a / 128) else none
      match hit with
      | some (l, s) => s.loadDone t rd (lineNat l (a % 128) n) n sext float
      | none =>
        let s := s.startDrain t fun e => e.line == a / 128 && !e.host
        let s := s.onCore t fun c => { c with wait := .fill rd a n sext float true eff }
        if eff = 0 then
          let s := s.markPresence t (a / 128)
          -- the request leaves at once, unless the line's own stores must drain first
          if s.merging t (a / 128) then s
          else
            match s.l2Avail (s.dieOf t) (a / 128) who.ctx false with
            | .wait s => s.tries (s.coreTry t a n)
            | _ => s
        else s.fillArrives t
  | .device s off eff =>
    let line := (deviceBase + off) / 128
    if eff = 2 && s.devBusy (.core t) then s
    else if s.merging t line then s.startDrain t fun e => e.line == line && !e.host
    else
      match s.deviceRead (.core ⟨t % 256, Nat.mod_lt _ (by decide)⟩) off n with
      | (some v, s) => (s.resumeDone who.w).loadDone t rd v n sext float
      | (none, s) => s.fatalTrap t
  | .port s a eff =>
    if eff = 2 && s.devBusy (.core t) then s
    else if s.merging t (a / 128) then s.startDrain t fun e => e.line == a / 128 && !e.host
    else (s.resumeDone who.w).issue { x a (eff == 2) with tout := s.timeoutOf a false }
  | .host s bus eff =>
    if eff = 2 && s.devBusy (.core t) then s
    else if (s.tile t).core.merge.any fun e => e.line == bus / 128 && e.host then
      s.startDrain t fun e => e.line == bus / 128 && e.host
    else (s.resumeDone who.w).issue { x bus (eff == 2) with host := some bus, tout := s.timeoutOf 0 true }

/-- A store enters the merging buffer, or finds it full and lets its oldest entry drain (Table 4.7, cases 5 to 7 and 12). -/
def mergeOrStall (s : State) (t ctx a n : Nat) (v : W64) (ucm host : Bool) : State :=
  let (d, m) := lineWith (a % 128) n v
  match s.mergeStore t ctx (a / 128) d m ucm host with
  | some s => (if ucm then s else s.pocketWrite t (a / 128) d m).retire t
  | none => s.startDrain t fun e => (s.tile t).core.merge.head? == some e

/-- A store of the control core. -/
def coreStore (s : State) (t : Nat) (va n : Nat) (v : W64) : State :=
  let who := s.tileWho t (.core t)
  let x : Access := { id := 0, unit := .core t, write := true, dev := true, addr := 0, bytes := n, ctx := who.ctx,
                      desc := some (who.queue, who.seq) }
  let busy (s : State) (eff : Nat) : Bool := eff == 2 && s.devBusy (.core t)
  match s.target (.dtlb t) who va n accStore with
  | .wait s => s
  | .trap s unc => s.fatalTrap t unc
  | .mem s a eff =>
    let s := s.resumeDone who.w
    if busy s eff then s
    else if eff = 2 then
      let (d, m) := lineWith (a % 128) n v
      if s.granuleHeld a n then s
      else
      match s.writeLine who.ctx (a / 128) d m (some t) true (agentOf (.core t)) with
      | (none, s) => s.retire t
      | (some _, s) => s.fatalTrap t
    else s.mergeOrStall t who.ctx a n v (eff == 1) false
  | .device s off eff =>
    if busy s eff then s
    else if eff = 1 then (s.resumeDone who.w).mergeOrStall t who.ctx (deviceBase + off) n v true false
    else
      match s.deviceWrite (.core ⟨t % 256, Nat.mod_lt _ (by decide)⟩) off n v.toNat with
      | (true, s) => (s.resumeDone who.w).retire t
      | (false, s) => s.fatalTrap t
  | .port s a eff =>
    let s := s.resumeDone who.w
    if busy s eff then s
    else if eff = 2 then (s.portStore x a (leBytes n v.toNat)).retire t
    else s.mergeOrStall t who.ctx a n v true false
  | .host s bus eff =>
    let s := s.resumeDone who.w
    if busy s eff then s
    else if eff = 2 then (s.hostStore x bus (leBytes n v.toNat)).retire t
    else s.mergeOrStall t who.ctx bus n v true true

/-- An AMO, LR or SC of the control core reaches its line at the base-die L2 with ownership (Table 4.7, case 14; R401): `k` is given the
line's copy there. -/
def coreAtomic (s : State) (t : Nat) (va n access : Nat) (k : State → Nat → CLine → State) : State :=
  let who := s.tileWho t (.core t)
  match s.target (.dtlb t) who va n access with
  | .wait s => s
  | .trap s unc => s.fatalTrap t unc
  | .mem s a eff =>
    let line := a / 128
    if eff = 2 then s.fatalTrap t
    else if s.merging t line then s.startDrain t fun e => e.line == line && !e.host
    else
      let s := s.pocketDrop t line
      match s.l2Avail (s.dieOf t) line who.ctx true with
      | .ready c => k ((s.resumeDone who.w).tryEnds (.core t) line) a c
      | .wait s => s.tries (s.coreTry t a n)
      | .refused s => s.fatalTrap t
      | .spoiled s => s.fatalTrap t true
  | .device s _ _ | .port s _ _ | .host s _ _ => s.fatalTrap t

/-- The atomic's bytes are written at the L2: other holders' reservations and the die's pocket copies go. -/
def atomicWrite (s : State) (t a n : Nat) (c : CLine) (v : W64) : State :=
  let (d, m) := lineWith (a % 128) n v
  let die := s.dieOf t
  ((s.l2Put die (a / 128) c (lineMerge c.data d m)).breakReservations (a / 128) (some t)).dieInvalidate
    die (a / 128) (some t)

/-- A sign-extended result of 4 or 8 bytes. -/
def atomicReg (s : State) (t rd : Nat) (v n : Nat) : State := (s.setCoreReg t rd (extend v n true)).retire t

end State

/-! ## Rows: programs and Xflstile -/

/-- LAUNCH (R119, R120). -/
def execLaunch (t : Fin 256) (s : State) : Host.Outcome State Fault Refusal :=
  .next (s.beginPart t 0x10 fun f s => s.startProgram t f)

/-- TPUSH (R123, R124). -/
def execTpush (t : Fin 256) (e : Engine) (rd rs1 rs2 : BitVec 5) (s : State) : Host.Outcome State Fault Refusal :=
  if s.coreReady t then .next (s.coreWaits t (.push e rd.toNat (s.coreReg t rs2.toNat ++ s.coreReg t rs1.toNat))) else .next s

/-- TQFREE (R123). -/
def execTqfree (t : Fin 256) (e : Engine) (rd : BitVec 5) (s : State) : Host.Outcome State Fault Refusal :=
  if s.coreReady t then .next ((s.setCoreReg t rd.toNat (BitVec.ofNat 64 (s.queueFree t e))).retire t) else .next s

/-- TQIDLE (R123). -/
def execTqidle (t : Fin 256) (rd : BitVec 5) (s : State) : Host.Outcome State Fault Refusal :=
  let idle (e : Engine) : Nat := boolBit ((s.engine t e).queue.isEmpty && (s.engine t e).started.isEmpty) (engineNum e)
  let v := idle .load + idle .matrix + idle .vector + idle .store
  if s.coreReady t then .next ((s.setCoreReg t rd.toNat (BitVec.ofNat 64 v)).retire t) else .next s

/-- TSUM (R123). -/
def execTsum (t : Fin 256) (rd : BitVec 5) (s : State) : Host.Outcome State Fault Refusal :=
  if s.coreReady t then .next (s.coreWaits t (.summary rd.toNat)) else .next s

/-- TSUMCNT (R123). -/
def execTsumcnt (t : Fin 256) (rd : BitVec 5) (s : State) : Host.Outcome State Fault Refusal :=
  if s.coreReady t then .next ((s.setCoreReg t rd.toNat (BitVec.ofNat 64 (s.tile t).fifo.length)).retire t) else .next s

/-- TEND (R121): the core waits for TEND_COMPLETE. -/
def execTend (t : Fin 256) (s : State) : Host.Outcome State Fault Refusal :=
  if s.coreReady t then .next (s.onCore t fun x => { x with wait := .ending }) else .next s

/-- TEND_COMPLETE (R121, R290, R404). -/
def execTendComplete (t : Fin 256) (s : State) : Host.Outcome State Fault Refusal :=
  let idle (e : Engine) : Bool := (s.engine t e).queue.isEmpty && (s.engine t e).started.isEmpty
  if (s.tile t).core.wait == .ending && idle .load && idle .matrix && idle .vector && idle .store && s.coreDrained t
      && (s.tile t).kernel.isNone then
    .next (s.endPart t)
  else .next s

/-- TPOST (R123, R125, R126, R129). Bits that must be 0 make the instruction a reserved one (Log 33). -/
def execTpost (t : Fin 256) (rs1 : BitVec 5) (c : Fin 32) (release : Bool) (s : State) : Host.Outcome State Fault Refusal :=
  let v := s.coreReg t rs1.toNat
  if !s.coreReady t then .next s
  else if v.toNat / 2 ^ 40 % 2 ^ 23 ≠ 0 ∨ (v.getLsbD 63 = false ∧ v.toNat / 2 ^ 32 % 2 ^ 8 ≠ 0) then .next (s.fatalTrap t)
  else if release then .next (s.coreWaits t (.post v c))
  else .next ((s.makePost t v c).retire t)

/-- TTAKE (R127, R128). -/
def execTtake (t : Fin 256) (rd rs1 : BitVec 5) (c : Fin 32) (s : State) : Host.Outcome State Fault Refusal :=
  if s.coreReady t then
    let n := (s.coreReg t rs1.toNat).toNat % 2 ^ 32
    .next ((s.onCore t fun x => { x with wait := .take rd.toNat c n, waitTicks := 0 }).serveWaiters t c)
  else .next s

/-- TTEST (R127, R128). -/
def execTtest (t : Fin 256) (rd rs1 : BitVec 5) (c : Fin 32) (s : State) : Host.Outcome State Fault Refusal :=
  if s.coreReady t then
    let n := (s.coreReg t rs1.toNat).toNat % 2 ^ 32
    .next ((s.onCore t fun x => { x with wait := .test rd.toNat c n, waitTicks := 0 }).serveWaiters t c)
  else .next s

/-- TOKEN_WAIT_SATISFIED (R127, R128): the tile's own waiters, and then WAITTOKEN descriptors. -/
def execTokenWaitSatisfied (t : Fin 256) (c : Fin 32) (s : State) : Host.Outcome State Fault Refusal :=
  let s' := if (s.tile t).mode == .normal then s.serveWaiters t c else s
  .next ((s'.serveTokenWaits t c).settle s)

/-- TREAD (R123). -/
def execTread (t : Fin 256) (rd : BitVec 5) (c : Fin 32) (s : State) : Host.Outcome State Fault Refusal :=
  if s.coreReady t then .next ((s.setCoreReg t rd.toNat (BitVec.ofNat 64 (s.counterOf t c))).retire t) else .next s

/-- TSETC (R123). -/
def execTsetc (t : Fin 256) (rs1 : BitVec 5) (c : Fin 32) (s : State) : Host.Outcome State Fault Refusal :=
  if s.coreReady t then .next ((s.setCounter t c ((s.coreReg t rs1.toNat).toNat % 2 ^ 32)).retire t) else .next s

/-- TOKEN_POST (R129): posts of one core to one counter arrive in issue order. -/
def execTokenPost (from_ : Fin 256) (c : Fin 32) (s : State) : Host.Outcome State Fault Refusal :=
  match s.posts.find? fun p => p.sender == from_.val && p.c == c.val with
  | some p =>
    let s : State := { s with posts := s.posts.erase p }
    .next (s.postToken p.sender p.tile p.c p.n)
  | none => .next s

/-! ## Rows: memory -/

/-- CONTROL_CORE_LOAD (R140, R317, R375, R400). LDU, and floating-point loads of 1 or 2 bytes or unsigned, are no instructions of
RV64IMAFDC (R117, R122). -/
def execControlCoreLoad (t : Fin 256) (rd rs1 : BitVec 5) (imm : BitVec 12) (size : MemSize) (unsigned float : Bool) (s : State) :
    Host.Outcome State Fault Refusal :=
  if !s.coreReady t then .next s
  else if (unsigned && (size == .d || float)) || (float && (size == .b || size == .h)) then .next (s.fatalTrap t)
  else
    .next (s.coreLoad t (s.coreReg t rs1.toNat + imm.signExtend 64).toNat rd.toNat (sizeBytes size) (!unsigned) float)

/-- CONTROL_CORE_STORE (R140, R141). -/
def execControlCoreStore (t : Fin 256) (rs1 rs2 : BitVec 5) (imm : BitVec 12) (size : MemSize) (float : Bool) (s : State) :
    Host.Outcome State Fault Refusal :=
  if !s.coreReady t then .next s
  else if float && (size == .b || size == .h) then .next (s.fatalTrap t)
  else
    let v := if float then s.coreFReg t rs2.toNat else s.coreReg t rs2.toNat
    .next (s.coreStore t (s.coreReg t rs1.toNat + imm.signExtend 64).toNat (sizeBytes size) v)

/-- CONTROL_CORE_AMO (R140, R401). -/
def execControlCoreAmo (t : Fin 256) (op : AmoOp) (rd rs1 rs2 : BitVec 5) (form : AtomicForm) (s : State) :
    Host.Outcome State Fault Refusal :=
  if !s.coreReady t then .next s
  else if form.aqrl.getLsbD 0 && !s.coreDrained t then .next (s.startDrain t fun _ => true)
  else
    let n := if form.double then 8 else 4
    let x := s.coreReg t rs2.toNat
    .next (s.coreAtomic t (s.coreReg t rs1.toNat).toNat n accAtomic fun s a c =>
      let old := lineNat c.data (a % 128) n
      (s.atomicWrite t a n c (amoResult op form.double (BitVec.ofNat 64 old) x)).atomicReg t rd.toNat old n)

/-- CONTROL_CORE_LR (R403). -/
def execControlCoreLr (t : Fin 256) (rd rs1 : BitVec 5) (form : AtomicForm) (s : State) :
    Host.Outcome State Fault Refusal :=
  if !s.coreReady t then .next s
  else if form.aqrl.getLsbD 0 && !s.coreDrained t then .next (s.startDrain t fun _ => true)
  else
    let n := if form.double then 8 else 4
    .next (s.coreAtomic t (s.coreReg t rs1.toNat).toNat n accLr fun s a c =>
      let s := s.l2Put (s.dieOf t) (a / 128) c c.data
      (s.onCore t fun x => { x with resv := some (a / 128) }).atomicReg t rd.toNat (lineNat c.data (a % 128) n) n)

/-- CONTROL_CORE_SC (R404, R405). -/
def execControlCoreSc (t : Fin 256) (rd rs1 rs2 : BitVec 5) (form : AtomicForm) (s : State) :
    Host.Outcome State Fault Refusal :=
  if !s.coreReady t then .next s
  else if form.aqrl.getLsbD 0 && !s.coreDrained t then .next (s.startDrain t fun _ => true)
  else
    let n := if form.double then 8 else 4
    let v := s.coreReg t rs2.toNat
    .next (s.coreAtomic t (s.coreReg t rs1.toNat).toNat n accSc fun s a c =>
      let held := (s.tile t).core.resv == some (a / 128)
      let s := s.onCore t fun x => { x with resv := none }
      if held then (s.atomicWrite t a n c v).atomicReg t rd.toNat 0 8 else s.atomicReg t rd.toNat 1 8)

/-- CONTROL_CORE_FENCE (R410, R411; Table 4.7, case 15). -/
def execControlCoreFence (t : Fin 256) (pred succ : BitVec 4) (s : State) : Host.Outcome State Fault Refusal :=
  if s.coreReady t then .next (s.coreWaits t (.fence pred.toNat succ.toNat)) else .next s

/-- FENCE_I (R142). -/
def execFenceI (t : Fin 256) (s : State) : Host.Outcome State Fault Refusal :=
  if s.coreReady t then .next ((s.onCore t fun x => { x with icache := [] }).retire t) else .next s

/-- POCKET_FILL_ARRIVAL (R139; Table 4.7, cases 3, 4, 9, 11 and 16). -/
def execPocketFillArrival (t : Fin 256) (s : State) : Host.Outcome State Fault Refusal := .next (s.fillArrives t)

/-- MERGE_ENTRY_DRAIN (R141). -/
def execMergeEntryDrain (t : Fin 256) (s : State) : Host.Outcome State Fault Refusal :=
  if s.mergeDue t then .next ((s.drainEntry t).coreProgress t) else .next s

/-- POCKET_INVALIDATION (R347; Table 4.7, cases 8 and 9). -/
def execPocketInvalidation (t : Fin 256) (line : BitVec 45) (s : State) : Host.Outcome State Fault Refusal :=
  .next (s.pocketInvalidate t line.toNat)

/-! ## Rows: resets and the watchdog -/

/-- RESET_DRAIN_END (R416, R581). -/
def execResetDrainEnd (t : Fin 256) (s : State) : Host.Outcome State Fault Refusal :=
  match (s.tile t).mode with
  | .draining since => if s.drainOver t since then .next (s.resetUnits t) else .next s
  | _ => .next s

/-- TILE_RESET_COMPLETE (R581): the packets that waited take slots, but those of a new tile set, for which the tile must first clear
(R148). -/
def execTileResetComplete (t : Fin 256) (s : State) : Host.Outcome State Fault Refusal :=
  match (s.tile t).mode with
  | .resetting since =>
    if since + 512 ≤ s.time.cycle then
      .next ((s.onTile t fun x => takeWaiting { x with mode := .normal }).tryClear t)
    else .next s
  | _ => .next s

/-- WATCHDOG_EXPIRY (R130). -/
def execWatchdogExpiry (t : Fin 256) (s : State) : Host.Outcome State Fault Refusal :=
  let n := s.tick.wdog
  let x := s.tile t
  if n ≠ 0 ∧ (n ≤ x.core.waitTicks ∨ n ≤ x.ld.waitTicks ∨ n ≤ x.mx.waitTicks ∨ n ≤ x.ve.waitTicks ∨ n ≤ x.st.waitTicks)
      ∧ x.mode = .normal then
    .next (s.fatalTrap t)
  else .next s

end Sys2Proof.Machine
end

