-- ==== Sys2Proof/Machine/Engines.lean ====
section
/-! DEFINITION. The engines' queues: the start and completion of a command, and the load and store engines (R131 to R138). A command's effect is made at its start (Log 34). -/

namespace Sys2Proof.Machine

namespace State

/-! ## Start and completion -/

/-- Engines are held while their tile is not in normal work or its cycle is lost to throttling (R30, R495, R497), and the fill unit and
the store engine while a page fault stalls them. -/
def engineRuns (s : State) (t : Nat) (e : Engine) : Bool :=
  (s.tile t).mode == .normal && !s.throttled t && match e with
  | .load => !s.stalled (.fill t)
  | .store => !s.stalled (.store t)
  | _ => true

/-- The head of an engine's queue starts and leaves the queue; `done` where its effect is complete but for its completion. -/
def popHead (s : State) (t : Nat) (e : Engine) (done : Bool) : State :=
  ((s.onEngine t e fun x => match x.queue with
    | d :: rest => { x with queue := rest, started := x.started ++ [(d, done)], taken := false, waitTicks := 0 }
    | [] => x).testHead t e).coreProgress t

/-- The head of an engine's queue, if its operation is `op` and it may start: it has its token, and ORD and the engine do not hold it. `k` performs it, or answers the state in which it has to wait. -/
def startHead (s : State) (t : Nat) (e : Engine) (op : Nat) (k : BitVec 128 → State → State) : State :=
  if !s.engineRuns t e then s
  else
    match (s.engine t e).queue with
    | [] => s
    | d :: _ =>
      if s.lateBad t e d then s.fatalTrap t
      else if cmdOp d ≠ op then s
      else
        let s := match headWants (s.engine t e) with
          | some c => s.serveWaiters t c
          | none => s
        let x := s.engine t e
        if (headWants x).isSome || (d.getLsbD 23 && !x.started.isEmpty) then s
        else if (e == .matrix && matrixHeld (s.tile t).matrix d) || (e == .vector && runHeld (s.tile t) d) then s
        else k d s

/-- The AR or SR register that a command names takes its value. -/
def setAddress (s : State) (t : Nat) (e : Engine) (d : BitVec 128) : State :=
  s.onEngine t e fun x => { x with ar := AMap.put x.ar (bitsOf d 32 3) (BitVec.ofNat 64 (bitsOf d 64 64)) }

def setStride (s : State) (t : Nat) (e : Engine) (d : BitVec 128) : State :=
  s.onEngine t e fun x => { x with sr := AMap.put x.sr (bitsOf d 32 3) (BitVec.ofNat 64 (bitsOf d 64 64)) }

/-- Segment address of row `r` of LD.2D or ST.2D (R135). -/
def rowAddress (x : EngineSt) (d : BitVec 128) (r : Nat) : Nat :=
  (AMap.getD x.ar (bitsOf d 64 3) 0 + BitVec.ofNat 64 (bitsOf d 32 32) + BitVec.ofNat 64 r * AMap.getD x.sr (bitsOf d 67 3) 0).toNat

/-- What stands of memory ranges, given by first address and length, before bytes move: the pieces of each, none for one that reaches
the flash window or passes a limit; or a state in which the unit waits. -/
def spanPieces (s : State) (who : Who) (write : Bool) : List (Nat × Nat) → Option (List (Option (List Piece))) × State
  | [] => (some [], s)
  | (a, n) :: rest =>
    match s.segPieces who a n write with
    | .wait s => (none, s)
    | .limit =>
      match s.spanPieces who write rest with
      | (some ps, s) => (some (none :: ps), s)
      | r => r
    | .ready ps s =>
      match s.spanPieces who write rest with
      | (some qs, s) => (some (some ps :: qs), s)
      | r => r

/-- The descriptor aborts with 0x21 and the bytes of the row are not moved (R138, R383). -/
def rowLimit (s : State) (who : Who) (len : Nat) : State :=
  (s.abortFlight who.queue who.seq 0x21).addLoss who.queue who.seq { dropped := len }

/-- The rows of an LD.2D land in the scratchpad. -/
def loadRows (s : State) (t : Nat) (who : Who) (len : Nat) : List (Option (List Piece) × Nat) → State
  | [] => s
  | (none, _) :: rest => (s.rowLimit who len).loadRows t who len rest
  | (some ps, a) :: rest =>
    let (bs, l, s) := s.readPieces 1 who ps
    ((s.addLoss who.queue who.seq l).spPut t a bs).loadRows t who len rest

/-- The rows of an ST.2D leave the scratchpad. -/
def storeRows (s : State) (t : Nat) (who : Who) (len : Nat) : List (Option (List Piece) × Nat) → State
  | [] => s
  | (none, _) :: rest => (s.rowLimit who len).storeRows t who len rest
  | (some ps, a) :: rest =>
    let bs := s.spStored t a len
    let s := s.spSpoilt t (s.spBadIn t [(a, len)]).length 0
    let (l, s) := s.writePieces who ps bs
    let lost := (bs.filter Option.isNone).length
    (s.addLoss who.queue who.seq { l with dropped := l.dropped + lost }).storeRows t who len rest

/-- LD.2D and ST.2D: every row's translations and outbound reads are ready before bytes move. -/
def moveRows (s : State) (t : Nat) (e : Engine) (d : BitVec 128) : State :=
  let load := e == .load
  let who := s.tileWho t (if load then .fill t else .store t)
  let x := s.engine t e
  let n := bitsOf d 98 12 + 1
  let len := bitsOf d 82 16 + 1
  match s.spanPieces who (!load) ((List.range n).map fun r => (rowAddress x d r, len)) with
  | (none, s) => s
  | (some rows, s) =>
    let all := rows.flatMap fun r => r.getD []
    if load && !s.portsReady who all then s.askPorts who all
    else
      let rs := rows.zip ((cmdRows d).map (·.1))
      let s := s.resumeDone who.w
      (if load then s.loadRows t who len rs else s.storeRows t who len rs).popHead t e true

/-- The writes of the store engine's oldest started command have all been acknowledged or discarded (Table 4.6). -/
def storesDone (s : State) (t : Nat) : Bool :=
  !(s.order.out.any fun x => x.unit == .store t && x.write && x.cmd == (s.tile t).st.ended)

/-- A completed matrix command frees the in-tray slot that it read (R212). -/
def freeTray (s : State) (t : Nat) (d : BitVec 128) : State :=
  if cmdOp d = 3 && d.getLsbD 41 then
    s.onTile t fun x => { x with matrix := { x.matrix with
      inTray := match x.matrix.inTray with
        | i :: rest => if i.used then rest else i :: rest
        | [] => [] } }
  else s

/-- The oldest started command of an engine completes, and its post is made (R132, R133). -/
def completeCommand (s : State) (t : Nat) (e : Engine) : State :=
  match (s.engine t e).started with
  | (d, true) :: rest =>
    if e == .store && !s.storesDone t then s
    else
      let s := s.onEngine t e fun x => { x with started := rest, ended := x.ended + 1 }
      let s := if e == .matrix then s.freeTray t d else s
      let s := if d.getLsbD 21 then s.postToken t t (bitsOf d 16 5) 1 else s
      s.coreProgress t
  | _ => s

end State

/-! ## Rows -/

/-- ENGINE_NOP (R131). -/
def execEngineNop (t : Fin 256) (e : Engine) (s : State) : Host.Outcome State Fault Refusal :=
  .next (s.startHead t e 0 fun _ s => s.popHead t e true)

/-- LD_SETAR (R134). -/
def execLdSetar (t : Fin 256) (s : State) : Host.Outcome State Fault Refusal :=
  .next (s.startHead t .load 1 fun d s => (s.setAddress t .load d).popHead t .load true)

/-- LD_SETSR (R134). -/
def execLdSetsr (t : Fin 256) (s : State) : Host.Outcome State Fault Refusal :=
  .next (s.startHead t .load 2 fun d s => (s.setStride t .load d).popHead t .load true)

/-- LD_2D (R135, R137, R138). -/
def execLd2d (t : Fin 256) (s : State) : Host.Outcome State Fault Refusal :=
  .next (s.startHead t .load 3 fun d s => s.moveRows t .load d)

/-- LD_ZERO (R134). -/
def execLdZero (t : Fin 256) (s : State) : Host.Outcome State Fault Refusal :=
  .next (s.startHead t .load 4 fun d s =>
    ((cmdRows d).foldl (fun (s : State) r => s.spPut t r.1 (List.replicate r.2 (some 0))) s).popHead t .load true)

/-- ST_SETAR (R134). -/
def execStSetar (t : Fin 256) (s : State) : Host.Outcome State Fault Refusal :=
  .next (s.startHead t .store 1 fun d s => (s.setAddress t .store d).popHead t .store true)

/-- ST_SETSR (R134). -/
def execStSetsr (t : Fin 256) (s : State) : Host.Outcome State Fault Refusal :=
  .next (s.startHead t .store 2 fun d s => (s.setStride t .store d).popHead t .store true)

/-- ST_2D (R135, R137, R138). -/
def execSt2d (t : Fin 256) (s : State) : Host.Outcome State Fault Refusal :=
  .next (s.startHead t .store 3 fun d s => s.moveRows t .store d)

/-- COMMAND_COMPLETE (R132, R133). -/
def execCommandComplete (t : Fin 256) (e : Engine) (s : State) : Host.Outcome State Fault Refusal :=
  .next (s.completeCommand t e)

end Sys2Proof.Machine
end

