-- ==== Sys2Proof/Machine/Matrix.lean ====
section
/-! DEFINITION. The matrix engine (chapter 6): modes and pitches, products into the accumulator banks, sliced FP64, and the out-tray. -/

namespace Sys2Proof.Machine

/-- One operand of a command: the element codes and the scale bytes of its 128 lines. -/
structure Operand where
  elems : List (List Nat)
  scales : List (List Nat)
  deriving DecidableEq, Repr

/-- Arithmetic mode of MX.SETM (Table 6.3). -/
def matrixMode (m : MatrixSt) : AMode :=
  { rnd := bitsOf m.mode 83 3, ftz := m.mode.getLsbD 82, srbits := bitsOf m.mode 77 5 }

/-- Draw of rounding step `g`, counted from the command's first, in cell (r, c) (R198). -/
def cellDraw (m : MatrixSt) (a : AMode) (r c g : Nat) : Nat :=
  if a.sr then nthDraw (m.gens.getD c 0) a.srbits (128 * (m.steps + g) + r) else 0

/-- Word type of a bank (Table 6.1). -/
def wordTy (m : MatrixSt) : WordTy :=
  match pathOf (bitsOf m.mode 91 5) with
  | .sliced => .fp64
  | .integer => .int32
  | _ => .fp32

/-- One product of a chunk: the words of a bank after it, with the flush of a result and of an input (R191 to R197). -/
def chunkProduct (m : MatrixSt) (acc : List Nat) (x y : Operand) : List Nat × Bool × Bool :=
  let a := matrixMode m
  let fa := bitsOf m.mode 91 5
  let fb := bitsOf m.mode 86 5
  let cells := (x.elems.zip x.scales).zipIdx.flatMap fun row => (y.elems.zip y.scales).zipIdx.map fun col =>
    cellRun fa fb a (cellDraw m a row.2 col.2) (acc.getD (row.2 * 128 + col.2) 0) row.1.1 col.1.1 row.1.2 col.1.2
  (cells.map (·.1), cells.any (·.2.1), cells.any (·.2.2))

/-- A code flushed as it is read. -/
def flushRead (ftz : Bool) (xs : List (List Nat)) : Bool := xs.any fun l => l.any fun c => (readF fp64 ftz c).2

/-- The accumulators of a sliced product after a chunk (R203, R204), and which of them have taken a nonzero term. -/
def slicedProduct (m : MatrixSt) (acc : List Int) (live : List Bool) (x y : Operand) : List Int × List Bool :=
  let ftz := (matrixMode m).ftz
  let digits (ls : List (List Nat)) (es : List Expo) : List (List (List Int)) :=
    ls.zipIdx.map fun p => p.1.map fun c => digitsOf (readF fp64 ftz c).1 (es.getD p.2 {}).exp
  let dx := digits x.elems m.rows
  let dy := digits y.elems m.cols
  let cells := dx.zipIdx.flatMap fun row => dy.zipIdx.map fun col =>
    let ks := row.1.zip col.1
    let n := row.2 * 128 + col.2
    (wrap128 (acc.getD n 0 + ks.foldl (fun n p => n + slicedTerm p.1 p.2) 0), live.getD n false || ks.any fun p => slicedLive p.1 p.2)
  (cells.map (·.1), cells.map (·.2))

/-- The special elements after a chunk (R207). -/
def specialProduct (m : MatrixSt) (old : AMap FV) (x y : Operand) : AMap FV :=
  let ftz := (matrixMode m).ftz
  x.elems.zipIdx.foldl (fun acc row => y.elems.zipIdx.foldl (fun acc col =>
    if (m.rows.getD row.2 {}).special || (m.cols.getD col.2 {}).special then
      let k := row.2 * 128 + col.2
      let v := specialSum ftz row.1 col.1
      AMap.put acc k (match AMap.get? old k with
        | some o => addF false o v
        | none => v)
    else acc) acc) old

/-- The rounded results of a sliced product, with a flush (R205, R207). -/
def slicedWords (m : MatrixSt) : List Nat × Bool :=
  let a := matrixMode m
  let rs := (List.range (128 * 128)).map fun k =>
    let d := cellDraw m a (k / 128) (k % 128) 0
    match AMap.get? m.special k with
    | some v => encodeF fp64 a d v
    | none => slicedResult a d (m.acc64.getD k 0) (m.live64.getD k false) (m.rows.getD (k / 128) {}).exp (m.cols.getD (k % 128) {}).exp
  (rs.map (·.1), rs.any (·.2))

namespace State

def onMatrix (s : State) (t : Nat) (f : MatrixSt → MatrixSt) : State := s.onTile t fun x => { x with matrix := f x.matrix }

/-- An operand in the scratchpad (R188): lines from `sp` at the pitch in SETP bits from `lo`, scales from `sc` at that from `slo`. -/
def operandAt (s : State) (t : Nat) (m : MatrixSt) (fmt kc sp lo sc slo : Nat) : Operand :=
  { elems := (s.operandLines m sp lo 0).map fun r => s.spElems t r.1 fmt kc
    scales := (List.range 128).map fun r => if fmtMx fmt then s.spScales t (sc + r * bitsOf m.pitch slo 16) (kc / 32) else [] }

/-- A bank's state and words. -/
def setBank (m : MatrixSt) (b : Nat) (x : Bank) : MatrixSt := { m with banks := m.banks.set b x }

/-- MX.MMA on the paths of one bank. -/
def mmaBank (s : State) (t : Nat) (d : BitVec 128) (m : MatrixSt) (x y : Operand) : State :=
  let b := bitsOf d 44 2
  let kc := (modeKc m).getD 128
  let acc := if d.getLsbD 43 then [] else (bankOf m b).words
  let (ws, fr, fi) := chunkProduct m acc x y
  let st : BankSt := if d.getLsbD 42 then .closing else .accum
  let s := s.onMatrix t fun n =>
    let n := setBank n b { st := st, words := ws }
    { n with
      -- integer additions are exact, and no rounding steps (R196, R198)
      steps := if pathOf (bitsOf m.mode 91 5) = .integer then n.steps else n.steps + kc / (pathOf (bitsOf m.mode 91 5)).step
      closing := if d.getLsbD 42 then n.closing ++ [{ bank := b, ty := wordTy m, tag := bitsOf d 24 8 }] else n.closing }
  (s.setFlushed t 0 fr).setFlushed t 3 fi

/-- MX.MMA on FP64 operands (R204, R205, R207). -/
def mmaSliced (s : State) (t : Nat) (d : BitVec 128) (m : MatrixSt) (x y : Operand) : State :=
  let zero := d.getLsbD 43
  let fi := flushRead (matrixMode m).ftz x.elems || flushRead (matrixMode m).ftz y.elems
  let sums := slicedProduct m (if zero then [] else m.acc64) (if zero then [] else m.live64) x y
  let m1 : MatrixSt := { m with acc64 := sums.1, live64 := sums.2
                                special := specialProduct m (if zero then [] else m.special) x y }
  let s := s.setFlushed t 3 fi
  if d.getLsbD 42 then
    let (ws, fr) := slicedWords m1
    (s.onMatrix t fun _ => { m1 with
      acc64 := [], live64 := [], special := [], steps := m1.steps + 1
      banks := { st := .close64, words := ws } :: List.replicate 3 { st := .close64 }
      closing := m1.closing ++ [{ bank := 0, ty := .fp64, tag := bitsOf d 24 8 }] }).setFlushed t 0 fr
  else s.onMatrix t fun _ => { m1 with banks := List.replicate 4 { st := .acc64 } }

/-- MX.MMA starts (R188, R212). -/
def mma (s : State) (t : Nat) (d : BitVec 128) : State :=
  let m := (s.tile t).matrix
  let read (s : State) : State := s.spOperand t (s.mmaRanges m d)
  let kc := (modeKc m).getD 128
  let y := s.operandAt t m (bitsOf m.mode 86 5) kc (bitsOf d 92 18) 96 (bitsOf d 46 23) 64
  if modeSliced m then
    -- every earlier MX.EXP has completed
    if (s.tile t).mx.started.any fun c => cmdOp c.1 == 4 then s
    else ((read s).mmaSliced t d m (s.operandAt t m 0 kc (bitsOf d 110 18) 112 0 80) y).popHead t .matrix true
  else if d.getLsbD 41 then
    match m.inTray.zipIdx.find? fun p => !p.1.used with
    | some (i, n) =>
      let tray := m.inTray.zipIdx.map fun p => if p.2 = n then { p.1 with used := true } else p.1
      let scales := if i.scales.isEmpty then List.replicate 128 [] else i.scales
      (((read s).onMatrix t fun n => { n with inTray := tray }).mmaBank t d m { elems := i.elems, scales := scales } y).popHead t .matrix true
    | none => s
  else ((read s).mmaBank t d m (s.operandAt t m (bitsOf m.mode 91 5) kc (bitsOf d 110 18) 112 (bitsOf d 69 23) 80) y).popHead t .matrix true

/-- MX.EXP (R202). -/
def mxExponents (s : State) (t : Nat) (d : BitVec 128) : State :=
  let m := (s.tile t).matrix
  let ftz := (matrixMode m).ftz
  let a := (s.operandAt t m 0 128 (bitsOf d 110 18) 112 0 80).elems
  let b := (s.operandAt t m 0 128 (bitsOf d 92 18) 96 0 64).elems
  let start (xs : List Expo) (i : Nat) : Expo := if d.getLsbD 91 then {} else xs.getD i {}
  let take (xs : List Expo) (ls : List (List Nat)) : List Expo := ls.zipIdx.map fun p => (start xs p.2).take ftz p.1
  (((s.spOperand t (s.expRanges m d)).onMatrix t fun n => { n with rows := take n.rows a, cols := take n.cols b }).setFlushed t 3
    (flushRead ftz a || flushRead ftz b)).popHead t .matrix true

/-- The last write of the oldest DONE command lands: its bank passes to the out-tray (Table 6.10, R211). -/
def trayEntry (s : State) (t : Nat) : State :=
  match (s.tile t).matrix.closing with
  | e :: rest =>
    s.onMatrix t fun m =>
      let moved (i : Nat) (b : Bank) : Bank :=
        if e.ty = .fp64 then (if i < 2 then { b with st := .tray } else {}) else if i = e.bank then { b with st := .tray } else b
      { m with closing := rest, tray := m.tray ++ [e], banks := m.banks.zipIdx.map fun p => moved p.2 p.1 }
  | [] => s

end State

/-! ## Rows -/

/-- MX_SETM (R189, R190, R198). -/
def execMxSetm (t : Fin 256) (s : State) : Host.Outcome State Fault Refusal :=
  .next (s.startHead t .matrix 1 fun d s =>
    let s := s.onMatrix t fun m => { m with mode := d, modeValid := true }
    let s := if d.getLsbD 76 then
        let g := (List.range 128).map fun c => s.openLane t 0 c (bitsOf d 96 32)
        s.onMatrix t fun m => { m with gens := g, steps := 0 }
      else s
    s.popHead t .matrix true)

/-- MX_SETP (R189, R190). -/
def execMxSetp (t : Fin 256) (s : State) : Host.Outcome State Fault Refusal :=
  .next (s.startHead t .matrix 2 fun d s => (s.onMatrix t fun m => { m with pitch := d, pitchValid := true }).popHead t .matrix true)

/-- MX_MMA (R185 to R201, R203 to R212). -/
def execMxMma (t : Fin 256) (s : State) : Host.Outcome State Fault Refusal :=
  .next (s.startHead t .matrix 3 fun d s => s.mma t d)

/-- MX_EXP (R202). -/
def execMxExp (t : Fin 256) (s : State) : Host.Outcome State Fault Refusal :=
  .next (s.startHead t .matrix 4 fun d s => s.mxExponents t d)

/-- OUT_TRAY_ENTRY (R205, R209, R211). -/
def execOutTrayEntry (t : Fin 256) (s : State) : Host.Outcome State Fault Refusal :=
  .next (s.trayEntry t)

end Sys2Proof.Machine
end

