-- ==== Sys2Proof/Machine/Vector.lean ====
section
/-! DEFINITION. The vector engine's commands (R213, R239 to R244): loading programs, stream settings, and runs. -/

namespace Sys2Proof.Machine

/-- What a run makes of its rows: the lanes' generators and FLUSHED with the summaries, the column accumulators, and for each row the
output's element codes and scale bytes. -/
structure RunOut where
  row : ChainRow := {}
  cols : List Nat := []
  out : List (List Nat × List Nat) := []
  deriving DecidableEq, Repr

/-- Summary entry (R236). -/
def summEntry (value index kind tag : Nat) : W64 :=
  BitVec.ofNat 64 (value % 2 ^ 32 + index % 8 * 2 ^ 32 + kind % 8 * 2 ^ 37 + tag % 2 ^ 8 * 2 ^ 40)

/-- The summary entries of a run in ascending index order (R235). -/
def runSummaries (p : List W64) (sums : AMap Nat) (tag : Nat) : List W64 :=
  (List.range 8).filterMap fun i =>
    (p.find? fun x => vOp x == 0x70 && vImm x % 8 == i).map fun x => summEntry (AMap.getD sums i (summStart (vMod x))) i (vMod x) tag

namespace State

def onVector (s : State) (t : Nat) (f : VectorSt → VectorSt) : State := s.onTile t fun x => { x with vector := f x.vector }

/-- The element codes and scales of row `r` of IN0 or IN1 (R239). -/
def streamRow (s : State) (t i r : Nat) : Nat × List Nat × List Nat :=
  let d := (s.stream? t i).getD 0
  let f := streamFmt d
  let a := 32 * bitsOf d 110 18 + r * (32 * bitsOf d 94 16)
  let sc := (s.stream? t 6).getD 0
  (f, s.spElems t a f 128, if fmtMx f then s.spScales t (32 * bitsOf sc 110 18 + r * bitsOf sc 94 16) 4 else [])

/-- A lane constant or a row scalar: one 32-bit element of stream `i` in FP32 or INT32. -/
def constAt (s : State) (t i n : Nat) : Nat :=
  leNat (s.spBytes t (32 * bitsOf ((s.stream? t i).getD 0) 110 18 + 4 * n) 4)

/-- One row passes the chain (R219 to R229, R231, R243). -/
def runRow (s : State) (t : Nat) (d : BitVec 128) (p : List W64) (a o : AMode) (bank : Option TrayEntry) (x : RunOut) (r : Nat) : RunOut :=
  let c : ChainRow := { x.row with wires := List.replicate 4 (List.replicate 128 0) }
  let flush (c : ChainRow) (reads : Bool) (i v : Nat) : Nat × ChainRow :=
    if reads && streamFmt ((s.stream? t i).getD 0) == 1 then
      let (vs, c) := enterRow 1 a [v] [] c
      (vs.headD v, c)
    else (v, c)
  let (f0, codes0, sc0) := match bank with
    | some b =>
      let ws := (bankOf (s.tile t).matrix b.bank).words
      ((match b.ty with | .fp64 => 0 | .int32 => 0x0B | .fp32 => 1), (ws.drop (128 * r)).take 128, [])
    | none => if programReads p 4 then s.streamRow t 0 r else (1, [], [])
  let (v0, c) := if programReads p 4 then enterRow f0 a codes0 sc0 c else ([], c)
  let (n0, c) := narrowRow a (f0 == 0 && programReads32 p 4) v0 c
  let (f1, codes1, _) := if programReads p 5 then s.streamRow t 1 r else (1, [], [])
  let (v1, c) := if programReads p 5 then enterRow f1 a codes1 [] c else ([], c)
  let (n1, c) := narrowRow a (f1 == 0 && programReads32 p 5) v1 c
  let (rs, c) := flush c (programReads p 8) 2 (if programReads p 8 then s.constAt t 2 r else 0)
  let const (i : Nat) (reads : Bool) (c : ChainRow) : List Nat × ChainRow :=
    if !reads then ([], c)
    else
      let vs := (List.range 128).map fun l => s.constAt t i l
      if streamFmt ((s.stream? t i).getD 0) = 1 then enterRow 1 a vs [] c else (vs, c)
  let (k0, c) := const 3 (programReads p 6) c
  let (k1, c) := const 4 (programReads p 7) c
  let env : ChainEnv := { in0 := v0, in1 := v1, wide0 := f0 == 0, wide1 := f1 == 0, in0r := n0, in1r := n1, k0 := k0, k1 := k1
                          rs := rs, row := r, ucrev := s.get Reg.TRL_UCREV.UCREV }
  let c := p.foldl (fun c i => chainStep a env c i) c
  let w := bitsOf d 55 2
  let ty := bitsOf d 53 2
  let vs := if ty = 2 then src64 env c 0 (w / 2 * 2) else src32 env c 0 w
  let (codes, scs, c) := leaveRow (streamFmt ((s.stream? t 5).getD 0)) ty o vs c
  let (cols, c) := if bitsOf d 61 3 = 0 then (x.cols, c) else colAdd (bitsOf d 61 3) a x.cols (c.wires.getD (bitsOf d 59 2) []) c
  { row := c, cols := cols, out := x.out ++ [(codes, scs)] }

/-- The output of a run goes to the scratchpad (R239). -/
def putRows (s : State) (t : Nat) (out : List (List Nat × List Nat)) : State :=
  let d := (s.stream? t 5).getD 0
  let sc := (s.stream? t 7).getD 0
  let f := streamFmt d
  let bytes (xs : List Nat) : List (Option Byte) := (leBytes (16 * fmtBits f) (pack (fmtBits f) xs)).map some
  out.zipIdx.foldl (fun (s : State) p =>
    let s := s.spPut t (32 * bitsOf d 110 18 + p.2 * (32 * bitsOf d 94 16)) (bytes p.1.1)
    if fmtMx f then
      s.spPut t (32 * bitsOf sc 110 18 + p.2 * bitsOf sc 94 16) (p.1.2.map fun b => some (BitVec.ofNat 8 b))
    else s) s

/-- The in-tray slot that a run fills (R242). -/
def traySlot (s : State) (t lsel : Nat) (out : List (List Nat × List Nat)) : InSlot :=
  let f := streamFmt ((s.stream? t 5).getD 0)
  let kc := trayKc f out.length
  let row (q : Nat) : List Nat × List Nat :=
    if kc = 256 then
      let x := out.getD (2 * q) ([], [])
      let y := out.getD (2 * q + 1) ([], [])
      (x.1 ++ y.1, x.2 ++ y.2)
    else
      let x := out.getD q ([], [])
      ((x.1.drop (lsel * kc)).take kc, (x.2.drop (lsel * kc / 32)).take (kc / 32))
  let rows := (List.range 128).map row
  { fmt := f, kc := kc, elems := rows.map (·.1), scales := if fmtMx f then rows.map (·.2) else [] }

/-- The out-tray's head is released: its bank becomes FREE (R241, Table 6.10). -/
def releaseHead (s : State) (t : Nat) : State :=
  s.onMatrix t fun m => match m.tray with
    | e :: rest =>
      { m with tray := rest
               banks := m.banks.zipIdx.map fun p => if p.2 = e.bank || (e.ty == .fp64 && p.2 < 2) then {} else p.1 }
    | [] => m

/-- VE.RUN starts: every row's result is made; RELEASE, the reserved in-tray slot and the summaries to push are kept for its end. -/
def startRun (s : State) (t : Nat) (d : BitVec 128) : State :=
  let v := (s.tile t).vector
  let slot := bitsOf d 125 3
  let p := AMap.getD v.programs slot []
  let a : AMode := { rnd := bitsOf d 107 3, ftz := d.getLsbD 102, srbits := bitsOf d 97 5 }
  let o : AMode := { rnd := bitsOf d 104 3, sat := d.getLsbD 103, ftz := d.getLsbD 102, srbits := bitsOf d 97 5 }
  let gens := if d.getLsbD 96 then (List.range 128).map fun l => s.openLane t 1 l (bitsOf d 64 32)
    else (List.range 128).map fun l => v.gens.getD l 0
  let bank := if d.getLsbD 112 then (s.tile t).matrix.tray.head? else none
  let colOp := bitsOf d 61 3
  let start : RunOut := { row := { gens := gens }, cols := if d.getLsbD 58 then v.cols else List.replicate 128 (colStart colOp) }
  let x := (List.range (bitsOf d 113 12 + 1)).foldl (s.runRow t d p a o bank) start
  let s := (s.spOperand t (s.runRanges t d (s.runInputs t d p))).setFlushed t 1 x.row.flushed
  let run : RunSt := { tag := bitsOf d 24 8, slot := slot, summaries := runSummaries p x.row.sums (bitsOf d 24 8), toTray := d.getLsbD 111 }
  let s := s.onVector t fun v => { v with
    gens := x.row.gens, colOp := colOp, cols := if colOp = 0 then [] else x.cols, runs := v.runs ++ [run] }
  let s := if d.getLsbD 112 && d.getLsbD 110 then s.releaseHead t else s
  let s := if d.getLsbD 111 then
      let i := s.traySlot t (bitsOf d 32 3) x.out
      s.onMatrix t fun m => { m with inTray := m.inTray ++ [i] }
    else s.putRows t x.out
  let s := if d.getLsbD 57 then
      -- invalid accumulators hold no stated value (R233, Log 3)
      let (bs, s) := s.orFree (if colOp = 0 then List.replicate 512 none else (x.cols.flatMap fun w => leBytes 4 w).map some)
      s.spPut t (32 * bitsOf d 35 18) (bs.map some)
    else s
  s.popHead t .vector false

/-- The first entry of a list that is not complete becomes complete. -/
def markDone : List (BitVec 128 × Bool) → List (BitVec 128 × Bool)
  | [] => []
  | (d, false) :: rest => (d, true) :: rest
  | x :: rest => x :: markDone rest

/-- The oldest run ends: its summaries are pushed, and its in-tray slot is full (R235, R242). -/
def endRun (s : State) (t : Nat) : State :=
  match (s.tile t).vector.runs with
  | r :: rest =>
    let s := s.onTile t fun x => { x with fifo := x.fifo ++ r.summaries, vector := { x.vector with runs := rest } }
    let s := if r.toTray then
        s.onMatrix t fun m => { m with
          inTray := match m.inTray.findIdx? fun i => !i.full with
            | some k => m.inTray.zipIdx.map fun p => if p.2 = k then { p.1 with full := true } else p.1
            | none => m.inTray }
      else s
    (s.onEngine t .vector fun e => { e with started := markDone e.started }).coreProgress t
  | [] => s

end State

/-! ## Rows -/

/-- VE_LOADP (R223, R238, R240). -/
def execVeLoadp (t : Fin 256) (s : State) : Host.Outcome State Fault Refusal :=
  .next (s.startHead t .vector 1 fun d s =>
    let slot := bitsOf d 107 3
    if (s.tile t).vector.runs.any fun r => r.slot == slot then s
    else
      let a := 32 * bitsOf d 110 18
      let p := (List.range (bitsOf d 101 6 + 1)).map fun i => BitVec.ofNat 64 (leNat (s.spBytes t (a + 8 * i) 8))
      ((s.spOperand t [(a, 8 * p.length)]).onVector t fun v => { v with programs := AMap.put v.programs slot p }).popHead t .vector true)

/-- VE_SETIN (R238, R239). -/
def execVeSetin (t : Fin 256) (s : State) : Host.Outcome State Fault Refusal :=
  .next (s.startHead t .vector 2 fun d s =>
    (s.onVector t fun v => { v with streams := AMap.put v.streams (bitsOf d 86 3) d }).popHead t .vector true)

/-- VE_RUN (R213 to R234, R237, R241 to R244). -/
def execVeRun (t : Fin 256) (s : State) : Host.Outcome State Fault Refusal :=
  .next (s.startHead t .vector 3 fun d s => s.startRun t d)

/-- VE_RUN_END (R235, R236, R242). -/
def execVeRunEnd (t : Fin 256) (s : State) : Host.Outcome State Fault Refusal :=
  .next (s.endRun t)

end Sys2Proof.Machine
end

