-- ==== Sys2Proof/Machine/ChainRuns.lean ====
section
/-! DEFINITION. What tile microcode makes of a job's data (chapters 3 and 8): the products of a work unit, the runs of chain stages with
their row and lane limits, row statistics, finish programs and the conversion to FMTD. Pure functions on values that have been read. -/

namespace Sys2Proof.Machine

/-- A program of `n` instructions from its bytes. -/
def progOf (v n : Nat) : List W64 := (List.range n).map fun i => BitVec.ofNat 64 (at_ v (8 * i) 8)

/-- A stage or finish program is invalid (R258). -/
def chainProgBad (p : List W64) : Bool := programBad p || p.any fun i => vOp i == 0x70

/-! ## Products -/

/-- Settings of the matrix engine for a job (R198, R228): RNE and the job's FTZ. -/
def jobMatrix (fa fb : Nat) (ftz : Bool) : MatrixSt :=
  { mode := BitVec.ofNat 128 (fa * 2 ^ 91 + fb * 2 ^ 86 + (if ftz then 2 ^ 82 else 0)), modeValid := true }

/-- The elements of a line and its scale bytes, completed with zeros to `pad` elements (R99). -/
def lineElems (fmt n pad v : Nat) : List Nat := (List.range pad).map fun i => if i < n then packed v i (fmtBits fmt) else 0

def lineScales (fmt n pad v : Nat) : List Nat :=
  if fmtMx fmt then (List.range (pad / 32)).map fun i => if i < (n + 31) / 32 then packed v i 8 else 0 else []

/-- 128 lines of an operand from the numbers read for the valid ones. -/
def operandOf (fmt n pad : Nat) (vs scs : List Nat) : Operand :=
  { elems := (List.range 128).map fun r => if r < vs.length then lineElems fmt n pad (vs.getD r 0) else List.replicate pad 0
    scales := (List.range 128).map fun r =>
      if r < vs.length then lineScales fmt n pad (scs.getD r 0) else if fmtMx fmt then List.replicate (pad / 32) 0 else [] }

/-- The accumulated words of a unit's K range, with the flush of a result and of an input (R191 to R208). -/
def unitWords (fa fb : Nat) (ftz : Bool) (x y : Operand) : List Nat × Bool × Bool :=
  let m := jobMatrix fa fb ftz
  if pathOf fa = .sliced then
    let m : MatrixSt := { m with
      rows := x.elems.map fun l => ({} : Expo).take ftz l
      cols := y.elems.map fun l => ({} : Expo).take ftz l }
    let sums := slicedProduct m [] [] x y
    let m : MatrixSt := { m with acc64 := sums.1, live64 := sums.2, special := specialProduct m [] x y }
    let (ws, fr) := slicedWords m
    (ws, fr, flushRead ftz x.elems || flushRead ftz y.elems)
  else chunkProduct m (List.replicate 16384 0) x y

/-- Type of a bank's words: 0 FP32, 1 INT32, 2 FP64. -/
def bankTy (fa : Nat) : Nat :=
  match pathOf fa with
  | .sliced => 2
  | .integer => 1
  | _ => 0

/-- The partial words of range r added to those before (R102, R208); integer partials add modulo 2^32. -/
def addRange (ty : Nat) (ftz : Bool) (xs ys : List Nat) : List Nat × Bool :=
  let rs := (xs.zip ys).map fun p =>
    if ty = 1 then ((p.1 + p.2) % 2 ^ 32, false)
    else
      let f := if ty = 2 then fp64 else fp32
      encodeF f { ftz := ftz } 0 (addF false (decodeF f p.1) (decodeF f p.2))
  (rs.map (·.1), rs.any (·.2))

/-- The bits that the conversion takes for an element with its addend. -/
def withAddend (ty fmtd : Nat) (o : AMode) (w c : Nat) : Nat :=
  match ty, elemOf fmtd with
  | 1, some (.int n) => intCode 32 (intOf 32 w + intOf n c)
  | _, _ => (Config.addend ty fmtd w c o.rnd o.ftz).toNat % 2 ^ (if ty = 2 then 64 else 32)

/-- The conversion of an output tile's words to FMTD (R228): element codes and scales of the 128 rows. `cs` holds the addends. -/
def convertTile (ty fmtd : Nat) (o : AMode) (gens : List W64) (ws : List Nat) (cs : Option (List (List Nat))) :
    List (List Nat × List Nat) × ChainRow :=
  (List.range 128).foldl (fun (acc : List (List Nat × List Nat) × ChainRow) r =>
    let row := (ws.drop (128 * r)).take 128
    let row := match cs with
      | some cs => row.zipIdx.map fun p => withAddend ty fmtd o p.1 ((cs.getD r []).getD p.2 0)
      | none => row
    let (codes, scs, c) := leaveRow fmtd ty o row acc.2
    (acc.1 ++ [(codes, scs)], c)) ([], { gens := gens })

/-! ## Stages -/

/-- The sources of a stage's run beside IN0: lane vectors K0 and K1, AUX elements and ledger values by row. -/
structure Extra where
  k0 : List Nat := []
  k1 : List Nat := []
  aux : List (List Nat) := []
  rs : List Nat := []
  deriving DecidableEq, Repr

/-- Rows in a chain run: lane limit, and whether it lies below M (R255). -/
structure RowLim where
  lim : Nat := 128
  valid : Bool := true
  deriving DecidableEq, Repr

/-- What a run of stages has made: rows with their format, lane 0 of the four wires of each row, generators and FLUSHED. -/
structure StageOut where
  fmt : Nat
  rows : List (List Nat × List Nat)
  lane0 : List (List Nat) := []
  gens : List W64 := []
  flushed : Bool := false
  deriving DecidableEq, Repr

/-- One row of a stage's run (R251, R254, R255). -/
def stageRow (ucrev : Nat) (st : Stage) (p : List W64) (x : Extra) (l : RowLim) (fmt0 r : Nat) (codes scs : List Nat) (c : ChainRow) :
    (List Nat × List Nat) × List Nat × ChainRow :=
  let a : AMode := { rnd := st.arnd, ftz := st.ftz, srbits := st.srbits }
  let o : AMode := { rnd := st.ornd, sat := st.sat, ftz := st.ftz, srbits := st.srbits }
  let lim := min l.lim 128
  let keep (xs : List Nat) : List Nat := lanes128 fun i => if i < lim && l.valid then xs.getD i 0 else 0
  let c : ChainRow := { c with wires := List.replicate 4 (List.replicate 128 0) }
  let (v0, c) := enterRow fmt0 a (keep codes) scs c
  let v0 := keep v0
  let (n0, c) := narrowRow a (fmt0 == 0 && programReads32 p 4) v0 c
  let f1 := if st.aux = 0 then 1 else st.auxfmt
  let (v1, c) := enterRow f1 a (keep (x.aux.getD r [])) [] c
  let v1 := keep v1
  let (n1, c) := narrowRow a (f1 == 0 && programReads32 p 5) v1 c
  let const (xs : List Nat) (c : ChainRow) : List Nat × ChainRow :=
    enterRow 1 a (lanes128 fun i => if i < lim then xs.getD i 0 else 0) [] c
  let (k0, c) := const x.k0 c
  let (k1, c) := const x.k1 c
  let (rs, c) := enterRow 1 a [if l.valid then x.rs.getD r 0 else 0] [] c
  let env : ChainEnv := { in0 := v0, in1 := v1, wide0 := fmt0 == 0, wide1 := f1 == 0, in0r := n0, in1r := n1, k0 := k0, k1 := k1
                          rs := rs.headD 0, row := r, ucrev := ucrev, lim := lim }
  let c := p.foldl (fun c i => chainStep a env c i) c
  let vs := if st.outty = 2 then src64 env c 0 (st.outw / 2 * 2) else src32 env c 0 st.outw
  let (out, sc, c) := leaveRow st.ifmt st.outty o (vs.zipIdx.map fun v => if v.2 < lim then v.1 else 0) c
  ((out, sc), c.wires.map fun w => w.headD 0, c)

/-- One stage's run; under SR it opens stream STREAM + u (R256). -/
def stageRun (ucrev u : Nat) (opens : Nat → List W64) (ls : List RowLim) (x : StageOut) (s : Stage × List W64 × Extra) : StageOut :=
  let (st, p, e) := s
  let gens := if st.arnd = 5 ∨ st.ornd = 5 then opens ((st.stream + u) % 2 ^ 32) else x.gens
  let start : StageOut × ChainRow := ({ fmt := st.ifmt, rows := [] }, { gens := gens, flushed := x.flushed })
  let (y, c) := (x.rows.zip ls).zipIdx.foldl (fun (acc : StageOut × ChainRow) r =>
    let (row, l0, c) := stageRow ucrev st p e r.1.2 x.fmt r.2 r.1.1.1 r.1.1.2 acc.2
    ({ acc.1 with rows := acc.1.rows ++ [row], lane0 := acc.1.lane0 ++ [l0] }, c)) start
  { y with gens := c.gens, flushed := c.flushed }

/-- Stages one after another (R251). -/
def stagesRun (ucrev u : Nat) (opens : Nat → List W64) (ls : List RowLim) (x : StageOut) (ss : List (Stage × List W64 × Extra)) : StageOut :=
  ss.foldl (stageRun ucrev u opens ls) x

/-- The rows of a stored bank or tile as they enter stage 0 of an epilogue. -/
def bankRows (ws : List Nat) : List (List Nat × List Nat) := (List.range 128).map fun r => ((ws.drop (128 * r)).take 128, [])

/-- Format code of a bank's words. -/
def tyFmt (ty : Nat) : Nat := match ty with
  | 1 => 0x0B
  | 2 => 0
  | _ => 1

/-! ## Ledger -/

/-- The fold of a strip's partials in ascending column order (R260): LOP 1 SUM, 2 MAX, 3 MIN, 4 AMAX as in COLOP. -/
def foldPartials (lop : Nat) (ps : List (List Nat)) : List Nat :=
  (ps.foldl (fun (acc : List Nat × ChainRow) p => colAdd lop {} acc.1 p acc.2) (lanes128 fun _ => colStart lop, {})).1

/-- A finish program's run of one row (R262). -/
def finishRun (ucrev fmode : Nat) (p : List W64) (l0 l1 : List Nat) : List Nat × Bool :=
  let st : Stage := { ifmt := 1, arnd := fmode % 8, ornd := fmode % 8, ftz := fmode / 8 % 2 == 1, aux := 1, auxfmt := 1 }
  let (row, _, c) := stageRow ucrev st p { aux := [l1] } {} 1 0 l0 [] {}
  (row.1, c.flushed)

end Sys2Proof.Machine
end

