-- ==== Sys2Proof/Machine/Gemm.lean ====
section
/-! DEFINITION. GEMM, GGEMM and CHAIN parts on a tile (chapters 3 and 8): work units, split-K, the row ledger, and the closing pass. One
command runs one unit, one home fold, or one held tile of a closing pass; a command whose memory ranges wait for a page fault or for an
outbound read moves no byte and is made again (Log 36). -/

namespace Sys2Proof.Machine

/-- A range of `n` elements of `bits` bits from element `k0` of row `row`. -/
def rowSpan (base pitch row k0 n bits : Nat) : Nat × Nat := (base + row * pitch + k0 * bits / 8, (n * bits + 7) / 8)

/-- What a command reads: the numbers of its ranges by group, and whether a byte could not be read. -/
structure ReadSet where
  groups : List (List Nat)
  missing : Bool := false
  loss : State.Loss := {}
  deriving DecidableEq, Repr

/-- Row and lane limits of an epilogue's rows (R255). -/
def OutTile.lims (o : OutTile) : List RowLim := (List.range 128).map fun r => { lim := o.cols, valid := r < o.rows }

/-- Program ranges of a chain: its stages and its finish programs (R258). -/
def chainProgs (c : Chain) : List (Nat × Nat) :=
  c.stages.map (fun s => (s.prog, 8 * s.count)) ++ (if c.f0 = 0 then [] else [(c.f0, 8 * c.f0n)])
    ++ (if c.f1 = 0 then [] else [(c.f1, 8 * c.f1n)])

def chainCounts (c : Chain) : List Nat :=
  c.stages.map (·.count) ++ (if c.f0 = 0 then [] else [c.f0n]) ++ (if c.f1 = 0 then [] else [c.f1n])

/-- The four groups of ranges that a stage reads beside IN0: K0, K1, AUX, ledger rows (R254). -/
def extraSpans (c : Chain) (st : Stage) (k0 n auxBase ld0 : Nat) (rows : List Nat) : List (List (Nat × Nat)) :=
  [if st.k0 = 0 then [] else [(st.k0 + 4 * k0, 4 * n)], if st.k1 = 0 then [] else [(st.k1 + 4 * k0, 4 * n)],
   if st.aux = 0 then [] else rows.map fun r => rowSpan (st.aux + auxBase) st.ldaux r k0 n (fmtBits st.auxfmt),
   if st.rssel = 0 then [] else rows.map fun r => (c.ledger + 8 * (ld0 + r), 8)]

/-- What a stage's groups hold. -/
def extraOf (st : Stage) (n : Nat) (gs : List (List Nat)) : Extra :=
  let vec (g : List Nat) : List Nat := match g with
    | v :: _ => (List.range n).map fun i => at_ v (4 * i) 4
    | [] => []
  { k0 := vec (gs.getD 0 []), k1 := vec (gs.getD 1 [])
    aux := (gs.getD 2 []).map fun v => lineElems st.auxfmt n n v
    rs := (gs.getD 3 []).map fun v => at_ v (4 * (st.rssel - 1)) 4 }

/-- An element vector from element `k` on. -/
def Extra.from (x : Extra) (k : Nat) (h : Nat) : Extra :=
  let twice (xs : List Nat) : List Nat := if h = 2 then xs.flatMap fun v => [v, v] else xs
  { k0 := x.k0.drop k, k1 := x.k1.drop k
    aux := if h = 2 then x.aux.flatMap fun r => [r.drop k, r.drop (k + 128)] else x.aux.map fun r => r.drop k
    rs := twice x.rs }

/-- The MX scales of an output tile are written beside D: an epilogue gives D an MX format (R252). -/
def outScaled (j : Job) : Bool := j.epilogue.isSome && fmtMx j.p.fmtd

/-- The first address and the bytes of the rows of an output tile in D (R99, R251), and of its MX scales (R252). -/
def outSpans (j : Job) (o : OutTile) : List (Nat × Nat) :=
  o.rowNos.map (fun r => rowSpan o.pr.d j.p.ldd r (128 * o.col) o.cols (fmtBits j.p.fmtd))
    ++ (if outScaled j then
      o.rowNos.map fun r => ((j.epilogue.getD {}).sd + (o.pr.row + r) * ((o.pr.n + 31) / 32) + 4 * o.col, (o.cols + 31) / 32)
      else [])

/-- The bytes of `outSpans` for the rows of a tile; the bits above the last element of a row are zero (Log 112). -/
def outBytes (j : Job) (o : OutTile) (rows : List (List Nat × List Nat)) : List (List Byte) :=
  let b := fmtBits j.p.fmtd
  let rs := rows.take o.rows
  rs.map (fun r => leBytes ((o.cols * b + 7) / 8) (pack b (r.1.take o.cols)))
    ++ (if outScaled j then rs.map fun r => leBytes ((o.cols + 31) / 32) (pack 8 r.2) else [])

/-- A stage's run would be malformed: it puts out FP64, or takes it in, with a program that has no FP64 instruction (R244, R251). -/
def stagesBad : Nat → List (Stage × List W64 × Extra) → Bool
  | _, [] => false
  | fmt0, (st, p, _) :: rest => ((st.outty == 2 || fmt0 == 0) && !programWide p) || stagesBad st.ifmt rest

namespace State

/-- Reads the ranges of a command by group. -/
def readGroups (s : State) (who : Who) : List (List (Option (List Piece) × Nat)) → ReadSet × State
  | [] => ({ groups := [] }, s)
  | g :: rest =>
    let (vs, m, l, s) := g.foldl (fun (acc : List Nat × Bool × Loss × State) x =>
      let (vs, m, l, s) := acc
      match x.1 with
      | some ps =>
        let (bs, l', s) := s.readPieces 1 who ps
        let (b, s) := s.orFree bs
        (vs ++ [leNat b], m || bs.any Option.isNone, { dropped := l.dropped + l'.dropped, errs := l.errs + l'.errs }, s)
      | none =>
        let s := s.rowLimit who x.2
        let (b, s) := s.orFree (List.replicate x.2 none)
        (vs ++ [leNat b], true, l, s)) ([], false, {}, s)
    let (r, s) := s.readGroups who rest
    ({ groups := vs :: r.groups, missing := m || r.missing,
       loss := { dropped := l.dropped + r.loss.dropped, errs := l.errs + r.loss.errs } }, s)

/-- Splits a list into groups of the given lengths. -/
def regroup {α : Type} : List Nat → List α → List (List α)
  | [], _ => []
  | n :: ns, xs => xs.take n :: regroup ns (xs.drop n)

/-- Bytes written to ranges that have been translated; a range outside its limits is a limit violation of its row (R383). -/
def writeRanges (s : State) (wr : Who) (ws : List (Option (List Piece) × Nat)) (out : List (List Byte)) : State :=
  (ws.zip out).foldl (fun (s : State) x =>
    match x.1.1 with
    | some ps =>
      let (l, s) := s.writePieces wr ps (x.2.map some)
      s.addLoss wr.queue wr.seq l
    | none => s.rowLimit wr x.1.2) s

/-- Makes a command's accesses: every range is translated, and every outbound read answered, before a byte moves. `k` is given what was
read and answers the bytes of the written ranges, or no bytes; the command is done, or has to be made again. -/
def transact (s : State) (t : Nat) (reads : List (List (Nat × Nat))) (writes : List (Nat × Nat))
    (k : ReadSet → State → List (List Byte) × State) : Bool × State :=
  let rd := s.tileWho t (.fill t)
  let wr := s.tileWho t (.store t)
  match s.spanPieces rd false reads.flatten with
  | (none, s) => (false, s)
  | (some ps, s) =>
    match s.spanPieces wr true writes with
    | (none, s) => (false, s)
    | (some ws, s) =>
      let all := ps.flatMap fun p => p.getD []
      if !s.portsReady rd all then (false, s.askPorts rd all)
      else
        let (r, s) := s.readGroups rd (regroup (reads.map List.length) (ps.zip (reads.flatten.map (·.2))))
        let (out, s) := k r s
        (true, ((s.writeRanges wr (ws.zip (writes.map (·.2))) out).resumeDone rd.w).resumeDone wr.w)

/-- Lanes opened for the vector engine by stream. -/
def vectorLanes (s : State) (t stream : Nat) : List W64 := (List.range 128).map fun l => s.openLane t 1 l stream

/-- The vector engine's lanes after microcode's runs. -/
def keepLanes (s : State) (t : Nat) (gens : List W64) : State := s.onVector t fun v => { v with gens := gens }

def lanesOf (s : State) (t : Nat) : List W64 := (List.range 128).map fun l => (s.tile t).vector.gens.getD l 0

/-- A job's chain programs are invalid: the part ends, and the job completes with 0x10 (R258). -/
def badPrograms (s : State) (f : Flight) : State :=
  (s.abortFlight f.queue f.seq 0x10).onFlight f.queue f.seq fun x => { x with badProg := true }

/-- Position of a tile in its job's set, and its share of the units (R101). -/
def shareOf (_ : State) (f : Flight) (t : Nat) : Nat × Nat := f.shareOf t

/-- The tile that holds an output tile of a job with a ledger (R264). -/
def holderOf (_ : State) (f : Flight) (num : Nat) : Option Part := f.holderOf num

/-- Strips that have an output tile on `t`. -/
def stripsOf (_ : State) (f : Flight) (t : Nat) : List Nat := f.stripsOf t

/-- The part ends where its units, folds and closing passes are done; else it waits for posts once its units are done (R266, R272). -/
def jobProgress (s : State) (t : Nat) : State :=
  match s.running t with
  | none => s
  | some f =>
    let c := (s.tile t).chain
    if (s.tile t).mode != .normal then s
    else if f.badProg then s.endPart t
    else if c.next < (s.shareOf f t).2 then s
    else if ledgerMode f.job = 0
        || (c.held.isEmpty && (s.stripsOf f t).all fun k => (AMap.get? f.strips k).isSome && s.ledgerAcked f k none) then
      s.endPart t
    else s.onTile t fun x => { x with chain := { x.chain with waiting := true } }

/-- A job whose programs are invalid ends on every tile at once (R258). -/
def endInvalid (s : State) (q seq : Nat) : State :=
  match s.flight? q seq with
  | some f =>
    if f.badProg then
      f.parts.foldl (fun (s : State) p =>
        if (s.running p.tile).any fun x => x.queue == q && x.seq == seq then s.jobProgress p.tile else s) s
    else s
  | none => s

/-! ## A work unit -/

/-- The stages of a chain with their programs and what they read. -/
def stagesWith (c : Chain) (progs : List Nat) (n : Nat) (gs : List (List Nat)) : List (Stage × List W64 × Extra) :=
  c.stages.zipIdx.map fun x => (x.1, progOf (progs.getD x.2 0) x.1.count, extraOf x.1 n ((gs.drop (4 * x.2)).take 4))

/-- The A operand that a prologue makes for a K range (R251, R255 to R257): chunk by chunk through the stages into the in-tray's form. -/
def prologueOperand (s : State) (t : Nat) (j : Job) (o : OutTile) (kc ks kr : Nat) (vs scs : List Nat)
    (ss : List (Stage × List W64 × Extra)) : Operand × StageOut :=
  let fa := j.p.fmta
  let h := if kc = 256 then 2 else 1
  let w := min kc 128
  let chunks := (kr + kc - 1) / kc
  let lines := vs.map fun v => lineElems fa kr (chunks * kc) v
  let scls := scs.map fun v => lineScales fa kr (chunks * kc) v
  let run (acc : List (List (List Nat × List Nat)) × StageOut) (i : Nat) : List (List (List Nat × List Nat)) × StageOut :=
    let rows := (List.range (128 * h)).map fun r =>
      let k := i * kc + 128 * (r % h)
      (((lines.getD (r / h) []).drop k).take w, ((scls.getD (r / h) []).drop (k / 32)).take 4)
    let lims : List RowLim := (List.range (128 * h)).map fun r =>
      { lim := min w (kr - (i * kc + 128 * (r % h))), valid := r / h < o.rows }
    let u := o.no * ((o.pr.k + kc - 1) / kc) + (ks / kc + i)
    let out := stagesRun (s.get Reg.TRL_UCREV.UCREV) u (s.vectorLanes t) lims { acc.2 with fmt := fa, rows := rows }
      (ss.map fun x => (x.1, x.2.1, x.2.2.from (i * kc) h))
    (acc.1 ++ [out.rows], out)
  let (chs, out) := (List.range chunks).foldl run ([], { fmt := fa, rows := [], gens := s.lanesOf t })
  let row (r : Nat) : List Nat × List Nat :=
    let parts := chs.flatMap fun c => (List.range h).map fun q => c.getD (r * h + q) ([], [])
    (parts.flatMap fun p => p.1.take w, parts.flatMap fun p => p.2.take (w / 32))
  let rows := (List.range 128).map row
  let mx := fmtMx ((j.prologue.getD {}).lastFmt)
  ({ elems := rows.map (·.1), scales := rows.map fun r => if mx then r.2 else [] }, out)

/-- What remains of a tile's rows once their records or output have been made. -/
structure TileEnd where
  /-- Bytes of the written ranges. -/
  bytes : List (List Byte)
  held : Option (List (List Nat × List Nat)) := none
  deriving DecidableEq, Repr

/-- The end of an output tile: the conversion to FMTD, or the epilogue with its statistics (R102, R228, R251, R259, R265). -/
def finishTile (s : State) (t : Nat) (f : Flight) (o : OutTile) (words : List Nat) (cs : List Nat)
    (ss : List (Stage × List W64 × Extra)) (x0 : StageOut) : TileEnd × State :=
  let j := f.job
  let fa := match j.prologue with
    | some c => c.lastFmt
    | none => j.p.fmta
  let ty := bankTy fa
  match j.epilogue with
  | none =>
    let add := if j.p.acc then
        some ((List.range 128).map fun r =>
          if r < cs.length then lineElems j.p.fmtd o.cols o.cols (cs.getD r 0) else [])
      else none
    let (rows, c) := convertTile ty j.p.fmtd j.p.mode (s.vectorLanes t ((j.p.stream + o.num) % 2 ^ 32)) words add
    ({ bytes := outBytes j o rows }, (s.setFlushed t 1 c.flushed).keepLanes t c.gens)
  | some c =>
    let x0 : StageOut := if j.chain then x0 else { fmt := tyFmt ty, rows := bankRows words, gens := s.lanesOf t }
    let mid := stagesRun (s.get Reg.TRL_UCREV.UCREV) o.num (s.vectorLanes t) o.lims x0 (ss.take c.split)
    let stat (b : Nat) : List Byte := mid.lane0.flatMap fun l => leBytes 4 (l.getD (b % 4) 0)
    let recs := if c.lmode = 0 then [] else [stat c.stat0] ++ (if c.nstat = 2 then [stat c.stat1] else [])
    if c.lmode = 1 then
      ({ bytes := recs, held := some mid.rows }, (s.setFlushed t 1 mid.flushed).keepLanes t mid.gens)
    else
      -- without CLOSE, SPLIT is NSTAGE
      ({ bytes := recs ++ outBytes j o mid.rows }, (s.setFlushed t 1 mid.flushed).keepLanes t mid.gens)

/-- Ranges that the end of an output tile writes: its record, and D unless in CLOSE mode (R261, R265, R267). -/
def endSpans (j : Job) (o : OutTile) : List (Nat × Nat) :=
  let recs := match j.epilogue with
    | some c =>
      if c.lmode = 0 then []
      else [(c.lstage + 1024 * o.num, 512)] ++ (if c.nstat = 2 then [(c.lstage + 1024 * o.num + 512, 512)] else [])
    | none => []
  recs ++ (if ledgerMode j = 1 then [] else outSpans j o)

/-- The stores of a command that left for a port, by their numbers: the post that follows waits for them (R264). -/
def ledgerStores (s0 s : State) (f : Flight) (t strip : Nat) (col : Option Nat) : State :=
  if s0.order.nextId = s.order.nextId then s
  else s.onFlight f.queue f.seq fun x => { x with
    acks := x.acks ++ [{ strip := strip, col := col, tile := t, first := s0.order.nextId, before := s.order.nextId }] }

/-- The record of an output tile is written; its post to the strip's home tile is made once it is acknowledged (R264). -/
def postRecord (s : State) (f : Flight) (o : OutTile) : State :=
  s.onFlight f.queue f.seq fun x => { x with posted := x.posted ++ [(o.no, o.col)] }

/-- Work unit `u` of a job runs on tile `t`; the answer says whether it is done. -/
def runUnit (s : State) (t : Nat) (f : Flight) (u : Nat) : Bool × State :=
  let j := f.job
  let n := j.ranges
  match outTile j (u / n) with
  | none => (true, s)
  | some o =>
    let (ks, ke) := kRange o.pr.k n (u % n)
    let kr := ke - ks
    let pro := j.prologue.getD {}
    let epi := j.epilogue.getD {}
    let fa := if j.prologue.isSome then pro.lastFmt else j.p.fmta
    let kc := (pairKc fa j.p.fmtb).getD 128
    let pad := (kr + kc - 1) / kc * kc
    let before := f.partials.filter fun p => p.1 / n == u / n
    let last := before.length + 1 == n
    let rows (base ld bits : Nat) (rs : List Nat) : List (Nat × Nat) := rs.map fun r => rowSpan base ld r ks kr bits
    let scls (base fmt : Nat) (rs : List Nat) : List (Nat × Nat) :=
      if fmtMx fmt then rs.map fun r => (base + r * ((o.pr.k + 31) / 32) + ks / 32, (kr + 31) / 32) else []
    let input : List (List (Nat × Nat)) :=
      if j.chain then
        [o.rowNos.map fun r => rowSpan o.pr.a j.p.lda r (128 * o.col) o.cols (fmtBits j.p.fmta),
         if fmtMx j.p.fmta then o.rowNos.map fun r => (o.pr.sa + r * ((o.pr.n + 31) / 32) + 4 * o.col, (o.cols + 31) / 32) else [], [], []]
      else [rows o.pr.a j.p.lda (fmtBits j.p.fmta) o.rowNos, scls o.pr.sa j.p.fmta o.rowNos,
            rows o.pr.b j.p.ldb (fmtBits j.p.fmtb) o.colNos, scls o.pr.sb j.p.fmtb o.colNos]
    let proX := pro.stages.flatMap fun st => extraSpans pro st ks kr o.pr.auxA o.pr.row o.rowNos
    let epiX := if last then
        epi.stages.flatMap fun st => extraSpans epi st (128 * o.col) o.cols o.pr.auxD o.pr.row o.rowNos
      else []
    let addC := if last && j.p.acc then
        o.rowNos.map fun r => rowSpan o.pr.c j.p.ldd r (128 * o.col) o.cols (fmtBits j.p.fmtd)
      else []
    let reads := [chainProgs pro ++ chainProgs epi] ++ input ++ proX ++ [addC] ++ epiX
    let (done, s') := s.transact t reads (if last then endSpans j o else []) fun r s =>
      let s := s.addLoss f.queue f.seq r.loss
      let g (i : Nat) : List Nat := r.groups.getD i []
      let counts := chainCounts pro ++ chainCounts epi
      if ((g 0).zip counts).any fun p => chainProgBad (progOf p.1 p.2) then ([], s.badPrograms f)
      else
        let np := pro.stages.length
        let nprog := (chainProgs pro).length
        let proS := stagesWith pro (g 0) kr ((r.groups.drop 5).take (4 * np))
        let epiS := stagesWith epi ((g 0).drop nprog) o.cols (r.groups.drop (6 + 4 * np))
        if stagesBad j.p.fmta proS
            || (last && stagesBad (if j.chain then j.p.fmta else tyFmt (bankTy fa)) (epiS.take epi.split)) then
          -- the run is malformed (R136, R244)
          ([], s.fatalTrap t)
        else
          let x0 : StageOut :=
            { fmt := j.p.fmta, gens := s.lanesOf t
              rows := (List.range 128).map fun i =>
                (lineElems j.p.fmta o.cols 128 ((g 1).getD i 0), lineScales j.p.fmta o.cols 128 ((g 2).getD i 0)) }
          let (words, s) :=
            if j.chain then ([], s)
            else
              let (x, s) := if j.prologue.isSome then
                  let (x, out) := s.prologueOperand t j o kc ks kr (g 1) (g 2) proS
                  (x, (s.setFlushed t 1 out.flushed).keepLanes t out.gens)
                else (operandOf fa kr pad (g 1) (g 2), s)
              let y := operandOf j.p.fmtb kr pad (g 3) (g 4)
              let (ws, fr, fi) := unitWords fa j.p.fmtb j.p.mode.ftz x y
              (ws, (s.setFlushed t 0 fr).setFlushed t 3 fi)
          if !last then
            ([], s.onFlight f.queue f.seq fun x => { x with partials := AMap.put x.partials u words })
          else
            let ranges := (List.range n).map fun q =>
              if q = u % n then words else AMap.getD before (u / n * n + q) []
            let (sum, fl) := (ranges.drop 1).foldl (fun (acc : List Nat × Bool) ws =>
              let x := addRange (bankTy fa) j.p.mode.ftz acc.1 ws
              (x.1, acc.2 || x.2)) (ranges.headD [], false)
            let s := s.setFlushed t 1 fl
            let s := s.onFlight f.queue f.seq fun x => { x with partials := x.partials.filter fun p => p.1 / n != u / n }
            let (e, s) := s.finishTile t f o sum (r.groups.getD (5 + 4 * np) []) epiS x0
            let s := match e.held with
              | some rows => s.onTile t fun x => { x with chain := { x.chain with held := AMap.put x.chain.held o.num rows } }
              | none => s
            (e.bytes, if ledgerMode j = 0 then s else s.postRecord f o)
    (done, if done && ledgerMode j ≠ 0 then ledgerStores s s' f t o.no (some o.col) else s')

/-- A GEMM, GGEMM or CHAIN row: the part at the head starts, or the running one goes on with its next unit, once no fold or closing pass
that it can run is left (R266). -/
def jobStep (s : State) (t op : Nat) : State :=
  let s := s.beginPart t op fun _ s => s.onTile t fun x => { x with chain := {} }
  match s.running t with
  | none => s
  | some f =>
    if opOf f.desc ≠ op || (s.tile t).mode != .normal then s
    else
      let (a, n) := s.shareOf f t
      let i := (s.tile t).chain.next
      if n ≤ i || f.badProg then s.jobProgress t
      else if s.ledgerDue f t then s
      else
        match s.runUnit t f (a + i) with
        | (true, s) =>
          ((s.onTile t fun x => { x with chain := { x.chain with next := x.chain.next + 1 } }).jobProgress t).endInvalid f.queue f.seq
        | (false, s) => s

/-! ## The row ledger -/

/-- Every tile that holds an output tile of a strip takes the home's post, once the entries are acknowledged (R264); none where the
ledger cannot complete (R272), whose loss is counted when the job's parts have ended. -/
def postLedger (s : State) (f : Flight) (strip : Nat) (v : Option (List Nat)) : State :=
  s.onFlight f.queue f.seq fun x => { x with strips := AMap.put x.strips strip v }

/-- A wait for a post has ended; the next one counts anew (R130, R272). -/
def postTaken (s : State) (t : Nat) : State := s.onCore t fun c => { c with waitTicks := 0 }

/-- The entries of a strip's ledger from its records and finish programs (R260, R262): R0 and R1 of each row, and a flush. -/
def ledgerEntries (c : Chain) (ucrev : Nat) (r : ReadSet) : List Nat × List Nat × Bool :=
  let part (i : Nat) : List (List Nat) := (r.groups.getD i []).map fun v => lanes128 fun m => at_ v (4 * m) 4
  let l0 := foldPartials (c.stat0 / 4 % 8) (part 0)
  let l1 := if c.nstat = 2 then foldPartials (c.stat1 / 4 % 8) (part 1) else lanes128 fun _ => 0
  let fs := r.groups.getD 2 []
  let p0 := progOf (fs.getD 0 0) c.f0n
  let p1 := progOf (fs.getD (if c.f0 = 0 then 0 else 1) 0) c.f1n
  let (r0, b0) := if c.f0 = 0 then (l0, false) else finishRun ucrev c.fmode p0 l0 l1
  let (r1, b1) := if c.f1 = 0 then (l1, false) else finishRun ucrev c.fmode p1 l0 l1
  (r0, r1, b0 || b1)

/-- What the home fold of a strip reads: the partials of its tiles' records, and the finish programs (R260, R262). -/
def foldReads (c : Chain) (os : List OutTile) : List (List (Nat × Nat)) :=
  let stats (b : Nat) : List (Nat × Nat) := os.map fun o => (c.lstage + 1024 * o.num + b, 512)
  [stats 0, if c.nstat = 2 then stats 512 else [],
   (if c.f0 = 0 then [] else [(c.f0, 8 * c.f0n)]) ++ (if c.f1 = 0 then [] else [(c.f1, 8 * c.f1n)])]

/-- Where a strip's entries lie, eight bytes a row (R263). -/
def entrySpans (c : Chain) (o : OutTile) : List (Nat × Nat) := o.rowNos.map fun r => (c.ledger + 8 * (o.pr.row + r), 8)

/-- The home fold of a strip (R260, R262 to R264, R272). -/
def homeFold (s : State) (t strip : Nat) : State :=
  match s.running t with
  | none => s
  | some f =>
    let j := f.job
    let os := stripTiles j strip
    match j.epilogue, os.getLast? with
    | some c, some lastO =>
      if (s.tile t).mode != .normal || !s.foldDue f t strip then s
      else if recordsLost f strip then ((s.postLedger f strip none).postTaken t).jobProgress t
      else
        let (done, s') := s.transact t (foldReads c os) (entrySpans c lastO) fun r s =>
          if r.missing then
            ([], (s.addLoss f.queue f.seq { errs := r.loss.errs }).postLedger f strip none)
          else
            let (r0, r1, fl) := ledgerEntries c (s.get Reg.TRL_UCREV.UCREV) r
            let es := (List.range 128).flatMap fun m => [r0.getD m 0, r1.getD m 0]
            ((List.range lastO.rows).map fun m => leBytes 4 (r0.getD m 0) ++ leBytes 4 (r1.getD m 0),
             (s.setFlushed t 1 fl).postLedger f strip (some es))
        if done then ((ledgerStores s s' f t strip none).postTaken t).jobProgress t else s'
    | _, _ => s

/-- What the closing pass of a held tile reads: the programs of the stages after SPLIT, and what they read beside IN0 and the ledger. -/
def closeReads (c : Chain) (o : OutTile) : List (List (Nat × Nat)) :=
  let rest := c.stages.drop c.split
  rest.map (fun st => (st.prog, 8 * st.count)) :: rest.flatMap fun st =>
    extraSpans c { st with rssel := 0 } (128 * o.col) o.cols o.pr.auxD o.pr.row o.rowNos

/-- The stages after SPLIT with what they read; RS is the strip's entries `es`. -/
def closeStages (c : Chain) (o : OutTile) (es : List Nat) (gs : List (List Nat)) : List (Stage × List W64 × Extra) :=
  (c.stages.drop c.split).zipIdx.map fun p =>
    (p.1, progOf ((gs.headD []).getD p.2 0) p.1.count,
     { extraOf p.1 o.cols ((gs.drop (1 + 4 * p.2)).take 4) with
       rs := if p.1.rssel = 0 then [] else (List.range 128).map fun m => es.getD (2 * m + (p.1.rssel - 1)) 0 })

/-- The format that the stages before SPLIT leave. -/
def heldFmt (c : Chain) : Nat := (c.stages.getD (c.split - 1) {}).ifmt

/-- The closing pass of one held tile of a strip (R265), or its loss with the strip's ledger (R272). -/
def closingPass (s : State) (t strip : Nat) : State :=
  match s.running t with
  | none => s
  | some f =>
    let j := f.job
    let x := (s.tile t).chain
    let drop (s : State) (n : Nat) : State :=
      (s.onTile t fun x => { x with chain := { x.chain with held := AMap.erase x.chain.held n } }).postTaken t
    let os := stripTiles j strip
    match j.epilogue with
    | none => s
    | some c =>
      if (s.tile t).mode != .normal || !(s.stripsOf f t).contains strip then s
      else if !s.closeDue f t strip then s.jobProgress t
      else
        match AMap.get? f.strips strip with
        | none => ((s.postLedger f strip none).postTaken t).jobProgress t
        | some v =>
          match os.find? fun o => (AMap.get? x.held o.num).isSome with
          | none => s.jobProgress t
          | some o =>
            let rows := AMap.getD x.held o.num []
            match v with
            | none => (drop s o.num).jobProgress t
            | some es =>
              let (done, s) := s.transact t (closeReads c o) (outSpans j o) fun r s =>
                let s := s.addLoss f.queue f.seq r.loss
                let ss := closeStages c o es r.groups
                if stagesBad (heldFmt c) ss then ([], s.fatalTrap t)
                else
                  let x0 : StageOut := { fmt := heldFmt c, rows := rows, gens := s.lanesOf t }
                  -- the stages keep their numbers, and so their streams
                  let out := stagesRun (s.get Reg.TRL_UCREV.UCREV) o.num (s.vectorLanes t) o.lims x0 ss
                  (outBytes j o out.rows, (s.setFlushed t 1 out.flushed).keepLanes t out.gens)
              if done then (drop s o.num).jobProgress t else s

end State

/-! ## Rows -/

/-- GEMM (R98 to R102, R228, R251 to R259). -/
def execGemm (t : Fin 256) (s : State) : Host.Outcome State Fault Refusal := .next (s.jobStep t 0x12)

/-- GGEMM (R103). -/
def execGgemm (t : Fin 256) (s : State) : Host.Outcome State Fault Refusal := .next (s.jobStep t 0x13)

/-- CHAIN (R250). -/
def execChain (t : Fin 256) (s : State) : Host.Outcome State Fault Refusal := .next (s.jobStep t 0x14)

/-- LEDGER_HOME_FOLD (R264). -/
def execLedgerHomeFold (t : Fin 256) (strip : Nat) (s : State) : Host.Outcome State Fault Refusal := .next (s.homeFold t strip)

/-- CLOSING_PASS (R265, R266). -/
def execClosingPass (t : Fin 256) (strip : Nat) (s : State) : Host.Outcome State Fault Refusal := .next (s.closingPass t strip)

end Sys2Proof.Machine
end

