-- ==== Sys2Proof/Machine/Threads.lean ====
section
/-! DEFINITION. Thread-group execution (chapter 9): kernels and blocks, Xflsgrp, barriers, and the memory accesses of threads. A command of
an instruction is its issue by the group's issuing set; where an access waits for a page fault or for a line, nothing of the
instruction is done, and it is issued again (R310, Log 32). -/

namespace Sys2Proof.Machine

/-- Encodings for TVAL (Table 9.5): the R, I and S layouts of RISC-V. -/
def encR (opcode f3 f7 : Nat) (rd rs1 rs2 : BitVec 5) : Nat :=
  opcode + rd.toNat * 2 ^ 7 + f3 * 2 ^ 12 + rs1.toNat * 2 ^ 15 + rs2.toNat * 2 ^ 20 + f7 * 2 ^ 25
def encI (opcode f3 : Nat) (rd rs1 : BitVec 5) (imm : BitVec 12) : Nat :=
  opcode + rd.toNat * 2 ^ 7 + f3 * 2 ^ 12 + rs1.toNat * 2 ^ 15 + imm.toNat * 2 ^ 20
def encS (opcode f3 : Nat) (rs1 rs2 : BitVec 5) (imm : BitVec 12) : Nat :=
  opcode + imm.toNat % 2 ^ 5 * 2 ^ 7 + f3 * 2 ^ 12 + rs1.toNat * 2 ^ 15 + rs2.toNat * 2 ^ 20 + imm.toNat / 2 ^ 5 * 2 ^ 25

def custom2 : Nat := 0x5B
def custom3 : Nat := 0x7B

def sizeCode : MemSize → Nat
  | .b => 0 | .h => 1 | .w => 2 | .d => 3

/-- funct5 of an AMO. -/
def amoCode : AmoOp → Nat
  | .add => 0 | .swap => 1 | .xor => 4 | .or => 8 | .and => 12 | .min => 16 | .max => 20 | .minu => 24 | .maxu => 28

/-- Register of a lane; x0 reads as zero. -/
def laneReg (l : Lane) (r : BitVec 5) : W64 := if r = 0 then 0 else AMap.getD l.x r.toNat 0

def setLaneReg (l : Lane) (r : Nat) (v : W64) : Lane := if r % 32 = 0 then l else { l with x := AMap.put l.x (r % 32) v }

/-- The instruction retires in a lane. -/
def laneRetire (l : Lane) : Lane := { l with pc := l.pc + 4, retired := l.retired + 1, waitTicks := 0 }

/-- A lane is released from its barrier. -/
def laneRelease (l : Lane) : Lane := { l with wait := none, pc := l.pc + 4, retired := l.retired + 1, waitTicks := 0 }

/-- Reservation key of a local byte: local memory is no line of the physical space. -/
def localKey (t sp : Nat) : Nat := 2 ^ 50 + t * 2 ^ 16 + sp / 128

/-- Lanes of a group changed by number. -/
def mapLanes (g : Group) (f : Nat → Lane → Lane) : Group := { g with lanes := g.lanes.zipIdx.map fun p => f p.2 p.1 }

/-- Local slots a kernel has (R293), and how many blocks it keeps resident (R292). -/
def localSlots (k : Kernel) : Nat := if kLocal k = 0 then 16 else 512 / kLocal k

def residentLimit (k : Kernel) : Nat :=
  let g := kGpb k
  let w := if kRegs32 k then 2 else 1
  let bmax := kfield k 44 1 % 32
  min (min (min (min 16 (64 / (g * w))) (48 / g)) (if kLocal k = 0 then 16 else 512 / kLocal k)) (if bmax = 0 then 16 else bmax)

/-- The pipeline that takes a group (R294). -/
def pickPipe (gs : List Group) : Nat :=
  let used (p : Nat) : Nat := (gs.filter fun g => g.pipe == p).length
  [1, 2, 3].foldl (fun best p => if used p < used best then p else best) 0

/-- The GSYNC lanes of a group that are released together (R301): the largest set whose masks name only it and exited lanes. -/
def syncSet (g : Group) : List Nat :=
  let lane (i : Nat) : Lane := g.lanes.getD i {}
  let out (i : Nat) : Bool := (lane i).exited
  let waits := (List.range 32).filter fun i => (lane i).wait == some 16
  (List.range 32).foldl (fun (w : List Nat) _ =>
    w.filter fun i => (List.range 32).all fun j => !((lane i).mask.testBit j) || w.contains j || out j) waits

namespace State

/-- Local window: the scratchpad byte that a virtual address reaches (R304). -/
def localByte (k : Kernel) (block va : Nat) : Option (Option Nat) :=
  let lwin := kfield k 24 8
  if va < lwin || lwin + 2 ^ 21 ≤ va then none
  else
    let off := va - lwin
    let slot := match k.blocks.find? fun b => b.num == block with
      | some b => b.slot
      | none => 0
    some (if off < kLocal k * 4096 then some (0x600000 + slot * kLocal k * 4096 + off) else none)

/-! ## Kernels and blocks -/

/-- A kernel starts on a tile: its L1 is empty (R287, R291). -/
def startKernel (s : State) (t : Nat) (body : BitVec 384) (pos n : Nat) (launched : Bool) (done : Option Nat) : State :=
  let blocks := bitsOf body 128 32
  let (a, c) := if launched then (0, blocks) else share blocks n pos
  s.onTile t fun x => { x with
    kernel := some { body := body, done := done, launched := launched, index := pos, next := a, stop := a + c } }

/-- Every block of the kernel has ended, and its stores have been acknowledged or discarded (R291). -/
def kernelOver (s : State) (t : Nat) (k : Kernel) : Bool :=
  k.stop ≤ k.next && k.blocks.isEmpty && k.trapped.isNone && !(s.order.out.any fun x => match x.unit with
    | .thread t' _ _ => t' == t && x.write
    | _ => false)

/-- A block starts (R284, R287, R288, R293, R294). -/
def startBlock (s : State) (t : Nat) : State :=
  match (s.tile t).kernel with
  | none => s
  | some k =>
    if (s.tile t).mode != .normal || k.trapped.isSome || k.stop ≤ k.next || residentLimit k ≤ k.blocks.length then s
    else
      let b := k.next
      let slot := ((List.range (localSlots k)).find? fun i => !(k.blocks.any fun x => x.slot == i)).getD 0
      let gpb := kGpb k
      let lane (g l : Nat) : Lane :=
        let regs := [(10, kfield k 8 8), (11, b), (12, 32 * g + l), (13, 32 * gpb), (14, k.index), (15, kfield k 16 4)]
        { x := regs.map fun r => (r.1, BitVec.ofNat 64 r.2), pc := BitVec.ofNat 64 (kfield k 0 8)
          gen := s.openLane t 2 (32 * (g % 4) + l) ((kfield k 40 4 + 8 * b + g / 4) % 2 ^ 32) }
      let groups := (List.range gpb).foldl (fun (gs : List Group) g =>
        gs ++ [{ block := b, g := g, pipe := pickPipe gs, lanes := (List.range 32).map (lane g) }]) k.groups
      s.onKernel t fun k => { k with next := b + 1, blocks := k.blocks ++ [{ num := b, slot := slot }], groups := groups }

/-! ## Barriers -/

/-- Barrier `b` of a block releases where every thread has arrived or exited (R299). -/
def releaseBar (s : State) (t block b : Nat) : State :=
  s.onKernel t fun k =>
    let mates := k.groups.filter fun g => g.block == block
    let exited := mates.foldl (fun n g => n + (g.lanes.filter fun l => l.exited).length) 0
    match k.blocks.find? fun x => x.num == block with
    | some x =>
      let n := x.counts.getD b 0
      if n ≠ 0 && n + exited = 32 * kGpb k then
        { k with
          blocks := k.blocks.map fun y => if y.num == block then { y with counts := y.counts.set b 0 } else y
          groups := k.groups.map fun g =>
            if g.block == block then mapLanes g fun _ l => if l.wait = some b then laneRelease l else l else g }
      else k
    | none => k

/-- The GSYNC lanes of a group that can go on do so (R301). -/
def releaseSync (s : State) (t b g : Nat) : State :=
  s.onGroup t b g fun x =>
    let w := syncSet x
    mapLanes x fun i l => if w.contains i then laneRelease l else l

/-- A block whose threads have all exited ends; its groups and its slot become free (R291, R293). -/
def endBlock (s : State) (t block : Nat) : State :=
  s.onKernel t fun k =>
    if k.groups.all fun g => g.block != block || g.lanes.all fun l => l.exited then
      { k with blocks := k.blocks.filter (fun b => b.num != block), groups := k.groups.filter fun g => g.block != block }
    else k

/-- A group traps whose waiting lanes can never be released (R302). A halted group is tested after STEP or RESUME only (R314). BARID is
that of one of its waiting lanes, and the manual does not say of which (Log 3). -/
def mismatch (s : State) (t b g : Nat) : State :=
  match s.group? t b g with
  | some (_, x) =>
    let bars := (x.lanes.filterMap (·.wait)).eraseDups
    if !(x.halted && x.stepAt.isNone) && !(x.lanes.any laneRunnable) && !(x.lanes.all fun l => l.exited) && 2 ≤ bars.length then
      let (n, s) := s.draw 5
      s.threadTrap t b g 6 bars[n % bars.length]? 0 (lowestPc (x.lanes.filter fun l => !l.exited)) 0
    else s
  | none => s

/-- What an arrival or an exit of a group's lanes brings about: exits are counted first, then arrivals, then releases (R300). -/
def settleGroup (s : State) (t b g : Nat) : State :=
  let s := (List.range 16).foldl (fun (s : State) i => s.releaseBar t b i) s
  let s := (s.releaseSync t b g).endBlock t b
  s.mismatch t b g

/-! ## Issue -/

/-- The group can issue: it is resident and neither halted nor stalled, no load of it is outstanding, a lane is runnable, and the cycle
is not lost to throttling (R30, R495, R497). -/
def groupIssues (s : State) (t b g : Nat) : Option (Kernel × Group × List Nat) :=
  match s.group? t b g with
  | some (k, x) =>
    if (s.tile t).mode != .normal || s.throttled t || k.trapped.isSome || groupHeld x || s.stalled (.group t b g)
        || s.order.out.any (fun a => a.unit == .thread t b g && !a.write) || (issuing x).isEmpty then none
    else some (k, x, issuing x)
  | none => none

/-- A group issues an instruction that names registers `rs` and has encoding `enc`: `k` performs it for the issuing set. It is illegal
where it names a register that the kernel has not, or `bad` holds (R277, R280, R311). -/
def issueThread (s : State) (r : GroupRef) (rs : List (BitVec 5)) (enc : Nat) (bad : Bool)
    (k : Kernel → Group → List Nat → State → State) : State :=
  let t := r.tile.val
  let b := r.block.toNat
  let g := r.group.val
  match s.groupIssues t b g with
  | none => s
  | some (kn, x, ls) =>
    if bad || (!kRegs32 kn && rs.any fun n => 16 ≤ n.toNat) then
      s.threadTrap t b g 1 none (laneMask ls) (lowestPc (x.lanes.filter laneRunnable)) enc
    else k kn x ls s

/-- The lanes of the issuing set take values for `rd` and retire. -/
def writeLanes (s : State) (t b g : Nat) (ls : List Nat) (rd : BitVec 5) (v : Nat → W64) : State :=
  s.onGroup t b g fun x => mapLanes x fun i l => if ls.contains i then laneRetire (setLaneReg l rd.toNat (v i)) else l

/-- A register-to-register instruction of the issuing set. -/
def laneOp (s : State) (r : GroupRef) (rd : BitVec 5) (rs : List (BitVec 5)) (enc : Nat)
    (f : Kernel → Group → List Nat → Nat → W64) : State :=
  s.issueThread r (rd :: rs) enc false fun k x ls s => s.writeLanes r.tile r.block.toNat r.group ls rd (f k x ls)

/-- SHFL (R281): `src` gives the source lane, which may lie outside 0 to 31. -/
def shfl (s : State) (r : GroupRef) (mm : Nat) (rd rs1 rs2 : BitVec 5) (src : Nat → Nat → Int) : State :=
  s.laneOp r rd [rs1, rs2] (encR custom2 0 mm rd rs1 rs2) fun _ x ls i =>
    let own := x.lanes.getD i {}
    let n := src i ((laneReg own rs2).toNat % 32)
    if 0 ≤ n && n < 32 && ls.contains n.toNat then laneReg (x.lanes.getD n.toNat {}) rs1 else laneReg own rs1

/-- Lanes of the issuing set whose x[rs1] is not zero. -/
def votes (x : Group) (ls : List Nat) (rs1 : BitVec 5) : List Nat := ls.filter fun i => laneReg (x.lanes.getD i {}) rs1 != 0

/-! ## Memory -/

/-- A store of the group is outstanding. -/
def groupStores (s : State) (t b g : Nat) : Bool := s.order.out.any fun a => a.unit == .thread t b g && a.write

/-- Where a lane's access goes. -/
inductive LaneTarget where
  | loc (sp : Nat)
  | mem (a eff : Nat)
  | device (off : Nat)
  | port (a eff : Nat)
  | host (bus eff : Nat)
  deriving DecidableEq, Repr

/-- The targets of every lane of an issuing set, by lane number with its virtual address; a wait, or the lane whose access traps, with
whether it is an uncorrectable read. -/
inductive LaneTargets where
  | all (ts : List (Nat × Nat × LaneTarget)) (s : State)
  | wait (s : State)
  | trap (lane va : Nat) (unc : Bool) (s : State)
  deriving DecidableEq, Repr

/-- The targets of the lanes' accesses of `n` bytes, in lane order (R304, R309). -/
def laneTargets (s : State) (t b g : Nat) (k : Kernel) (access n : Nat) : List (Nat × Nat) → LaneTargets
  | [] => .all [] s
  | (i, va) :: rest =>
    let next (x : LaneTarget) (s : State) : LaneTargets :=
      match s.laneTargets t b g k access n rest with
      | .all ts s => .all ((i, va, x) :: ts) s
      | r => r
    match localByte k b va with
    | some (some sp) => if va % n = 0 then next (.loc sp) s else .trap i va false s
    | some none => .trap i va false s
    | none =>
      match s.target (.thread t) (s.tileWho t (.group t b g)) va n access with
      | .wait s => .wait s
      | .trap s unc => .trap i va unc s
      | .mem s a eff => next (.mem a eff) s
      | .device s off _ => next (.device off) s
      | .port s a eff => next (.port a eff) s
      | .host s bus eff => next (.host bus eff) s

/-- The lines that an issuing set needs at its base-die L2 are there, with ownership where `own`; else their requests have left. `x` is
the access to a line. -/
def linesReady (s : State) (t : Nat) (ctx : Nat) (own : Bool) (x : Nat → Access) : List Nat → Bool × State
  | [] => (true, s)
  | line :: rest =>
    match s.l2Avail (s.dieOf t) line ctx own with
    | .wait s =>
      let (_, s) := (s.tries (x line)).linesReady t ctx own x rest
      (false, s)
    | _ => s.linesReady t ctx own x rest

/-- How one lane's access ends. -/
inductive LaneEnd where
  | ok (s : State)
  /-- Not yet. -/
  | wait
  | trap (unc : Bool) (s : State)
  deriving DecidableEq, Repr

/-- The L1 after a line has been read into it: 4 ways of 128 sets, the least recently used way of its set replaced (R305; Log 37). -/
def l1Take (l1 : List (Nat × Line)) (line : Nat) (l : Line) : List (Nat × Line) :=
  let set := l1.filter fun p => p.1 % 128 == line % 128 && p.1 != line
  let keep := set.take 3
  (line, l) :: l1.filter fun p => p.1 != line && (p.1 % 128 != line % 128 || keep.contains p)

/-- A lane's load has its value. -/
def laneLoaded (s : State) (t b g i : Nat) (rd : BitVec 5) (v n : Nat) (sext : Bool) : State :=
  s.onGroup t b g fun x => mapLanes x fun j l => if j = i then setLaneReg l rd.toNat (extend v n sext) else l

/-- A DEV access of the lane is outstanding (R408). -/
def laneBusy (s : State) (t b g i : Nat) : Bool := s.order.out.any fun x => x.unit == .thread t b g && x.dev && x.lane == i

/-- A lane's access as it leaves for a port. -/
def laneAccess (s : State) (t b g i va n ctx : Nat) (dev write : Bool) : Access :=
  { id := 0, unit := .thread t b g, write := write, dev := dev, addr := 0, bytes := n, lane := i, va := va, ctx := ctx
    desc := (s.running t).map fun f => (f.queue, f.seq) }

/-- One lane's load (R305, R306). -/
def laneLoad (s : State) (t b g : Nat) (rd : BitVec 5) (n : Nat) (sext : Bool) (ctx : Nat) (i va : Nat) (x : LaneTarget) : LaneEnd :=
  let done (s : State) (v : Nat) : LaneEnd := .ok (s.laneLoaded t b g i rd v n sext)
  let uncached (s : State) (a : Nat) : LaneEnd :=
    if s.granuleHeld a n then .wait
    else
    match s.readLine 0 ctx (a / 128) (agentOf (.group t b g)) with
    | (.data l, s) => done s (lineNat l (a % 128) n)
    | (.bad, s) => .trap true s
    | (_, s) => .trap false s
  let acc (dev : Bool) : Access := { s.laneAccess t b g i va n ctx dev false with rd := rd.toNat, sext := sext }
  match x with
  | .loc sp => if (s.spBadIn t [(sp, n)]).isEmpty then done s (leNat (s.spBytes t sp n)) else .trap true (s.spSpoilt t 1 0)
  | .mem a eff =>
    if eff = 0 then
      match (s.tile t).kernel.bind fun k => k.l1.find? fun p => p.1 == a / 128 with
      | some p => done (s.onKernel t fun k => { k with l1 := l1Take k.l1 p.1 p.2 }) (lineNat p.2 (a % 128) n)
      | none =>
        match s.l2Avail (s.dieOf t) (a / 128) ctx false with
        | .ready c => done (s.onKernel t fun k => { k with l1 := l1Take k.l1 (a / 128) c.data }) (lineNat c.data (a % 128) n)
        | .wait _ => .wait
        | .refused s => .trap false s
        | .spoiled s => .trap true s
    else if eff = 2 && s.laneBusy t b g i then .wait
    else uncached s a
  | .device off =>
    if s.laneBusy t b g i then .wait
    else
      match s.deviceRead (.core ⟨t % 256, Nat.mod_lt _ (by decide)⟩) off n with
      | (some v, s) => done s v
      | (none, s) => .trap false s
  | .port a eff =>
    if eff = 2 && s.laneBusy t b g i then .wait else .ok (s.issue { acc (eff == 2) with addr := a, tout := s.timeoutOf a false })
  | .host bus eff =>
    if eff = 2 && s.laneBusy t b g i then .wait
    else .ok (s.issue { acc (eff == 2) with addr := bus, host := some bus, tout := s.timeoutOf 0 true })

/-- A WB write of a lane at its base-die L2: other holders' reservations and the die's pocket copies go, and the tile's L1 copy takes
the bytes (R305, R404). -/
def laneWrite (s : State) (t b g i a n : Nat) (c : CLine) (v : W64) : State :=
  let line := a / 128
  let (d, m) := lineWith (a % 128) n v
  let own := match s.group? t b g with
    | some (_, x) => (x.lanes.getD i {}).resv
    | none => none
  let s := s.l2Put (s.dieOf t) line c (lineMerge c.data d m)
  let s := (s.breakReservations line none).dieInvalidate (s.dieOf t) line (some t)
  let s := s.onGroup t b g fun x => mapLanes x fun j l => if j = i then { l with resv := own } else l
  s.onKernel t fun k => { k with l1 := k.l1.map fun p => if p.1 = line then (line, lineMerge p.2 d m) else p }

/-- A write to local memory: reservations of other lanes on the granule go. -/
def localWrite (s : State) (t b g i sp n : Nat) (v : W64) : State :=
  let gran := localKey t sp
  let s := s.spPut t sp ((leBytes n v.toNat).map some)
  s.onKernel t fun k => { k with
    groups := k.groups.map fun x => mapLanes x fun j l =>
      if l.resv == some gran && !(x.block == b && x.g == g && j == i) then { l with resv := none } else l }

/-- One lane's store (R305). -/
def laneStore (s : State) (t b g n : Nat) (ctx : Nat) (i va : Nat) (x : LaneTarget) (v : W64) : LaneEnd :=
  let acc (dev : Bool) : Access := s.laneAccess t b g i va n ctx dev true
  let busy (eff : Nat) : Bool := eff == 2 && s.laneBusy t b g i
  match x with
  | .loc sp => .ok (s.localWrite t b g i sp n v)
  | .mem a eff =>
    if eff = 0 && s.storeGone (.thread t b g) (a / 128) then .ok s
    else if eff = 0 then
      match s.l2Avail (s.dieOf t) (a / 128) ctx true with
      | .ready c => .ok (s.laneWrite t b g i a n c v)
      | .wait _ => .wait
      | .refused s => .trap false s
      | .spoiled s => .trap true s
    else if busy eff then .wait
    else
      let (d, m) := lineWith (a % 128) n v
      if s.granuleHeld a n then .wait
      else
      match s.writeLine ctx (a / 128) d m (some t) false (agentOf (.group t b g)) with
      | (none, s) => .ok s
      | (some _, s) => .trap false s
  | .device off =>
    if s.laneBusy t b g i then .wait
    else
      match s.deviceWrite (.core ⟨t % 256, Nat.mod_lt _ (by decide)⟩) off n v.toNat with
      | (true, s) => .ok s
      | (false, s) => .trap false s
  | .port a eff => if busy eff then .wait else .ok (s.portStore (acc (eff == 2)) a (leBytes n v.toNat))
  | .host bus eff => if busy eff then .wait else .ok (s.hostStore (acc (eff == 2)) bus (leBytes n v.toNat))

/-- Performs the lanes' accesses one after another. -/
def eachLane (f : State → Nat → Nat → LaneTarget → LaneEnd) : State → List (Nat × Nat × LaneTarget) → Option (State × Option (Nat × Nat × Bool))
  | s, [] => some (s, none)
  | s, (i, va, x) :: rest =>
    match f s i va x with
    | .ok s => eachLane f s rest
    | .wait => none
    | .trap unc s => some (s, some (i, va, unc))

/-- A memory instruction of a group: `f` performs one lane's access, after every target has been found and every line is at hand. -/
def threadAccess (s : State) (r : GroupRef) (k : Kernel) (x : Group) (ls : List Nat) (access n : Nat) (own : Bool) (addr : Lane → Nat)
    (f : Nat → State → Nat → Nat → LaneTarget → LaneEnd) : State :=
  let t := r.tile.val
  let b := r.block.toNat
  let g := r.group.val
  let who := s.tileWho t (.group t b g)
  let pc := lowestPc (x.lanes.filter laneRunnable)
  let s := s.onGroup t b g fun y => { y with lastSet := laneMask ls }
  let trap (s : State) (va : Nat) (unc : Bool) : State := s.threadTrap t b g (if unc then 3 else 2) none (laneMask ls) pc va
  match s.laneTargets t b g k access n (ls.map fun i => (i, addr (x.lanes.getD i {}))) with
  | .wait s => s
  | .trap _ va unc s => trap s va unc
  | .all ts s =>
    let atomic := access.testBit 3
    let odd := ts.find? fun y => atomic && (match y.2.2 with
      | .mem _ eff => eff == 2
      | .loc _ => false
      | _ => true)
    match odd with
    | some y => trap s y.2.1 false
    | none =>
      let u : AccUnit := .thread t b g
      let write := access.testBit 1 && !atomic
      let need := ts.filterMap fun y => match y.2.2 with
        | .mem a eff => if (eff = 0 || atomic) && !(write && s.storeGone u (a / 128)) then some (a / 128) else none
        | _ => none
      -- the lanes' accesses to one line, as the timer test knows them
      let of (line : Nat) : Access :=
        let mine := ts.filter fun y => match y.2.2 with
          | .mem a _ => a / 128 == line
          | _ => false
        let i := (mine.head?.map fun y => (y.1, y.2.1)).getD (0, 0)
        { s.laneAccess t b g i.1 i.2 (n * mine.length) who.ctx false write with addr := line * 128 }
      match s.linesReady t who.ctx own of need.eraseDups with
      | (false, s) => s
      | (true, s) =>
        match eachLane (f who.ctx) s ts with
        | none => s
        | some (s', none) => ((s'.resumeDone who.w).triesEnd u).onGroup t b g fun y => mapLanes y fun i l => if ls.contains i then laneRetire l else l
        | some (s', some (_, va, unc)) => trap s' va unc

/-- Classes of equal effective address of an AMO, in ascending order of their lowest lane (R307). -/
def amoClasses (ts : List (Nat × Nat × LaneTarget)) : List (List (Nat × Nat × LaneTarget)) :=
  (ts.map fun y => y.2.1).eraseDups.map fun va => ts.filter fun y => y.2.1 == va

/-- One class of an AMO: one memory operation whose updates are made in lane order (R307). -/
def amoClass (s : State) (t b g : Nat) (op : AmoOp) (double : Bool) (rd : BitVec 5) (src : Nat → W64) (ctx : Nat)
    (c : List (Nat × Nat × LaneTarget)) : LaneEnd :=
  let n := if double then 8 else 4
  let run (s : State) (old : W64) : State × W64 :=
    c.foldl (fun (acc : State × W64) y =>
      (acc.1.laneLoaded t b g y.1 rd acc.2.toNat n true, amoResult op double acc.2 (src y.1))) (s, old)
  let count (s : State) : State := if 2 ≤ c.length then s.bump (Reg.TG_AMOCOMB_CNT.COUNT t) else s
  match c with
  | (i, _, .loc sp) :: _ =>
    if !(s.spBadIn t [(sp, n)]).isEmpty then .trap true (s.spSpoilt t 1 0)
    else
    let (s, v) := run s (BitVec.ofNat 64 (leNat (s.spBytes t sp n)))
    .ok (count (s.localWrite t b g i sp n v))
  | (i, _, .mem a _) :: _ =>
    match s.l2Avail (s.dieOf t) (a / 128) ctx true with
    | .ready x =>
      let (s, v) := run s (BitVec.ofNat 64 (lineNat x.data (a % 128) n))
      let s := s.laneWrite t b g i a n x v
      .ok (count (s.onKernel t fun k => { k with l1 := k.l1.filter fun p => p.1 != a / 128 }))
    | .wait _ => .wait
    | .refused s => .trap false s
    | .spoiled s => .trap true s
  | _ => .trap false s

/-- Performs the classes of an AMO one after another; the first lane of a class stands for it. -/
def amoLane (t b g : Nat) (op : AmoOp) (double : Bool) (rd : BitVec 5) (src : Nat → W64) (cs : List (List (Nat × Nat × LaneTarget)))
    (ctx : Nat) (s : State) (i va : Nat) (_ : LaneTarget) : LaneEnd :=
  match cs.find? fun c => (c.head?).any fun y => y.1 == i && y.2.1 == va with
  | some c => s.amoClass t b g op double rd src ctx c
  | none => .ok s

/-- One lane's LR (R308). -/
def laneLr (t b g : Nat) (rd : BitVec 5) (n : Nat) (ctx : Nat) (s : State) (i _ : Nat) (x : LaneTarget) : LaneEnd :=
  let keep (s : State) (key : Nat) : State :=
    s.onGroup t b g fun y => mapLanes y fun j l => if j = i then { l with resv := some key } else l
  match x with
  | .loc sp =>
    if !(s.spBadIn t [(sp, n)]).isEmpty then .trap true (s.spSpoilt t 1 0)
    else .ok ((keep s (localKey t sp)).laneLoaded t b g i rd (leNat (s.spBytes t sp n)) n true)
  | .mem a _ =>
    match s.l2Avail (s.dieOf t) (a / 128) ctx true with
    | .ready c =>
      let s := s.l2Put (s.dieOf t) (a / 128) c c.data
      let s := s.onKernel t fun k => { k with l1 := k.l1.filter fun p => p.1 != a / 128 }
      .ok ((keep s (a / 128)).laneLoaded t b g i rd (lineNat c.data (a % 128) n) n true)
    | .wait _ => .wait
    | .refused s => .trap false s
    | .spoiled s => .trap true s
  | _ => .trap false s

/-- One lane's SC (R308, R404, R405). -/
def laneSc (t b g : Nat) (rd : BitVec 5) (n : Nat) (src : Nat → W64) (ctx : Nat) (s : State) (i _ : Nat) (x : LaneTarget) : LaneEnd :=
  let held (key : Nat) : Bool := match s.group? t b g with
    | some (_, y) => (y.lanes.getD i {}).resv == some key
    | none => false
  let drop (s : State) : State := s.onGroup t b g fun y => mapLanes y fun j l => if j = i then { l with resv := none } else l
  match x with
  | .loc sp =>
    if held (localKey t sp) then .ok (((drop s).localWrite t b g i sp n (src i)).laneLoaded t b g i rd 0 8 false)
    else .ok ((drop s).laneLoaded t b g i rd 1 8 false)
  | .mem a _ =>
    match s.l2Avail (s.dieOf t) (a / 128) ctx true with
    | .ready c =>
      let s := s.onKernel t fun k => { k with l1 := k.l1.filter fun p => p.1 != a / 128 }
      if held (a / 128) then .ok (((drop s).laneWrite t b g i a n c (src i)).laneLoaded t b g i rd 0 8 false)
      else .ok ((drop s).laneLoaded t b g i rd 1 8 false)
    | .wait _ => .wait
    | .refused s => .trap false s
    | .spoiled s => .trap true s
  | _ => .trap false s

/-! ## TKLAUNCH -/

/-- A launch block is malformed (R286, R289). -/
def launchBad (v : Nat) : Bool :=
  kernelMalformed (BitVec.ofNat 512 (v % 2 ^ 384 * 2 ^ 128)) || at_ v 48 1 / 64 != 0 || at_ v 49 15 != 0

/-- TKLAUNCH once no kernel is resident: the launch block is read through the core's translation (R289). -/
def kernelLaunch (s : State) (t rd va : Nat) : State :=
  let who := s.tileWho t (.core t)
  if 2 ^ 48 ≤ va + 63 then s.fatalTrap t
  else
    match s.pagePieces who accLoad (pageSpans va 64) with
    | (none, s) => s
    | (some ps, s) =>
      if ps.any (fun p => match p with | .lost _ | .bad _ | .flash _ _ => true | _ => false) then
        s.fatalTrap t (ps.any (fun p => match p with | .bad _ => true | _ => false))
      else if ps.any s.pieceHeld then s
      else if !s.portsReady who ps then s.askPorts who ps
      else
        let (bs, l, s) := s.readPieces 0 who ps
        let s := s.resumeDone who.w
        if bs.any Option.isNone then s.fatalTrap t (l.errs != 0)
        else
          let v := leNat (bs.map fun b => b.getD 0)
          if launchBad v then s.fatalTrap t
          else
            let pos := match s.running t with
              | some f => (s.tileIndex f t).1
              | none => 0
            let done := if (at_ v 48 1).testBit 5 then some (at_ v 48 1 % 32) else none
            let s := s.startKernel t (BitVec.ofNat 384 v) pos 1 true done
            let s := s.onCore t fun c => { c with launches := c.launches + 1, wait := .none, waitTicks := 0 }
            (s.setCoreReg t rd (BitVec.ofNat 64 (s.tile t).core.launches)).retire t

/-- A TKLAUNCH executes, or stalls while a kernel is resident. -/
def tryLaunch (s : State) (t rd va : Nat) : State :=
  if (s.tile t).kernel.isSome then s.onCore t fun c => { c with wait := .launch rd va, waitTicks := 0 } else s.kernelLaunch t rd va

end State

/-! ## Rows: kernels -/

/-- KERNEL (R287, R291). -/
def execKernel (t : Fin 256) (s : State) : Host.Outcome State Fault Refusal :=
  .next (s.beginPart t 0x11 fun f s =>
    let (pos, n) := s.tileIndex f t
    s.startKernel t (BitVec.ofNat 384 (body f.desc 0 48)) pos n false none)

/-- BLOCK_START (R284, R287, R288, R292 to R294). -/
def execBlockStart (t : Fin 256) (s : State) : Host.Outcome State Fault Refusal := .next (s.startBlock t)

/-- KERNEL_PART_END (R291); or, after a trap, the debug record that has waited is written (R311). -/
def execKernelPartEnd (t : Fin 256) (s : State) : Host.Outcome State Fault Refusal :=
  match (s.tile t).kernel with
  | some k =>
    if (s.tile t).mode != .normal then .next s
    else if k.trapped.isSome then .next (s.finishTrap t)
    else if !k.launched && s.kernelOver t k then .next ((s.onTile t fun x => { x with kernel := none }).endPart t)
    else .next s
  | none => .next s

/-- TKLAUNCH (R289). -/
def execTklaunch (t : Fin 256) (rd rs1 : BitVec 5) (s : State) : Host.Outcome State Fault Refusal :=
  let va := (s.coreReg t rs1.toNat).toNat
  if s.coreReady t || ((s.tile t).core.wait == .launch rd.toNat va && (s.tile t).kernel.isNone) then .next (s.tryLaunch t rd.toNat va)
  else .next s

/-- TKLAUNCH_END (R289): the launch's post is made, and a TKLAUNCH that stalled goes on. -/
def execTklaunchEnd (t : Fin 256) (s : State) : Host.Outcome State Fault Refusal :=
  match (s.tile t).kernel with
  | some k =>
    if k.launched && s.kernelOver t k && (s.tile t).mode == .normal then
      let s := s.onTile t fun x => { x with kernel := none }
      let s := match k.done with
        | some c => s.postToken t t c 1
        | none => s
      match (s.tile t).core.wait with
      | .launch rd va => .next (s.tryLaunch t rd va)
      | _ => .next s
    else .next s
  | none => .next s

/-! ## Rows: traps -/

/-- ECALL (R122, R311). -/
def execEcall (t : Fin 256) (g : Option (BitVec 31 × Fin 32)) (s : State) : Host.Outcome State Fault Refusal :=
  match g with
  | none => if s.coreReady t then .next (s.fatalTrap t) else .next s
  | some (b, g) =>
    match s.groupIssues t b.toNat g with
    | some (_, x, ls) => .next (s.threadTrap t b.toNat g 4 none (laneMask ls) (lowestPc (x.lanes.filter laneRunnable)) 0)
    | none => .next s

/-- The handle of a debug session on the context of the tile's running descriptor that admits halting at EBREAK (R313, R566, Table
19.7). -/
def attachedSession (s : State) (t : Nat) : Option Nat :=
  match s.running t with
  | some f => (s.tarle.sessions.find? fun p => p.2.ctx == ctxidOf f.desc && p.2.ops.testBit 2).map (·.1)
  | none => none

/-- EBREAK (R122, R311, R313, R566). A control core whose context has a debug session goes on (Log 118). -/
def execEbreak (t : Fin 256) (g : Option (BitVec 31 × Fin 32)) (s : State) : Host.Outcome State Fault Refusal :=
  match g with
  | none =>
    if !s.coreReady t then .next s
    else if (attachedSession s t).isSome then .next (s.retire t) else .next (s.fatalTrap t)
  | some (b, g) =>
    match s.groupIssues t b.toNat g with
    | some (_, x, ls) =>
      match attachedSession s t with
      | some h =>
        let s := s.onGroup t b.toNat g fun y => { y with halted := true, haltSet := laneMask ls, stepAt := none }
        let s : State := { s with tarle := { s.tarle with
          sessions := s.tarle.sessions.map fun p =>
            if p.1 = h then (h, { p.2 with halted := p.2.halted ++ [(t.val, b.toNat, g.val)] }) else p } }
        .next ((s.assertSource 36).signal (512 + t.val))
      | none => .next (s.threadTrap t b.toNat g 5 none (laneMask ls) (lowestPc (x.lanes.filter laneRunnable)) 0)
    | none => .next s

/-! ## Rows: Xflsgrp -/

/-- SHFL_IDX (R281). -/
def execShflIdx (g : GroupRef) (rd rs1 rs2 : BitVec 5) (s : State) : Host.Outcome State Fault Refusal :=
  .next (s.shfl g 0 rd rs1 rs2 fun _ n => n)

/-- SHFL_UP (R281). -/
def execShflUp (g : GroupRef) (rd rs1 rs2 : BitVec 5) (s : State) : Host.Outcome State Fault Refusal :=
  .next (s.shfl g 1 rd rs1 rs2 fun l n => (l : Int) - n)

/-- SHFL_DOWN (R281). -/
def execShflDown (g : GroupRef) (rd rs1 rs2 : BitVec 5) (s : State) : Host.Outcome State Fault Refusal :=
  .next (s.shfl g 2 rd rs1 rs2 fun l n => (l : Int) + n)

/-- SHFL_XOR (R281). -/
def execShflXor (g : GroupRef) (rd rs1 rs2 : BitVec 5) (s : State) : Host.Outcome State Fault Refusal :=
  .next (s.shfl g 3 rd rs1 rs2 fun l n => (l ^^^ n : Nat))

/-- VOTE_ANY (R280, R282). -/
def execVoteAny (g : GroupRef) (rd rs1 : BitVec 5) (s : State) : Host.Outcome State Fault Refusal :=
  .next (s.laneOp g rd [rs1] (encR custom2 1 0 rd rs1 0) fun _ x ls _ => if (State.votes x ls rs1).isEmpty then 0 else 1)

/-- VOTE_ALL (R280, R282). -/
def execVoteAll (g : GroupRef) (rd rs1 : BitVec 5) (s : State) : Host.Outcome State Fault Refusal :=
  .next (s.laneOp g rd [rs1] (encR custom2 1 1 rd rs1 0) fun _ x ls _ => if State.votes x ls rs1 = ls then 1 else 0)

/-- VOTE_BALLOT (R280, R282). -/
def execVoteBallot (g : GroupRef) (rd rs1 : BitVec 5) (s : State) : Host.Outcome State Fault Refusal :=
  .next (s.laneOp g rd [rs1] (encR custom2 1 2 rd rs1 0) fun _ x ls _ => BitVec.ofNat 64 (laneMask (State.votes x ls rs1)))

/-- VOTE_ACTIVE (R280, R282). -/
def execVoteActive (g : GroupRef) (rd : BitVec 5) (s : State) : Host.Outcome State Fault Refusal :=
  .next (s.laneOp g rd [] (encR custom2 1 3 rd 0 0) fun _ _ ls _ => BitVec.ofNat 64 (laneMask ls))

/-- BAR (R299, R300, R302). -/
def execBar (g : GroupRef) (b : Fin 16) (s : State) : Host.Outcome State Fault Refusal :=
  .next (s.issueThread g [] (encR custom2 2 0 0 0 (BitVec.ofNat 5 b)) false fun _ _ ls s =>
    let t := g.tile.val
    let blk := g.block.toNat
    let s := s.onGroup t blk g.group fun y => mapLanes y fun i l =>
      if ls.contains i then { l with wait := some b.val, waitTicks := 0 } else l
    let s := s.onKernel t fun k => { k with blocks := k.blocks.map fun y =>
      if y.num == blk then { y with counts := y.counts.set b (y.counts.getD b 0 + ls.length) } else y }
    s.settleGroup t blk g.group)

/-- GSYNC (R301, R302): a lane's own bit is taken as set. -/
def execGsync (g : GroupRef) (rs1 : BitVec 5) (s : State) : Host.Outcome State Fault Refusal :=
  .next (s.issueThread g [rs1] (encR custom2 3 0 0 rs1 0) false fun _ _ ls s =>
    let s := s.onGroup g.tile g.block.toNat g.group fun y => mapLanes y fun i l =>
      if ls.contains i then { l with wait := some 16, mask := (laneReg l rs1).toNat % 2 ^ 32 ||| 2 ^ i, waitTicks := 0 } else l
    s.settleGroup g.tile g.block.toNat g.group)

/-- GETID (R280). -/
def execGetid (g : GroupRef) (rd : BitVec 5) (f : Fin 8) (s : State) : Host.Outcome State Fault Refusal :=
  .next (s.laneOp g rd [] (encR custom3 0 0 rd 0 (BitVec.ofNat 5 f)) fun k x _ l =>
    BitVec.ofNat 64 (match f.val with
      | 0 => l
      | 1 => x.g
      | 2 => 32 * x.g + l
      | 3 => kGpb k
      | 4 => x.block
      | 5 => kfield k 16 4
      | 6 => k.index
      | _ => kfield k 24 8))

/-- EXIT (R291, R299, R300). -/
def execExit (g : GroupRef) (s : State) : Host.Outcome State Fault Refusal :=
  .next (s.issueThread g [] (encR custom3 1 0 0 0 0) false fun _ _ ls s =>
    let s := s.onGroup g.tile g.block.toNat g.group fun y => mapLanes y fun i l =>
      if ls.contains i then { l with exited := true, resv := none, retired := l.retired + 1, waitTicks := 0 } else l
    s.settleGroup g.tile g.block.toNat g.group)

/-- SRND (R167, R279, R283). -/
def execSrnd (g : GroupRef) (rd rs1 : BitVec 5) (format : BitVec 5) (double : Bool) (n : BitVec 5) (s : State) :
    Host.Outcome State Fault Refusal :=
  let fmt := format.toNat
  let okFmt := (2 ≤ fmt && fmt ≤ 8) || (fmt == 1 && double)
  let bad := !okFmt || n.toNat < 4 || 16 < n.toNat
  let enc := encR custom3 2 ((if double then 32 else 0) + fmt) rd rs1 n
  .next (s.issueThread g [rd, rs1] enc bad fun k _ ls s =>
    let a : AMode := { rnd := 5, sat := kSat k, ftz := kFtz k, srbits := n.toNat }
    let src := if double then fp64 else fp32
    let round (l : Lane) : Nat × W64 × Bool :=
      let (x, r) := srDraw l.gen n.toNat
      let bits := if double then (laneReg l rs1).toNat else (laneReg l rs1).toNat % 2 ^ 32
      let (v, fi) := readF src (kFtz k) bits
      match elemOf fmt with
      | some (.float f) =>
        let (c, fo) := encodeF f a r v
        ((encodeF fp32 {} 0 (decodeF f c)).1, x, fi || fo)
      | _ => (0, x, fi)
    let b := g.block.toNat
    let fl := match s.group? g.tile b g.group with
      | some (_, y) => ls.any fun i => (round (y.lanes.getD i {})).2.2
      | none => false
    let s := s.onGroup g.tile b g.group fun y => mapLanes y fun i l =>
      if ls.contains i then
        let (v, x, _) := round l
        laneRetire { setLaneReg l rd.toNat (extend v 4 true) with gen := x }
      else l
    s.setFlushed g.tile 2 fl)

/-- TGPOST (R125, R126, R280): with release, it waits for the earlier stores of the group. -/
def execTgpost (g : GroupRef) (rs1 : BitVec 5) (c : Fin 32) (release : Bool) (s : State) : Host.Outcome State Fault Refusal :=
  let t := g.tile.val
  let b := g.block.toNat
  .next (s.issueThread g [rs1] (encR custom3 3 (if release then 1 else 0) 0 rs1 (BitVec.ofNat 5 c)) false fun _ x ls s =>
    if release && s.groupStores t b g.group then s
    else
      let s := ls.foldl (fun (s : State) i => s.postToken t t c ((laneReg (x.lanes.getD i {}) rs1).toNat % 2 ^ 32)) s
      s.onGroup t b g.group fun y => mapLanes y fun i l => if ls.contains i then laneRetire l else l)

/-! ## Rows: memory -/

/-- THREAD_LOAD (R304 to R306, R309). LDU is no instruction of RV64 (R277). -/
def execThreadLoad (g : GroupRef) (rd rs1 : BitVec 5) (imm : BitVec 12) (size : MemSize) (unsigned : Bool) (s : State) :
    Host.Outcome State Fault Refusal :=
  let n := sizeBytes size
  let enc := encI 0x03 (sizeCode size + if unsigned then 4 else 0) rd rs1 imm
  .next (s.issueThread g [rd, rs1] enc (unsigned && size == .d) fun k x ls s =>
    s.threadAccess g k x ls accLoad n false (fun l => (laneReg l rs1 + imm.signExtend 64).toNat) fun ctx s i va y =>
      s.laneLoad g.tile g.block.toNat g.group rd n (!unsigned) ctx i va y)

/-- THREAD_STORE (R304, R305, R309). -/
def execThreadStore (g : GroupRef) (rs1 rs2 : BitVec 5) (imm : BitVec 12) (size : MemSize) (s : State) :
    Host.Outcome State Fault Refusal :=
  let n := sizeBytes size
  .next (s.issueThread g [rs1, rs2] (encS 0x23 (sizeCode size) rs1 rs2 imm) false fun k x ls s =>
    s.threadAccess g k x ls accStore n true (fun l => (laneReg l rs1 + imm.signExtend 64).toNat) fun ctx s i va y =>
      s.laneStore g.tile g.block.toNat g.group n ctx i va y (laneReg (x.lanes.getD i {}) rs2))

/-- A memory instruction with the release bit waits for the group's earlier stores; else `k` performs it (R307; Log 119). -/
def released (r : GroupRef) (aqrl : BitVec 2) (k : Kernel → Group → List Nat → State → State) (kn : Kernel) (x : Group) (ls : List Nat)
    (s : State) : State :=
  if aqrl.getLsbD 0 && s.groupStores r.tile r.block.toNat r.group then s else k kn x ls s

/-- THREAD_AMO (R307, R309). -/
def execThreadAmo (g : GroupRef) (op : AmoOp) (rd rs1 rs2 : BitVec 5) (form : AtomicForm) (s : State) :
    Host.Outcome State Fault Refusal :=
  let t := g.tile.val
  let b := g.block.toNat
  let n := if form.double then 8 else 4
  .next (s.issueThread g [rd, rs1, rs2] (encR 0x2F (if form.double then 3 else 2) (amoCode op * 4 + form.aqrl.toNat) rd rs1 rs2) false
    (released g form.aqrl fun k x ls s =>
      let addr (l : Lane) : Nat := (laneReg l rs1).toNat
      let classes := match s.laneTargets t b g.group k accAtomic n (ls.map fun i => (i, addr (x.lanes.getD i {}))) with
        | .all ts _ => State.amoClasses ts
        | _ => []
      s.threadAccess g k x ls accAtomic n true addr
        (State.amoLane t b g.group op form.double rd (fun i => laneReg (x.lanes.getD i {}) rs2) classes)))

/-- THREAD_LR (R308, R309). -/
def execThreadLr (g : GroupRef) (rd rs1 : BitVec 5) (form : AtomicForm) (s : State) : Host.Outcome State Fault Refusal :=
  let n := if form.double then 8 else 4
  .next (s.issueThread g [rd, rs1] (encR 0x2F (if form.double then 3 else 2) (8 + form.aqrl.toNat) rd rs1 0) false
    (released g form.aqrl fun k x ls s =>
      s.threadAccess g k x ls accLr n true (fun l => (laneReg l rs1).toNat) (State.laneLr g.tile g.block.toNat g.group rd n)))

/-- THREAD_SC (R308, R309, R405). -/
def execThreadSc (g : GroupRef) (rd rs1 rs2 : BitVec 5) (form : AtomicForm) (s : State) :
    Host.Outcome State Fault Refusal :=
  let n := if form.double then 8 else 4
  .next (s.issueThread g [rd, rs1, rs2] (encR 0x2F (if form.double then 3 else 2) (12 + form.aqrl.toNat) rd rs1 rs2) false
    (released g form.aqrl fun k x ls s =>
      s.threadAccess g k x ls accSc n true (fun l => (laneReg l rs1).toNat)
        (State.laneSc g.tile g.block.toNat g.group rd n fun i => laneReg (x.lanes.getD i {}) rs2)))

/-- THREAD_FENCE (R410, R411): it waits for the group's outstanding stores of its predecessor set. -/
def execThreadFence (g : GroupRef) (pred succ : BitVec 4) (s : State) : Host.Outcome State Fault Refusal :=
  let t := g.tile.val
  let b := g.block.toNat
  let busy := s.order.out.any fun x => x.unit == .thread t b g.group && x.write
    && (if x.dev then pred.getLsbD 2 else pred.getLsbD 0)
  let imm : BitVec 12 := BitVec.ofNat 12 (pred.toNat * 16 + succ.toNat)
  .next (s.issueThread g [] (encI 0x0F 0 0 0 imm) false fun _ _ ls s =>
    if busy then s
    else s.onGroup t b g.group fun y => mapLanes y fun i l => if ls.contains i then laneRetire l else l)

/-! ## Rows: the barrier watchdog -/

/-- BARRIER_WATCHDOG (R303, R314). The group is that of the lowest block and group number that holds such a lane. -/
def execBarrierWatchdog (t : Fin 256) (s : State) : Host.Outcome State Fault Refusal :=
  let n := s.tick.bwdog
  match (s.tile t).kernel with
  | some k =>
    let due (l : Lane) : Bool := !l.exited && n ≤ l.waitTicks
    let gs := k.groups.filter fun g => g.lanes.any due
    let best := gs.foldl (fun (m : Option Group) g => match m with
      | some h => if g.block < h.block || (g.block == h.block && g.g < h.g) then some g else some h
      | none => some g) none
    match best with
    | some g =>
      if n = 0 || (s.tile t).mode != .normal then .next s
      else
        let pc := lowestPc (g.lanes.filter fun l => !l.exited)
        match (g.lanes.find? due).bind (·.wait) with
        | some b => .next (s.threadTrap t g.block g.g 7 (some b) 0 pc 0)
        | none => .next (s.threadTrap t g.block g.g 8 none 0 pc 0)
    | none => .next s
  | none => .next s

end Sys2Proof.Machine
end

