-- ==== Sys2Proof/Machine/Answers.lean ====
section
/-! DEFINITION. Accesses that are answered, and accesses that are never answered (chapter 13). -/

namespace Sys2Proof.Machine

namespace State

/-- An access is no longer outstanding; an answer to it would be late (R415). -/
def forget (s : State) (x : Access) : State :=
  { s with order := { s.order with out := s.order.out.erase x, late := s.order.late ++ [x.id] } }

/-- A store is discarded (R413): for its core, a notice is on its way (R411). -/
def discardStore (s : State) (x : Access) : State :=
  let s := (((s.forget x).bump Reg.MO_DISC_CNT.COUNT).raise Reg.MO_STAT.DISCARD).accessLetter 1 x
  let s := match x.desc with
    | some (q, n) => s.addLoss q n { dropped := x.bytes, errs := 1 }
    | none => s
  match x.unit with
  | .core t => s.onCore t fun c => { c with notices := c.notices + 1 }
  | _ => s

/-- A load is abandoned (R414): a precise access fault of a core, or bytes that do not come. -/
def abandonLoad (s : State) (x : Access) : State :=
  let s := (s.bump Reg.MO_LOADTO_CNT.COUNT).accessLetter 2 x
  match x.unit with
  | .core t => (s.forget x).fatalTrap t
  | .hart h => (s.forget x).hartFault h
  | .thread _ _ _ => (s.forget x).laneFault x
  | _ => { s with order := { s.order with
      late := s.order.late ++ [x.id]
      out := s.order.out.map fun y => if y = x then { y with got := some (List.replicate y.bytes none) } else y } }

/-- An uncached access of a node core to coherent memory, as the dead letter names it. -/
def uncAccess (_ : State) (h : Nat) (u : UncAccess) : Access :=
  { id := 0, unit := .hart h, write := u.write, dev := u.dev, addr := u.addr, bytes := u.size, issued := u.issued, tout := u.tout }

/-- An uncached access of a node core has reached its timeout. -/
def dropUnc (s : State) (h : Nat) (u : UncAccess) : State :=
  let s := s.onHart h fun x => { x with unc := x.unc.erase u }
  let s : State := { s with coh := { s.coh with late := (h, u.txn) :: s.coh.late } }
  let x := s.uncAccess h u
  if u.write then ((s.bump Reg.MO_DISC_CNT.COUNT).raise Reg.MO_STAT.DISCARD).accessLetter 1 x
  else ((s.bump Reg.MO_LOADTO_CNT.COUNT).accessLetter 2 x).hartFault h

/-- An access to a coherent line has reached its timeout: a store is discarded, and the instruction or the buffer entry goes on without
it; a load or an atomic ends in a precise access fault (R413, R414). -/
def dropTry (s : State) (x : Access) : State :=
  if x.write then
    let s : State := { s with order := { s.order with tried := s.order.tried.map fun y => if y = x then { y with got := some [] } else y } }
    let s := ((s.bump Reg.MO_DISC_CNT.COUNT).raise Reg.MO_STAT.DISCARD).accessLetter 1 x
    match x.desc with
    | some (q, n) => s.addLoss q n { dropped := x.bytes, errs := 1 }
    | none => s
  else
    let s : State := { s with order := { s.order with tried := s.order.tried.erase x } }
    let s := (s.bump Reg.MO_LOADTO_CNT.COUNT).accessLetter 2 x
    match x.unit with
    | .core t => s.fatalTrap t
    | .hart h => s.hartFault h
    | .thread _ _ _ => s.laneFault x
    | _ => s

/-- The age test at whole microsecond `n` of the access timer (R412). -/
def timerTest (s : State) (n : Nat) : State :=
  let s : State := { s with order := { s.order with tested := n } }
  let due (issued tout : Nat) : Bool := decide (tout * 1000 ≤ n * 1000 - issued) && decide (issued ≤ n * 1000)
  let s := (s.order.out.filter fun x => x.got.isNone && due x.issued x.tout).foldl (fun (s : State) x =>
    if x.write then s.discardStore x else s.abandonLoad x) s
  let s := (s.order.tried.filter fun x => x.got.isNone && due x.issued x.tout).foldl dropTry s
  s.harts.foldl (fun (s : State) p =>
    (p.2.unc.filter fun u => due u.issued u.tout).foldl (fun (s : State) u => s.dropUnc p.1 u) s) s

/-- The answer to an access beyond the coherent memory: a store's acknowledgement (R409), or a load's data. -/
def answered (s : State) (x : Access) (bs : List Byte) : State :=
  let gone : State := { s with order := { s.order with out := s.order.out.erase x } }
  if x.write then
    match x.unit with
    | .core t => gone.coreProgress t
    | _ => gone
  else
    let v := leNat bs
    match x.unit with
    | .core t => gone.loadDone t x.rd v x.bytes x.sext x.float
    | .hart h => gone.setHartReg h x.rd (extend v x.bytes x.sext)
    | .thread t b g => gone.laneLoaded t b g x.lane (BitVec.ofNat 5 x.rd) v x.bytes x.sext
    | _ => { s with order := { s.order with out := s.order.out.map fun y =>
        if y = x then { y with got := some (bs.map some) } else y } }

/-- A completion, or a link-layer acknowledgement, arrives for access `n` (R409, R415): a read of service-host memory brings the bytes
there (Log 12). -/
def completion (s : State) (n : Nat) (bytes : List Byte) : State :=
  match s.order.out.find? fun x => x.id == n && x.got.isNone with
  | some x =>
    -- nothing comes from a port whose link is down (R534)
    if (x.port.map fun p => s.get (Reg.OB_PSTAT.RATE p.1)) == some 0 then s
    else
    match x.host with
    | some bus => s.answered x (if x.write then [] else s.hostBytes bus x.bytes)
    | none => if x.write || bytes.length = x.bytes then s.answered x bytes else s
  | none =>
    if s.order.late.contains n then
      { s.bump Reg.MO_LATEACK_CNT.COUNT with order := { s.order with late := s.order.late.erase n } }
    else s

end State

/-! ## Rows -/

/-- ACCESS_TIMER_TEST (R412 to R414): due once the access timer has passed a whole microsecond since the last test. -/
def execAccessTimerTest (s : State) : Host.Outcome State Fault Refusal :=
  if s.order.tested < s.order.timer / 1000 then .next (s.timerTest (s.order.timer / 1000)) else .next s

/-- FENCE_NOTICE (R411): the notices of discarded stores reach the core. -/
def execFenceNotice (t : Fin 256) (s : State) : Host.Outcome State Fault Refusal :=
  if (s.tile t).core.notices = 0 then .next s
  else .next ((s.onCore t fun c => { c with notices := 0 }).coreProgress t)

/-- PCIE_COMPLETION_ARRIVAL (R409, R415). -/
def execPcieCompletionArrival (access : Nat) (bytes : List Byte) (s : State) : Host.Outcome State Fault Refusal :=
  .next (s.completion access bytes)

end Sys2Proof.Machine
end

