-- ==== Sys2Proof/Machine/Movers.lean ====
section
/-! DEFINITION. Parcel movers and the flash tier (chapter 14; COPY and FILL of R94). A mover's command moves the next 64 KiB of its
descriptor. -/

namespace Sys2Proof.Machine

/-- A run of source bytes: at a segment address, with the bits of its last byte that belong to it; or given bytes. -/
inductive SrcRun where
  | seg (addr n bits : Nat)
  | given (bs : List Byte)
  deriving DecidableEq, Repr

def SrcRun.size : SrcRun → Nat
  | .seg _ n _ => n
  | .given bs => bs.length

/-- A run of destination bytes: bytes `off` to `off + n - 1` of those read go to a segment address; `bits` of its last byte belong to
it, and the rest are written as zero. -/
structure DstRun where
  addr : Nat
  off : Nat
  n : Nat
  bits : Nat := 8
  deriving DecidableEq, Repr

/-- The low `bits` bits of the last byte kept. -/
def cutLast (bits : Nat) : List (Option Byte) → List (Option Byte)
  | [] => []
  | [b] => [b.map fun x => x &&& BitVec.ofNat 8 (2 ^ bits - 1)]
  | b :: rest => b :: cutLast bits rest

/-- Bytes of a move put at byte `off` of granule `g` among those to be programmed. -/
def outPut (out : List (Nat × Nat × List (Option Byte))) (g off : Nat) (bs : List (Option Byte)) :
    List (Nat × Nat × List (Option Byte)) :=
  let merge (old : List (Option Byte)) : List (Option Byte) :=
    old.take off ++ (bs.zip (old.drop off)).map (fun p => p.1.or p.2) ++ old.drop (off + bs.length)
  if out.any fun e => e.1 == g then
    out.map fun e => if e.1 = g then (g, e.2.1 + bs.length, merge e.2.2) else e
  else out ++ [(g, bs.length, merge (List.replicate 65536 none))]

/-- Granules that `n` bytes at flash address `a` touch, with the first byte and the length in each. -/
def flashSpans (a n : Nat) : List (Nat × Nat × Nat) :=
  (List.range ((a % 65536 + n + 65535) / 65536)).map fun i =>
    let g := (a - flashBase) / 65536 + i
    let base := flashBase + g * 65536
    let lo := max a base
    (g, lo - base, min (a + n) (base + 65536) - lo)

/-! ## The packed layout (R425) -/

structure Layout where
  fmt : Nat
  kc : Nat
  lines : Nat
  kel : Nat
  ldx : Nat
  deriving DecidableEq, Repr

def layoutOf (d : BitVec 512) : Layout :=
  { fmt := body d 40 1, kc := parcelKc d, lines := body d 24 4, kel := body d 28 4, ldx := body d 32 8 }

namespace Layout

/-- LL, b and RS of R425. -/
def ll (p : Layout) : Nat := lineLen p.fmt p.kc
def sb (p : Layout) : Nat := if fmtMx p.fmt then p.kc / 32 else 0
def rs (p : Layout) : Nat := recordSize p.fmt p.kc
def chunks (p : Layout) : Nat := (p.kel + p.kc - 1) / p.kc
/-- Bytes of a line's elements, the bits of the last of them, and bytes of its scales. -/
def lineBytes (p : Layout) : Nat := (p.kel * fmtBits p.fmt + 7) / 8
def lastBits (p : Layout) : Nat := let r := p.kel * fmtBits p.fmt % 8; if r = 0 then 8 else r
def scaleBytes (p : Layout) : Nat := (p.kel + 31) / 32

/-- What the image holds from byte `o` on: a run of at most `n` bytes that are zero, or come from elements, or from scales; the run's
length, its line and the first byte within the line's elements or scales. -/
inductive Run where
  | zero (n : Nat)
  | elems (n line off : Nat)
  | scales (n line off : Nat)
  deriving DecidableEq, Repr

def Run.size : Run → Nat
  | .zero n | .elems n _ _ | .scales n _ _ => n

/-- The run at image byte `o`, at most `n` bytes long. -/
def run (p : Layout) (o n : Nat) : Run :=
  let rec_ := o / p.rs
  let w := o % p.rs
  let line (r : Nat) : Nat := 128 * (rec_ / p.chunks) + r
  let k := rec_ % p.chunks
  let cut (x : Nat) : Nat := max 1 (min n x)
  if w < 128 * p.ll then
    let c := w % p.ll
    let off := k * p.ll + c
    let left := p.ll - c
    if p.lines ≤ line (w / p.ll) || p.lineBytes ≤ off then .zero (cut left)
    else .elems (cut (min left (p.lineBytes - off))) (line (w / p.ll)) off
  else if w < 128 * p.ll + 128 * p.sb then
    let v := w - 128 * p.ll
    let c := v % p.sb
    let off := k * p.sb + c
    let left := p.sb - c
    if p.lines ≤ line (v / p.sb) || p.scaleBytes ≤ off then .zero (cut left)
    else .scales (cut (min left (p.scaleBytes - off))) (line (v / p.sb)) off
  else .zero (cut (p.rs - w))

/-- The runs of `n` bytes of the image from byte `o`. -/
def runs (p : Layout) (size : Nat) : Nat → Nat → Nat → List Run
  | 0, _, _ => []
  | fuel + 1, o, n =>
    if n = 0 then []
    else
      let r := if size ≤ o then Run.zero n else p.run o (min n (size - o))
      r :: runs p size fuel (o + r.size) (n - r.size)

/-- The bits that a run's last byte holds. -/
def runBits (p : Layout) (off n : Nat) : Nat := if off + n = p.lineBytes then p.lastBits else 8

end Layout

/-- The size of a parcel's packed image (R425). -/
def imageOf (d : BitVec 512) : Nat := imageSize (body d 24 4) (body d 28 4) (body d 40 1) (parcelKc d)

namespace State

def mover? (s : State) (m : Nat) : Option Mover := AMap.get? s.movers m
def onMover (s : State) (m : Nat) (f : Mover → Mover) : State :=
  { s with movers := s.movers.map fun p => if p.1 = m then (m, f p.2) else p }

/-- The accesses of mover `m` for its descriptor. -/
def moverWho (_ : State) (m : Nat) (x : Mover) : Who :=
  { w := .mover m, ctx := ctxidOf x.desc, snap := x.snap, queue := x.queue, seq := x.seq }

/-- The rail whose limiter acts on mover `m` (Table 17.1). -/
def moverRail (_ : State) (m : Nat) : Nat := if m < 16 then 12 else 8 + (m - 16) / 4

/-- An endpoint of a move lies in the flash window. -/
def touchesFlash (s : State) (d : BitVec 512) : Bool :=
  (endpoints d).any fun e => match s.endpointAt d e with
    | some (paged, a) => !paged && decide (flashBase ≤ a) && decide (a < outboundBase)
    | none => false

/-- A pause or a gated cycle holds mover `m` (R495, R497, R499, R507): of its rail, of VF where it touches Tier 2, or of a supply dip. -/
def moverHeld (s : State) (m : Nat) (x : Mover) : Bool :=
  s.moverPaused (s.moverRail m) || (s.railGated 15 && (s.touchesFlash x.desc || !x.want.isEmpty || !x.out.isEmpty)) || s.stalled (.mover m)

/-- The move aborts (R423, R430, R94): every destination byte that it has not written is lost. -/
def abortMove (s : State) (m st : Nat) : State :=
  match s.mover? m with
  | some x => (s.abortFlight x.queue x.seq st).stopMover m
  | none => s

/-! ## Quotas (R439, R440) -/

/-- Bytes of some pieces in each tier. -/
def tierBytes (s : State) (ps : List Piece) (t : Nat) : Nat :=
  ps.foldl (fun n p => match p with
    | .mem a k => if s.tierOf a == some t then n + k else n
    | .flash _ k => if t = 2 then n + k else n
    | _ => n) 0

/-- The pieces would exceed MOVEB of a tier in this round. -/
def rateFull (s : State) (c : Nat) (ps : List Piece) : Bool :=
  [0, 1, 2].any fun t =>
    let b := (AMap.getD (s.ctxOf c).quotas t {}).moveb
    let n := s.tierBytes ps t
    n != 0 && b != 0 && decide (b < AMap.getD s.flash.rate (4 * c + t) 0 + n)

def rateTake (s : State) (c : Nat) (ps : List Piece) : State :=
  [0, 1, 2].foldl (fun (s : State) t =>
    let n := s.tierBytes ps t
    if n = 0 then s
    else { s with flash := { s.flash with
      rate := AMap.put s.flash.rate (4 * c + t) (AMap.getD s.flash.rate (4 * c + t) 0 + n) } }) s

/-! ## One step of a move -/

/-- The pieces of several ranges, in order. -/
inductive Ranges where
  | ready (ps : List (List Piece)) (s : State)
  | wait (s : State)
  | limit (s : State)
  deriving DecidableEq, Repr

/-- The pieces of the ranges `xs` (address, bytes) of a mover; `parcel` says that it executes a PARCEL (R420). -/
def rangePieces (s : State) (who : Who) (write parcel : Bool) : List (Nat × Nat) → Ranges
  | [] => .ready [] s
  | (a, n) :: rest =>
    if n != 0 && (s.segCheck who.ctx a n write parcel).isNone then .limit s
    else
      match s.segPieces who a n write true with
      | .limit => .limit s
      | .wait s => .wait s
      | .ready ps s =>
        match s.rangePieces who write parcel rest with
        | .ready qs s => .ready (ps :: qs) s
        | r => r

/-- Flash granules of the pieces that must be read: those mapped, not yet read, and not refused (R374, R375). -/
def flashMissing (s : State) (x : Mover) (ps : List Piece) : List Nat :=
  let gs := ps.flatMap fun p => match p with
    | .flash a n => (flashSpans a n).map (·.1)
    | _ => []
  (gs.filter fun g => (s.flash.map.any fun e => e.1 == g) && !(x.buf.any fun e => e.1 == g)
    && s.ownCheck (ctxidOf x.desc) ((flashBase + g * 65536) / 2 ^ 21) false).eraseDups

/-- The bytes of flash that a mover has read; those of a granule that is not mapped are zero (R427), and those refused by the
ownership check or uncorrectable are lost. -/
def flashBytes (s : State) (ctx : Nat) (x : Mover) (a n : Nat) : List (Option Byte) :=
  (flashSpans a n).flatMap fun sp =>
    if !s.ownCheck ctx ((flashBase + sp.1 * 65536) / 2 ^ 21) false then List.replicate sp.2.2 none
    else
      match x.buf.find? fun e => e.1 == sp.1 with
      | some (_, some bs) => ((bs.drop sp.2.1).take sp.2.2).map some
      | some (_, none) => List.replicate sp.2.2 none
      | none => List.replicate sp.2.2 (some 0)

/-- The bytes of one source piece. -/
def sourceBytes (s : State) (who : Who) (x : Mover) : Piece → List (Option Byte) × Loss × State
  | .flash a n =>
    let bs := s.flashBytes who.ctx x a n
    (bs, { dropped := (bs.filter Option.isNone).length }, s)
  | p => s.readPiece 1 who p

/-- The bytes of the source runs, with what was lost of them. -/
def runBytes (s : State) (who : Who) (x : Mover) : List SrcRun → List (List Piece) → List (Option Byte) × Loss × State
  | .given bs :: rest, ps =>
    let (b, l, s) := s.runBytes who x rest ps
    (bs.map some ++ b, l, s)
  | .seg _ _ bits :: rest, ps :: qs =>
    let (b, l, s) := ps.foldl (fun (acc : List (Option Byte) × Loss × State) p =>
      let (b', l', s) := acc.2.2.sourceBytes who x p
      (acc.1 ++ b', { dropped := acc.2.1.dropped + l'.dropped, errs := acc.2.1.errs + l'.errs }, s)) ([], {}, s)
    let (b2, l2, s) := s.runBytes who x rest qs
    (cutLast bits b ++ b2, { dropped := l.dropped + l2.dropped, errs := l.errs + l2.errs }, s)
  | _, _ => ([], {}, s)

/-- Bytes go to the pieces of a destination range: to flash by way of `out`. -/
def destPieces (s : State) (who : Who) (m : Nat) : List Piece → List (Option Byte) → Loss × State
  | [], _ => ({}, s)
  | p :: rest, bs =>
    let mine := bs.take p.size
    let (l, s) := match p with
      | .flash a _ =>
        (({} : Loss), (flashSpans a mine.length).foldl (fun (acc : State × Nat) (sp : Nat × Nat × Nat) =>
          (acc.1.onMover m fun x => { x with out := outPut x.out sp.1 sp.2.1 ((mine.drop acc.2).take sp.2.2) }, acc.2 + sp.2.2))
          (s, 0) |>.1)
      | _ =>
        let (l, s) := s.writePiece who p mine
        (l, s.onMover m fun x => { x with pos := x.pos + mine.length })
    let (l', s) := s.destPieces who m rest (bs.drop p.size)
    ({ dropped := l.dropped + l'.dropped, errs := l.errs + l'.errs }, s)

def destRuns (s : State) (who : Who) (m : Nat) (bs : List (Option Byte)) : List DstRun → List (List Piece) → Loss × State
  | d :: ds, ps :: qs =>
    let (l, s) := s.destPieces who m ps (cutLast d.bits ((bs.drop d.off).take d.n))
    let (l', s) := s.destRuns who m bs ds qs
    ({ dropped := l.dropped + l'.dropped, errs := l.errs + l'.errs }, s)
  | _, _ => ({}, s)

/-- The move has no byte left. -/
def moveOver (s : State) (m : Nat) : State :=
  s.onMover m fun x => if x.out.isEmpty && moveBytes x.desc ≤ x.pos then { x with done := true } else x

/-- One step: the source runs are read and the destination runs written, once no page fault, outbound read or flash read is
outstanding and the quota allows it. A limit violation aborts the move (R423, R94). -/
def moveStep (s : State) (m : Nat) (x : Mover) (srcs : List SrcRun) (dsts : List DstRun) (image : Nat) : State :=
  let who := s.moverWho m x
  let parcel := opOf x.desc == 0x30
  let from_ := srcs.filterMap fun r => match r with
    | .seg a n _ => some (a, n)
    | .given _ => none
  match s.rangePieces who false parcel from_ with
  | .limit s => s.abortMove m 0x21
  | .wait s => s
  | .ready ps s =>
    match s.rangePieces who true parcel (dsts.map fun d => (d.addr, d.n)) with
    | .limit s => s.abortMove m 0x21
    | .wait s => s
    | .ready qs s =>
      let all := ps.flatten
      let flash := (all ++ qs.flatten).any fun p => match p with
        | .flash _ _ => true
        | _ => false
      let missing := s.flashMissing x all
      if flash && !parcel then s.abortMove m 0x21
      else if !s.portsReady who all then s.askPorts who all
      else if flash && !s.flag Reg.FL_STAT.READY then s
      else if !missing.isEmpty then
        s.onMover m fun y => if y.want = missing then y else { y with want := missing, wantAt := s.now }
      else if parcel && s.rateFull who.ctx (all ++ qs.flatten) then s
      else
        let s := if parcel then s.rateTake who.ctx (all ++ qs.flatten) else s
        let (bs, r, s) := s.runBytes who x srcs ps
        let lost := sumNat (dsts.map fun d => (((bs.drop d.off).take d.n).filter Option.isNone).length)
        let (l, s) := s.destRuns who m bs dsts qs
        let s := (s.addLoss who.queue who.seq { dropped := lost + l.dropped, errs := r.errs + l.errs }).resumeDone who.w
        (s.onMover m fun y => { y with buf := [], want := [], image := y.image + image }).moveOver m

/-- The longest part of a range that passes the segment check, up to `n` bytes: by halving (R94). -/
def checkedPrefix (s : State) (ctx addr : Nat) (write : Bool) : Nat → Nat → Nat
  | 0, _ => 0
  | fuel + 1, n =>
    if (s.segCheck ctx addr (max 1 n) write false).isSome then n
    else if n ≤ 1 then 0
    else
      let h := s.checkedPrefix ctx addr write fuel (n / 2)
      if h < n / 2 then h else h + s.checkedPrefix ctx (addr + h) write fuel (n - h)

/-- Mover `m` can make a step of a descriptor of opcode `op` and, for a PARCEL, layout `lay`. -/
def moving (s : State) (m op lay : Nat) : Option Mover :=
  match s.mover? m with
  | some x =>
    if opOf x.desc == op && (op != 0x30 || parcelLayout x.desc == lay) && !x.done && x.out.isEmpty && !s.moverHeld m x then some x
    else none
  | none => none

/-- The next granule of a LINEAR move (R424). -/
def linearStep (s : State) (m : Nat) : State :=
  match s.moving m 0x30 0 with
  | some x => s.moveStep m x [.seg (body x.desc 0 8 + x.pos) 65536 8] [{ addr := body x.desc 8 8 + x.pos, off := 0, n := 65536 }] 0
  | none => s

/-- The next granule of the image of a PACK (R425). -/
def packStep (s : State) (m : Nat) : State :=
  match s.moving m 0x30 1 with
  | some x =>
    let d := x.desc
    let p := layoutOf d
    let srcs := (p.runs (imageOf d) 65536 x.pos 65536).map fun r => match r with
      | .zero n => SrcRun.given (List.replicate n 0)
      | .elems n l off => .seg (body d 0 8 + l * p.ldx + off) n (p.runBits off n)
      | .scales n l off => .seg (body d 16 8 + l * p.scaleBytes + off) n 8
    s.moveStep m x srcs [{ addr := body d 8 8 + x.pos, off := 0, n := 65536 }] 0
  | none => s

/-- The destination runs of `n` image bytes (R426). -/
def unpackRuns (d : BitVec 512) (p : Layout) : Nat → List Layout.Run → List DstRun
  | _, [] => []
  | o, .zero n :: rest => unpackRuns d p (o + n) rest
  | o, .elems n l off :: rest =>
    { addr := body d 8 8 + l * p.ldx + off, off := o, n := n, bits := p.runBits off n } :: unpackRuns d p (o + n) rest
  | o, .scales n l off :: rest => { addr := body d 16 8 + l * p.scaleBytes + off, off := o, n := n } :: unpackRuns d p (o + n) rest

/-- The next granule of the image that an UNPACK reads (R426). -/
def unpackStep (s : State) (m : Nat) : State :=
  match s.moving m 0x30 2 with
  | some x =>
    let d := x.desc
    let p := layoutOf d
    let n := min 65536 (imageOf d - x.image)
    s.moveStep m x [.seg (body d 0 8 + x.image) n 8] (unpackRuns d p 0 (p.runs (imageOf d) n x.image n)) n
  | none => s

/-- The next 64 KiB of a COPY (R94), or as many of them as lie within both segments. -/
def copyStep (s : State) (m : Nat) : State :=
  match s.moving m 0x40 0 with
  | some x =>
    let d := x.desc
    let c := ctxidOf d
    let n := min 65536 (body d 16 8 - x.pos)
    let n := s.checkedPrefix c (body d 8 8 + x.pos) true 18 (s.checkedPrefix c (body d 0 8 + x.pos) false 18 n)
    if n = 0 then s.abortMove m 0x21
    else s.moveStep m x [.seg (body d 0 8 + x.pos) n 8] [{ addr := body d 8 8 + x.pos, off := 0, n := n }] 0
  | none => s

/-- The next 64 KiB of a FILL (R94): byte i of the destination is byte i mod 8 of the pattern. -/
def fillStep (s : State) (m : Nat) : State :=
  match s.moving m 0x41 0 with
  | some x =>
    let d := x.desc
    let n := s.checkedPrefix (ctxidOf d) (body d 0 8 + x.pos) true 18 (min 65536 (body d 8 8 - x.pos))
    if n = 0 then s.abortMove m 0x21
    else
      let bs := (List.range n).map fun i => BitVec.ofNat 8 (body d 16 8 / 2 ^ (8 * ((x.pos + i) % 8)))
      s.moveStep m x [.given bs] [{ addr := body d 0 8 + x.pos, off := 0, n := n }] 0
  | none => s

/-! ## Flash -/

def channel (s : State) (c : Nat) : Channel := AMap.getD s.flash.channels c {}
def onChannel (s : State) (c : Nat) (f : Channel → Channel) : State :=
  { s with flash := { s.flash with channels := AMap.put s.flash.channels c (f (s.channel c)) } }

/-- A checkpoint or a journal entry reads the map in the device-reserved region, in class P3 (R326; Log 123). -/
def mapRead (s : State) : State :=
  { s.request 3 (Config.mapLine s.flash.mapReads) false with flash := { s.flash with mapReads := s.flash.mapReads + 1 } }

/-- A map change is journaled (R436); the clean-stop mark is then no longer the last entry. -/
def journal (s : State) : State :=
  { s.mapRead with flash := { s.mapRead.flash with journal := s.flash.journal + 1, clean := false } }

/-- A granule is unmapped and reads as zero (R427). -/
def unmapGranule (s : State) (g : Nat) : State :=
  let s := s.zeroRanges [(flashBase + g * 65536) / 65536]
  { s with flash := { s.flash with map := AMap.erase s.flash.map g } }.journal

/-- The next granule of a TRIM (R427). -/
def trimStep (s : State) (m : Nat) : State :=
  match s.moving m 0x30 3 with
  | some x =>
    let who := s.moverWho m x
    match s.rangePieces who true true [(body x.desc 8 8 + x.pos, 65536)] with
    | .limit s => s.abortMove m 0x21
    | .wait s => s
    | .ready ps s =>
      if !s.flag Reg.FL_STAT.READY then s
      else
        let one (acc : State × Nat) (p : Piece) : State × Nat :=
          match p with
          | .flash a n =>
            (flashSpans a n).foldl (fun (acc : State × Nat) sp =>
              if acc.1.ownCheck who.ctx ((flashBase + sp.1 * 65536) / 2 ^ 21) true then
                (if acc.1.flash.map.any fun e => e.1 == sp.1 then acc.1.unmapGranule sp.1 else acc.1, acc.2)
              else (acc.1, acc.2 + sp.2.2)) acc
          | p => (acc.1, acc.2 + p.size)
        let (s, lost) := ps.flatten.foldl one (s, 0)
        let s := (s.addLoss who.queue who.seq { dropped := lost }).resumeDone who.w
        (s.onMover m fun y => { y with pos := y.pos + 65536 }).moveOver m
  | none => s

/-- Working channels (Table 14.4). -/
def working (s : State) : List Nat := (List.range 32).filter fun c => s.get (Reg.FL_CHSTAT.STATE c) == 1

/-- The working channel at or after `c` in rotation (R431). -/
def rotate (s : State) (c : Nat) : Nat :=
  (((List.range 32).map fun i => (c + i) % 32).find? fun i => s.working.contains i).getD 0

/-- A parcel read waits on a channel: it goes first (R432). -/
def readWaits (s : State) (c : Nat) : Bool :=
  s.flag Reg.FL_STAT.READY && s.movers.any fun p => !s.moverHeld p.1 p.2 && (match p.2.want with
    | g :: _ => AMap.getD s.flash.map g 0 == c
    | [] => false)

/-- A parcel write waits for the channel: it goes before background work, unless reclaim goes ahead of it (R432). -/
def writeWaits (s : State) (c : Nat) : Bool :=
  s.flag Reg.FL_STAT.READY && s.rotate s.flash.next == c && !(s.channel c).reclaim
    && s.movers.any fun p => !s.moverHeld p.1 p.2 && !p.2.out.isEmpty

/-- Background work can be done on a channel (R432). -/
def background (s : State) (c : Nat) : Bool := !s.readWaits c && !s.writeWaits c

/-- A granule cannot be rebuilt: another member of its stripe is on a channel that has failed too and is not yet rewritten (R435). -/
def stripeLost (s : State) (g : Nat) : Bool :=
  let failed (c : Nat) : Bool := s.get (Reg.FL_CHSTAT.STATE c) == 2
  let c := AMap.getD s.flash.map g 0
  failed c && match AMap.get? s.flash.stripe g with
    | some n => (AMap.getD s.flash.stripes n []).any fun d => d != c && failed d
    | none => false

/-- A granule programmed on a channel joins the stripe that fills; its 31st granule brings the parity, on the next channel in rotation
(R431). -/
def joinStripe (s : State) (g c : Nat) : State :=
  let n := s.flash.filling
  let cs := AMap.getD s.flash.stripes n [] ++ [c]
  let full := decide (31 ≤ cs.length)
  { s with flash := { s.flash with
    stripe := AMap.put s.flash.stripe g n
    stripes := AMap.put s.flash.stripes n (if full then cs ++ [s.rotate (c + 1)] else cs)
    filling := if full then n + 1 else n } }

/-- The read of the next flash granule that mover `m` needs ends (R434, R435). A channel that has failed serves its granules by the
rebuild, and a granule of a stripe on two failed channels cannot be rebuilt. -/
def granuleRead (s : State) (m : Nat) (o : FlashOutcome) : State :=
  match s.mover? m with
  | some x =>
    match x.want with
    | [] => s
    | g :: rest =>
      if s.moverHeld m x || !s.flag Reg.FL_STAT.READY then s
      else
        let c := AMap.getD s.flash.map g 0
        let b := Config.flashBlock g (s.get Reg.FL_RELOC_CNT.COUNT)
        let s := s.onChannel c fun y => { y with reads := AMap.put y.reads b (AMap.getD y.reads b 0 + 1) }
        let got (s : State) (bs : Option (List Byte)) : State :=
          s.onMover m fun y => { y with want := rest, wantAt := s.now, buf := y.buf ++ [(g, bs)] }
        let bytes := s.memBytes (flashBase + g * 65536) 65536
        let retries : Nat :=
          if s.get (Reg.FL_CHSTAT.STATE c) = 2 then 0
          else match o with
            | .decoded n => n
            | .rebuilt | .uncorrectable => 3
        -- each retry adds 30 µs to the wait (R437, R441)
        let s := (s.bump Reg.FL_CORR_CNT.COUNT retries).bump (Reg.PM_STALL_CNT.COUNT (16 + 2)) (30 * retries)
        match s.stripeLost g, o with
        | false, .decoded _ | false, .rebuilt => got s (some bytes)
        | _, _ => got (((s.bump Reg.FL_UNC_CNT.COUNT).assertSource 65).addLoss x.queue x.seq { errs := 1 }) none
  | none => s

/-- The context whose CAP for Tier 2 bounds the granules of flash granule `g`: the owner of its 2 MiB granule (R439). -/
def capFull (s : State) (g : Nat) : Bool :=
  let o := s.ownOf ((flashBase + g * 65536) / 2 ^ 21)
  if o.mode = 1 || o.mode = 2 then
    match (AMap.getD (s.ctxOf o.owner).quotas 2 {}).cap with
    | some c => decide (c < s.granulesUsed o.owner 2 + 1)
    | none => false
  else false

/-- The next flash granule of mover `m` is programmed and acknowledged, its map change journaled (R430 to R432, R436, R439). -/
def granuleWrite (s : State) (m : Nat) : State :=
  match s.mover? m with
  | some x =>
    match x.out with
    | [] => s
    | (g, n, bs) :: rest =>
      let c := s.rotate s.flash.next
      if s.moverHeld m x || !s.flag Reg.FL_STAT.READY || s.working.isEmpty || (s.channel c).reclaim || s.readWaits c then s
      else
        let lost := (bs.filter Option.isSome).length
        let pop (s : State) : State := (s.onMover m fun y => { y with out := rest, pos := y.pos + n }).moveOver m
        let mapped := s.flash.map.any fun e => e.1 == g
        if !s.ownCheck (ctxidOf x.desc) ((flashBase + g * 65536) / 2 ^ 21) true then
          pop (s.addLoss x.queue x.seq { dropped := lost })
        else if !mapped && 56 * 2 ^ 24 ≤ s.flash.map.length then (s.raise Reg.FL_STAT.FULL).abortMove m 0x22
        else if !mapped && s.capFull g then s.abortMove m 0x22
        else
          let base := flashBase + g * 65536
          let s := bs.zipIdx.foldl (fun (s : State) p => match p.1 with
            | some b => s.memPut (base + p.2) b
            | none => s) s
          let opens := Config.flashOpens c (s.channel c).programs
          let s := s.onChannel c fun y =>
            let e := if opens then y.erased - 1 else y.erased
            { y with programs := y.programs + 1, erased := e, reclaim := y.reclaim || decide (e < s.get Reg.FL_CTL.RECLAIM) }
          let s : State := { s with flash := { s.flash with map := AMap.put s.flash.map g c, next := (c + 1) % 32 } }
          pop (s.joinStripe g c).journal
  | none => s

/-- Blocks have been erased: FL_LIFE follows (Table 14.4). -/
def erased (s : State) (n : Nat) : State :=
  let s : State := { s with flash := { s.flash with erases := s.flash.erases + n } }
  s.set Reg.FL_LIFE.PCT (min 255 (Config.flashLife s.flash.erases))

/-- A block of a channel is relocated (R433): its data is unchanged. -/
def relocate (s : State) (c b : Nat) : State :=
  (s.onChannel c fun y => { y with reads := AMap.erase y.reads b, wear := AMap.put y.wear b (AMap.getD y.wear b 0 + 1) }).bump
    Reg.FL_RELOC_CNT.COUNT |>.erased 1

/-- Reclaim on a channel erases blocks (R432): it goes ahead of writes until twice the low mark are erased. -/
def reclaimed (s : State) (c : Nat) (bs : List Nat) : State :=
  let low := s.get Reg.FL_CTL.RECLAIM
  let n := bs.length
  let s := s.onChannel c fun y =>
    let e := y.erased + n
    { y with
      reads := bs.foldl (fun m b => AMap.erase m b) y.reads
      wear := bs.foldl (fun m b => AMap.put m b (AMap.getD m b 0 + 1)) y.wear
      erased := e, reclaim := if 2 * low ≤ e then false else y.reclaim || decide (e < low) }
  s.erased n

/-- A channel fails (R435). -/
def channelFails (s : State) (c : Nat) : State :=
  ((s.set (Reg.FL_CHSTAT.STATE c) 2).raise Reg.FL_STAT.DEGRADED).assertSource 65

/-- The granules of a failed channel have been rewritten on the working channels in rotation (R431, R435). -/
def rewritten (s : State) (c : Nat) : State :=
  let s := s.set (Reg.FL_CHSTAT.STATE c) 3
  let s := (s.flash.map.filter fun p => p.2 == c).foldl (fun (s : State) p =>
    let n := s.rotate s.flash.next
    State.journal (State.joinStripe { s with flash := { s.flash with map := AMap.put s.flash.map p.1 n, next := (n + 1) % 32 } } p.1 n)) s
  s.setFlag Reg.FL_STAT.DEGRADED ((List.range 32).any fun i => s.get (Reg.FL_CHSTAT.STATE i) == 2)

/-- The map is restored (R436). -/
def mapRestored (s : State) : State :=
  let s := (List.range 32).foldl (fun (s : State) c =>
    let s := if s.get (Reg.FL_CHSTAT.STATE c) = 0 then s.set (Reg.FL_CHSTAT.STATE c) 1 else s
    s.onChannel c fun y =>
      let e := Config.flashErased c
      { y with erased := e, reclaim := decide (e < s.get Reg.FL_CTL.RECLAIM) }) s
  s.raise Reg.FL_STAT.READY

/-! ## The end of a move -/

/-- A move's stores have all been acknowledged or discarded. -/
def moveDrained (s : State) (m : Nat) : Bool := !(s.order.out.any fun x => x.unit == .mover m && x.write)

/-- The end of a move (R428): the post, then the record; the mover is free, and queues that wait for one try again (R421). -/
def moveEnd (s : State) (m : Nat) : State :=
  match s.mover? m with
  | some x =>
    if x.done && s.moveDrained m then
      let mine := s.order.out.filter fun y => y.unit == .mover m
      let s : State := { s with
        movers := AMap.erase s.movers m
        order := { s.order with
          out := s.order.out.filter fun y => !(y.unit == .mover m)
          late := s.order.late ++ (mine.filter fun y => y.got.isNone).map fun y => y.id } }
      (((s.resumeDone (.mover m)).parcelPost x.desc).endFlight x.queue x.seq).slotsFreed
    else s
  | none => s

/-- Another request is made of flash channel `c` than mover `m`'s own read. -/
def channelBusy (s : State) (m c : Nat) : Bool :=
  (s.channel c).reclaim || s.movers.any fun p => p.1 != m && (p.2.want.any (fun g => AMap.getD s.flash.map g 0 == c)
    || (!p.2.out.isEmpty && s.rotate s.flash.next == c))

/-- The stall causes of a move with the tiers that it touches (Table 14.2, R441): a flash channel busy with other requests beyond the
42 µs of an idle read, channels throttled for heat, reclaim ahead of its writes, the rebuild of a failed channel's granule, the quota,
the map. -/
def stallCauses (s : State) (m : Nat) (x : Mover) : List (Nat × Nat) :=
  if opOf x.desc != 0x30 || x.done then []
  else
    let c := ctxidOf x.desc
    let at_ (e : Nat × Bool) : List (Nat × Nat) :=
      match s.segCheck c (e.1 + (if parcelLayout x.desc = 0 then x.pos else 0)) 1 e.2 true with
      | some (false, t, a) => if t < 3 then [(t, a)] else []
      | _ => []
    let es := (endpoints x.desc).flatMap at_
    let tiers := (es.map (·.1)).eraseDups
    let hot := es.filterMap fun e =>
      if e.1 < 2 && s.coherent e.2 && s.flag (Reg.MEM_DSTAT.THROT (s.place e.2).1) then some (e.1, 1) else none
    let notReady := if tiers.contains 2 && !s.flag Reg.FL_STAT.READY then [(2, 6)] else []
    let reclaim := if !x.out.isEmpty && (s.channel (s.rotate s.flash.next)).reclaim then [(2, 3)] else []
    let reads := match x.want with
      | g :: _ =>
        let c := AMap.getD s.flash.map g 0
        if s.get (Reg.FL_CHSTAT.STATE c) = 2 then [(2, 4)]
        else (if s.channelBusy m c && decide (42000 < s.now - x.wantAt) then [(2, 0)] else [])
          ++ (if 85 < s.get (Reg.FL_CHSTAT.TEMP c) then [(2, 1)] else [])
      | [] => []
    let writes := if !x.out.isEmpty && decide (85 < s.get (Reg.FL_CHSTAT.TEMP (s.rotate s.flash.next))) then [(2, 1)] else []
    let quota := tiers.filterMap fun t =>
      let b := (AMap.getD (s.ctxOf c).quotas t {}).moveb
      if b != 0 && b < AMap.getD s.flash.rate (4 * c + t) 0 + 65536 then some (t, 5) else none
    hot ++ notReady ++ reclaim ++ reads ++ writes ++ quota

/-- PM_STALL_CNT at a whole microsecond of node time (R441). -/
def stallCount (s : State) : State :=
  let cs := (s.movers.flatMap fun p => s.stallCauses p.1 p.2).eraseDups
  cs.foldl (fun (s : State) x => s.bump (Reg.PM_STALL_CNT.COUNT (8 * x.1 + x.2))) s

end State

/-! ## Rows -/

/-- LINEAR (R424). -/
def execLinear (mover : Fin 32) (s : State) : Host.Outcome State Fault Refusal := .next (s.linearStep mover)

/-- PACK (R425). -/
def execPack (mover : Fin 32) (s : State) : Host.Outcome State Fault Refusal := .next (s.packStep mover)

/-- UNPACK (R426). -/
def execUnpack (mover : Fin 32) (s : State) : Host.Outcome State Fault Refusal := .next (s.unpackStep mover)

/-- TRIM (R427). -/
def execTrim (mover : Fin 32) (s : State) : Host.Outcome State Fault Refusal := .next (s.trimStep mover)

/-- COPY (R94). -/
def execCopy (mover : Fin 32) (s : State) : Host.Outcome State Fault Refusal := .next (s.copyStep mover)

/-- FILL (R94). -/
def execFill (mover : Fin 32) (s : State) : Host.Outcome State Fault Refusal := .next (s.fillStep mover)

/-- MOVE_COMPLETE (R428). -/
def execMoveComplete (mover : Fin 32) (s : State) : Host.Outcome State Fault Refusal := .next ((s.moveEnd mover).settle s)

/-- FLASH_GRANULE_READ (R434). -/
def execFlashGranuleRead (mover : Fin 32) (outcome : FlashOutcome) (s : State) : Host.Outcome State Fault Refusal :=
  .next (s.granuleRead mover outcome)

/-- FLASH_GRANULE_WRITE (R430, R431, R436, R437). -/
def execFlashGranuleWrite (mover : Fin 32) (s : State) : Host.Outcome State Fault Refusal := .next (s.granuleWrite mover)

/-- FLASH_RECLAIM (R432): the blocks named are erased. -/
def execFlashReclaim (ch : Fin 32) (blocks : List Nat) (s : State) : Host.Outcome State Fault Refusal :=
  if s.background ch then .next (s.reclaimed ch blocks) else .next s

/-- READ_DISTURB_RELOCATION (R433): of a block whose reads have reached the threshold. -/
def execReadDisturbRelocation (ch : Fin 32) (block : Nat) (s : State) : Host.Outcome State Fault Refusal :=
  if s.background ch && decide (s.get Reg.FL_CTL.RDTHR * 1000 ≤ AMap.getD (s.channel ch).reads block 0) then .next (s.relocate ch block) else .next s

/-- WEAR_LEVELLING (R433). -/
def execWearLevelling (ch : Fin 32) (block : Nat) (s : State) : Host.Outcome State Fault Refusal :=
  if s.background ch then .next (s.relocate ch block) else .next s

/-- FLASH_CHANNEL_FAILURE (R435): of a working channel. -/
def execFlashChannelFailure (ch : Fin 32) (s : State) : Host.Outcome State Fault Refusal :=
  if s.get (Reg.FL_CHSTAT.STATE ch) = 1 then .next (s.channelFails ch) else .next s

/-- CHANNEL_REWRITTEN (R435): of a failed channel. -/
def execChannelRewritten (ch : Fin 32) (s : State) : Host.Outcome State Fault Refusal :=
  if s.get (Reg.FL_CHSTAT.STATE ch) = 2 && !s.working.isEmpty then .next (s.rewritten ch) else .next s

/-- MAP_CHECKPOINT (R436): the entries journaled before it are no longer needed. -/
def execMapCheckpoint (s : State) : Host.Outcome State Fault Refusal :=
  if s.flag Reg.FL_STAT.READY then .next { s.mapRead with flash := { s.mapRead.flash with journal := 0 } } else .next s

/-- FLASH_MAP_RESTORE_DONE (R436): once training has ended (Table 20.3). -/
def execFlashMapRestoreDone (s : State) : Host.Outcome State Fault Refusal :=
  if !s.flag Reg.FL_STAT.READY && 3 ≤ s.get Reg.ST_STAT.STATE && s.get Reg.ST_STAT.STATE ≤ 5 then .next s.mapRestored else .next s

end Sys2Proof.Machine
end

