-- ==== Sys2Proof/Machine/Links.lean ====
section
/-! DEFINITION. Interposer links, targeted self-tests, the guest die and the beat of a round (chapter 15; R52, R53, R57 to R59, R333,
R457, R500, R510, R511). -/

namespace Sys2Proof.Machine

/-! ## Flits (R445 to R447) -/

/-- CRC-64 of bits [1983:0] of a flit (R446): from bit 0 upward, nothing reflected, all ones at first, inverted at the end. -/
def flitCrc (f : BitVec 2048) : BitVec 64 :=
  ~~~ (List.range 1984).foldl (fun (r : BitVec 64) i =>
    if r.msb != f.getLsbD i then (r <<< 1) ^^^ 0x42F0E1EBA9EA3693 else r <<< 1) (BitVec.allOnes 64)

def flitCrcGood (f : BitVec 2048) : Bool := f.extractLsb' 1984 64 == flitCrc f

/-- SEQ, ACK, NAK, NSLOT, the credits of a channel, the slots that hold headers and a slot (Table 15.2). -/
def flitSeq (f : BitVec 2048) : Nat := (f.extractLsb' 57 7).toNat
def flitAck (f : BitVec 2048) : Nat := (f.extractLsb' 50 7).toNat
def flitCredits (f : BitVec 2048) (vc : Nat) : Nat := (f.extractLsb' (42 - 3 * vc) 3).toNat
def flitHeader (f : BitVec 2048) (n : Nat) : Bool := f.getLsbD (15 + n) || f.getLsbD n
def flitSlot (f : BitVec 2048) (n : Nat) : BitVec 128 := f.extractLsb' (64 + 128 * n) 128
def flitNak (f : BitVec 2048) : Bool := f.getLsbD 49
def flitSlots (f : BitVec 2048) : Nat := (f.extractLsb' 45 4).toNat

/-- The other direction of a link. -/
def otherDir (d : Nat) : Nat := if d % 2 = 0 then d + 1 else d - 1

/-- Units of the message that began last, after a flit's slots (R448). -/
def flitUnits (f : BitVec 2048) (us : List (BitVec 128)) : List (BitVec 128) :=
  (List.range (flitSlots f)).foldl (fun us n => if flitHeader f n then [flitSlot f n] else us ++ [flitSlot f n]) us

/-- The transmitter hears of a flit of the other direction: ACK empties the replay buffer up to the flit it covers, NAK asks for the
rest again, and CRD returns credits (R447, Table 15.2). -/
def LinkDir.hears (x : LinkDir) (f : BitVec 2048) : LinkDir :=
  let left := x.replay.filter fun g => decide (64 ≤ (flitAck f + 128 - flitSeq g) % 128)
  { x with
    replay := left
    again := if flitNak f then left else x.again.filter fun g => left.contains g
    credits := (List.range 5).foldl (fun m vc =>
      if flitCredits f vc = 0 then m else AMap.put m vc (AMap.getD m vc 0 + flitCredits f vc)) x.credits }

/-- A flit with slots reaches the receiver: accepted only in sequence (R447). The transmitter has stored it. -/
def LinkDir.receives (x : LinkDir) (f : BitVec 2048) : LinkDir :=
  let seq := flitSeq f
  let x := { x with
    replay := if x.replay.any fun g => flitSeq g == seq then x.replay else x.replay ++ [f]
    again := x.again.filter fun g => flitSeq g != seq }
  if seq = (x.rx + 1) % 128 then { x with rx := seq, nak := false, units := flitUnits f x.units } else { x with nak := true }

/-- The transmitter can have sent a flit: its replay buffer of 64 flits has room for a new one (R447). -/
def LinkDir.canSend (x : LinkDir) (f : BitVec 2048) : Bool :=
  !flitCrcGood f || flitSlots f == 0 || x.replay.any (fun g => flitSeq g == flitSeq f) || decide (x.replay.length < 64)

namespace State

/-- A flit arrives on direction `d` (R446, R447): one whose CRC fails is discarded; its ACK, NAK and CRD are for the transmitter of the
other direction, and its slots for the receiver. -/
def flitArrives (s : State) (d : Nat) (f : BitVec 2048) : State :=
  if !flitCrcGood f then
    (s.onLink d fun x => { x with nak := true, errored := true }).bump (Reg.LR_CRC_CNT.COUNT d)
  else
    let s := s.onLink (otherDir d) fun x => x.hears f
    let s := if flitNak f then s.bump (Reg.LR_REPLAY_CNT.COUNT (otherDir d)) else s
    if flitSlots f = 0 then s else s.onLink d fun x => x.receives f

/-! ## Recalibration (R452) -/

/-- A link has discarded a flit since its last recalibration. -/
def linkErrored (s : State) (l : Nat) : Bool := (s.link (2 * l)).errored || (s.link (2 * l + 1)).errored

/-- A maintenance beat takes at most one hub link and one ring link out of service: one that has discarded a flit, else the next in
rotation (R452, R58). -/
def startRecal (s : State) : State :=
  let pick (base next : Nat) : Nat × Nat :=
    match (List.range 4).find? fun i => s.linkErrored (base + i) with
    | some i => (base + i, next)
    | none => (base + next, (next + 1) % 4)
  let (h, nh) := pick 0 s.repair.nextHub
  let (r, nr) := pick 4 s.repair.nextRing
  { s with repair := { s.repair with
      recal := s.repair.recal ++ [h, r].filter fun l => !s.repair.recal.contains l
      nextHub := nh, nextRing := nr } }

/-- A failed wire or bundle of direction `d` is spared or retired (R449). -/
def wireFails (d : Nat) (x : LinkDir) : UnitRef → LinkDir
  | .wire d' b w =>
    let k := b.val * 36 + w.val
    if d'.val = d && !x.wires.contains k then { x with wires := x.wires ++ [k] } else x
  | .bundle d' b => if d'.val = d && !x.bundles.contains b.val then { x with bundles := x.bundles ++ [b.val] } else x
  | _ => x

/-- A retirement has taken effect (R458). -/
def retirement (s : State) : State := ((s.bump Reg.LR_RETIRE_CNT.COUNT).raise Reg.LR_STAT.RETIRED).signal 68

/-- The end of the recalibration of link `l` (R452). -/
def recalEnds (s : State) (l : Nat) (failed : List UnitRef) : State :=
  if !s.repair.recal.contains l then s
  else
    let old := s
    let errored := s.linkErrored l
    let s : State := { s with repair := { s.repair with recal := s.repair.recal.erase l } }
    let one (s : State) (d : Nat) : State :=
      (s.onLink d fun x => { failed.foldl (wireFails d) x with errored := false, again := x.replay }).bump (Reg.LR_RECAL_CNT.COUNT d)
    let s := one (one s (2 * l)) (2 * l + 1)
    let s := (failed.filter fun u => match u with
      | .wire d _ _ => d.val / 2 == l
      | _ => false).foldl passIdentity s
    let spared := (s.link (2 * l)).wires != (old.link (2 * l)).wires || (s.link (2 * l)).bundles != (old.link (2 * l)).bundles
      || (s.link (2 * l + 1)).wires != (old.link (2 * l + 1)).wires
      || (s.link (2 * l + 1)).bundles != (old.link (2 * l + 1)).bundles
    let s := if spared then s.retirement else if errored then s.bump Reg.LR_TRANS_CNT.COUNT else s
    s.linksChanged old

/-! ## Targeted self-tests (R457 to R461) -/

/-- Logical tile that a physical tile carries. -/
def logicalOf (s : State) (d t : Nat) : Option Nat :=
  (List.range 256).find? fun n => s.physTile n == 36 * d + t && (s.tile n).mode != .absent

/-- A logical tile holds work (R59, R457). -/
def holdsWork (s : State) (n : Nat) : Bool := !((s.tile n).slots.isEmpty && (s.tile n).waiting.isEmpty)

/-- Errors name the units that the next maintenance beat tests; corrections traced to a bond group do so above CEBOND in a round
(Table 15.4). A correction counts at its tile (R147). A parity error of columns or lanes, and one of a tile's register files or caches,
ends the tile's part by a fatal trap (R122). -/
def nameUnits (s : State) (errors corrections : List UnitRef) : State :=
  let s := corrections.foldl (fun (s : State) u =>
    match u with
    | .bondGroup d t _ =>
      match s.logicalOf d t with
      | some n => s.bump (Reg.CT_SPCORR_CNT.COUNT n)
      | none => s
    | _ => s) s
  let s := errors.foldl (fun (s : State) u =>
    match u with
    | .column d t _ _ | .lane d t _ | .tile d t =>
      match s.logicalOf d t with
      | some n => s.fatalTrap n
      | none => s
    | _ => s) s
  let bond := s.repair.bond ++ corrections
  let thr := s.get Reg.LR_CTL.CEBOND
  let over_ := corrections.filter fun u => thr != 0 && decide (thr < (bond.filter (· == u)).length)
  let named := ((errors.filter fun u => !(unitTiles u).isEmpty) ++ over_).filter fun u => !(s.repair.tests.any fun t => t.1 == u)
  { s with repair := { s.repair with bond := bond, tests := s.repair.tests ++ named.eraseDups.map fun u => (u, none) } }

/-- Copies of lines go bad: at a caching agent, or in the home portion of a home (R363; Log 124). -/
def spoilCopies (s : State) (cs : List (BitVec 6 × BitVec 45)) : State :=
  cs.foldl (fun (s : State) p =>
    let line := p.2.toNat
    if p.1.toNat < 0x24 then
      match s.cline p.1.toNat line with
      | some c =>
        { s with coh := { s.coh with lines := AMap.put s.coh.lines (clineKey p.1.toNat line) { c with bad := true } } }
      | none => s
    else if p.1.toNat = 0x28 + s.homeOf line && (s.copy? line).isSome then
      { s with coh := { s.coh with badHome := if s.coh.badHome.contains line then s.coh.badHome else line :: s.coh.badHome } }
    else s) s

/-- Words of scratchpads go bad (R147; Log 57). -/
def spoilWords (s : State) (ws : List (Fin 256 × Fin (2 ^ 20))) : State :=
  ws.foldl (fun (s : State) w => s.onTile w.1 fun x => { x with spBad := x.spBad.filter (· != w.2.val) ++ [w.2.val] }) s

/-- The fence bit of a unit is set (R463). -/
def fenced (s : State) : UnitRef → Bool
  | .tile d t => s.repair.retired.contains (36 * d + t)
  | .core c => s.repair.retiredCores.contains c.val
  | .router d c => s.repair.retiredRouters.contains (9 * d + c)
  | _ => false

/-- Messages that fenced units emit are dropped at the router stop (R463, Table 21.2). -/
def fenceDrops (s : State) (ms : List (UnitRef × BitVec 32)) : State :=
  ms.foldl (fun (s : State) m =>
    if s.fenced m.1 then
      let e := unitEntry m.1
      (s.bump Reg.LR_FENCEDROP_CNT.COUNT).deadLetter
        { postmark := 0, num := 0, cause := 5, kind := 7, unit := 0xFF, phys := 2 ^ 24 * e.2.1 + e.2.2, ctx := 0, queue := 0
          seq := 0, bytes := m.2.toNat, addr := 0, age := 0, node := 0, tout := 0, merged := 0 }
    else s) s

/-- The tests whose units hold no work start; the others are deferred to the maintenance beats of the next round (R59, R457). -/
def startTests (s : State) : State :=
  let idle (u : UnitRef) : Bool := (unitTiles u).all fun p => match s.logicalOf p.1 p.2 with
    | some n => !s.holdsWork n
    | none => true
  let open_ (t : UnitRef × Option Nat) : Bool := t.2 != some s.round
  let go := (s.repair.tests.filter fun t => open_ t && idle t.1).map (·.1)
  { s with repair := { s.repair with
      tests := (s.repair.tests.filter fun t => !(open_ t && idle t.1)).map fun t => (t.1, some s.round)
      testing := s.repair.testing ++ go.filter fun u => !s.repair.testing.contains u } }

/-- Logical tile `n` passes to physical tile `p`, which clears itself (R459). -/
def moveTile (s : State) (n p : Nat) : State :=
  let s : State := { s with repair := { s.repair with
    phys := AMap.put s.repair.phys n p, moved := s.repair.moved ++ [(n, p)] } }
  s.onTile n fun _ => { mode := .clearing s.time.cycle (AMap.get? s.sorter.members n), spLost := some s.ident.losses }

/-- Logical tile `n` has no tile (R461). -/
def loseTile (s : State) (n : Nat) : State := (s.onTile n fun x => { x with mode := .absent }).raise Reg.LR_STAT.NOSPARE

/-- Physical tile `p` is retired (R459, R461, R463): its logical number passes to the lowest-numbered free spare tile of its die, or to
one that a higher number has taken in the same beat (R460), or has no tile. -/
def retireTile (s : State) (p : Nat) : State :=
  if s.repair.retired.contains p then s
  else
    let d := p / 36
    let s : State := { s with repair := { s.repair with retired := s.repair.retired ++ [p] } }
    match s.logicalOf d (p % 36) with
    | none => s.retirement
    | some n =>
      let used := (List.range 32).filterMap fun i =>
        if (s.tile (32 * d + i)).mode == .absent then none else some (s.physTile (32 * d + i))
      match (List.range 36).find? fun t => !s.repair.retired.contains (36 * d + t) && !used.contains (36 * d + t) with
      | some t => (s.moveTile n (36 * d + t)).retirement
      | none =>
        match s.repair.moved.find? fun m => decide (n < m.1) && m.1 / 32 == d && !s.repair.retired.contains m.2 with
        | some m => (((s.loseTile m.1).moveTile n m.2).retirement).signal 10
        | none => ((s.loseTile n).retirement).signal 10

/-- Inserts physical tile `p` among others in the order of the logical numbers that they carry. -/
def insertByLogical (s : State) (p : Nat) : List Nat → List Nat
  | [] => [p]
  | q :: rest =>
    if (s.logicalOf (p / 36) (p % 36)).getD 256 ≤ (s.logicalOf (q / 36) (q % 36)).getD 256 then p :: q :: rest
    else q :: s.insertByLogical p rest

/-- Elements are retired to spares of their groups, and the tiles that then fall short (R456, R458). -/
def retireElements (s : State) (us : List UnitRef) : State :=
  let new := us.filter fun u => !s.repair.elements.contains u
  let s : State := { s with repair := { s.repair with elements := s.repair.elements ++ new } }
  let hit := (new.flatMap unitTiles).eraseDups
  let down := (hit.filter fun p => tileBad s.repair.elements (Fin.ofNat 8 p.1) (Fin.ofNat 36 p.2)).map fun p => 36 * p.1 + p.2
  let routers := new.filterMap fun u => match u with
    | .router d c => some (9 * d.val + c.val)
    | .routerGroup d c _ => some (9 * d.val + c.val)
    | _ => none
  let s : State := { s with repair := { s.repair with
    retiredRouters := s.repair.retiredRouters ++ routers.filter fun r => !s.repair.retiredRouters.contains r } }
  let s := new.foldl passIdentity s
  if down.isEmpty then s.retirement
  else
    -- the lower logical number chooses first (R460)
    (down.foldr s.insertByLogical []).foldl retireTile s

/-- Times that a unit has been classed transient within the last 1,024 rounds (R458). -/
def transientCount (s : State) (u : UnitRef) : Nat :=
  (s.repair.transients.filter fun p => p.1 == u && decide ((s.round + 2 ^ 48 - p.2) % 2 ^ 48 < 1024)).length

/-- The test of a unit ends (R458). -/
def testEnds (s : State) (u : UnitRef) (failed : List UnitRef) : State :=
  if !s.repair.testing.contains u then s
  else
    let thr := s.get Reg.LR_CTL.TRTHR
    let lasting := thr != 0 && decide (thr ≤ s.transientCount u)
    let s : State := { s with repair := { s.repair with testing := s.repair.testing.erase u } }
    let mine := failed.filter fun v => (unitTiles v).any fun p => (unitTiles u).contains p
    if mine.isEmpty && !lasting then
      { s.bump Reg.LR_TRANS_CNT.COUNT with repair := { s.repair with
          transients := (u, s.round) :: s.repair.transients.filter fun p =>
            decide ((s.round + 2 ^ 48 - p.2) % 2 ^ 48 < 1024) } }
    else s.retireElements (if mine.isEmpty then [u] else mine)

/-! ## The beat of a round -/

/-- The beat of the present round in which node time stands (R52). -/
def beatNow (s : State) : Nat := (s.now - s.time.tickBase) / 2000

/-- A beat of the present round is due: node time stands in one that has not begun. Beats that a forward step has passed over do not
begin any more (R52, R58; Log 105). -/
def beatDue (s : State) : Bool :=
  s.flag Reg.RND_CTL.EN && s.time.ticked && !s.tickDue && decide (s.time.beats ≤ s.beatNow)
    && decide (s.beatNow < s.get Reg.RND_PERIOD.PERIOD / 2)

/-- LOC of the sensor that trips (Table 20.2), with its reading: a die at 115 °C, or an HBM stack at 110 °C. -/
def tripOf (x : BeatReadings) : Option (Nat × Int) :=
  let die := x.dies.zipIdx.findSome? fun p =>
    if 115 ≤ p.1 then some (if p.2 < 8 then p.2 else if p.2 < 12 then 0x10 + (p.2 - 8) else 0x20, p.1) else none
  match die with
  | some t => some t
  | none => (x.memories.take 8).zipIdx.findSome? fun p => if 110 ≤ p.1 then some (0x10 + p.2 / 2, p.1) else none

/-- A thermal trip (R511). -/
def thermalTrip (s : State) (x : BeatReadings) (t : Nat × Int) : State :=
  let s := (s.assertSource 2).railsOff .trip
  { s with power := { s.power with trip := some (t.1, t.2 :: (x.dies ++ x.memories)) } }

/-- What a beat brings (R52, R58, R328, R333, R452, R457, R500, R501, R510, R511). In Nap and Night nothing runs but the count of
beats. -/
def beat (s : State) (x : BeatReadings) : State :=
  let maint := s.maintBeat
  let s : State := { s with time := { s.time with beats := s.beatNow + 1 }, repair := { s.repair with moved := [] } }
  if s.power.sleep == .nap || s.power.sleep == .night then s
  else
    match tripOf x with
    | some t => s.thermalTrip x t
    | none =>
      let s := s.powerBeat x
      let s := (x.memories.take 24).zipIdx.foldl (fun (s : State) p => s.memTemp p.2 p.1) s
      let s := (x.flash.take 32).zipIdx.foldl (fun (s : State) p => s.set (Reg.FL_CHSTAT.TEMP p.2) (p.1 % 256).toNat) s
      let s := ((s.spoilWords x.spoilt).spoilCopies x.badCopies).nameUnits x.errors x.corrections
      let s := s.fenceDrops x.fenced
      if maint then ((s.scrubStep).startRecal).startTests else s

/-! ## The customs gate (R465 to R469) -/

/-- Fields of a guest message header (Table 15.6). -/
def guestLen (h : BitVec 128) : Nat := (h.extractLsb' 84 7).toNat + 1
def guestAddr (h : BitVec 128) : Nat := (h.extractLsb' 32 52).toNat
def guestCtx (h : BitVec 128) : Nat := (h.extractLsb' 16 16).toNat
def guestOp (h : BitVec 128) : Nat := (h.extractLsb' 0 4).toNat

/-- A request is well formed (R466). -/
def guestFormed (r : GuestReq) : Bool :=
  let h := r.hdr
  !r.bad && h.extractLsb' 91 37 == 0 && 1 ≤ guestOp h && guestOp h ≤ 3 && decide (guestAddr h % 128 + guestLen h ≤ 128)
    && (guestOp h == 1 || r.bytes.length == guestLen h)

/-- The first enabled window that lets in a request (R467). -/
def guestWindow (s : State) (h : BitVec 128) : Option Nat :=
  (List.range 16).find? fun w =>
    s.flag (Reg.CG_WCTL.EN w) && s.get (Reg.CG_WBASE.BASE w) * 4096 ≤ guestAddr h
      && decide (guestAddr h + guestLen h ≤ s.get (Reg.CG_WLAST.LAST w) * 4096 + 4096)
      && s.get (Reg.CG_WCTL.CTXID w) == guestCtx h && (s.get (Reg.CG_WCTL.TYPES w)).testBit (guestOp h - 1)

/-- CG_REFUSE_CNT rises by one; when it passes a multiple of ALARMTHR, source 8 is raised (R467). -/
def gateCount (s : State) : State :=
  let old := s.get Reg.CG_REFUSE_CNT.COUNT
  let thr := s.get Reg.CG_CTL.ALARMTHR
  let s := s.bump Reg.CG_REFUSE_CNT.COUNT
  if thr != 0 && old / thr < s.get Reg.CG_REFUSE_CNT.COUNT / thr then s.assertSource 8 else s

/-- An answer goes to the guest, or is dropped and counted while the link is down (R469). -/
def guestAnswer (s : State) (h : BitVec 128) (op : Nat) (bs : List Byte) : State :=
  if s.flag Reg.CG_STAT.LINKUP then
    let a : BitVec 128 := (h.extractLsb' 0 91).setWidth 128 >>> 4 <<< 4 ||| BitVec.ofNat 128 op
    { s with gate := { s.gate with answers := (a, bs) :: s.gate.answers } }
  else s.gateCount

/-- A passed request is performed by the hub I/O agent with its CTXID (R467). One that the ownership check or the address map refuses,
and an uncorrectable read, is answered as refused (Log 42). -/
def guestPerform (s : State) (r : GuestReq) : State :=
  let h := r.hdr
  let a := guestAddr h
  let n := guestLen h
  if guestOp h = 1 then
    let (bs, _, s) := s.readBytes 1 (guestCtx h) a n
    if bs.all Option.isSome then s.guestAnswer h 4 (bs.map fun b => b.getD 0) else s.guestAnswer h 6 []
  else
    let bs := r.bytes.zipIdx.map fun p => if guestOp h = 2 || r.mask.getLsbD p.2 then some p.1 else none
    let (l, s) := s.writeBytes (guestCtx h) a bs
    s.guestAnswer h (if l.dropped = 0 then 5 else 6) []

/-- The requests at the gate, oldest first, until one waits for its window's allowance (R467, R468). -/
def gateRun (s : State) : List GuestReq → State
  | [] => { s with gate := { s.gate with waiting := [] } }
  | r :: rest =>
    let h := r.hdr
    if !s.flag Reg.CG_CTL.EN || !guestFormed r then ((s.guestAnswer h 6 []).gateCount).gateRun rest
    else
      match s.guestWindow h with
      | none => ((s.guestAnswer h 6 []).gateCount).gateRun rest
      | some w =>
        if s.granuleHeld (guestAddr h) (guestLen h) then { s with gate := { s.gate with waiting := r :: rest } }
        else if s.get (Reg.CG_WCTL.RATE w) = 0 then (s.guestPerform r).gateRun rest
        else
          let have_ := AMap.getD s.gate.allowance w 0
          if have_ < guestLen h then { s with gate := { s.gate with waiting := r :: rest } }
          else
            let s : State := { s with gate := { s.gate with allowance := AMap.put s.gate.allowance w (have_ - guestLen h) } }
            (s.guestPerform r).gateRun rest

/-- A message of the guest die arrives, while its link is up. -/
def guestArrives (s : State) (r : GuestReq) : State :=
  if !s.flag Reg.CG_STAT.LINKUP then s
  else if s.gate.waiting.isEmpty then s.gateRun [r]
  else { s with gate := { s.gate with waiting := s.gate.waiting ++ [r] } }

/-- The whole microseconds of node time since the last refill (R468). -/
def refill (s : State) : State :=
  let n := s.now / 1000 - s.gate.refilled
  if n = 0 then s
  else
    let s : State := { s with gate := { s.gate with
      refilled := s.now / 1000
      allowance := (List.range 16).foldl (fun m w =>
        let r := 64 * s.get (Reg.CG_WCTL.RATE w)
        if r = 0 then m else AMap.put m w (min (16 * r) (AMap.getD m w 0 + n * r))) s.gate.allowance } }
    let s := if s.gate.waiting.isEmpty then s else s.bump Reg.CG_HOLD_CNT.COUNT n
    s.gateRun s.gate.waiting

end State

/-! ## Rows -/

/-- BEAT_START (R52). -/
def execBeatStart (r : BeatReadings) (s : State) : Host.Outcome State Fault Refusal :=
  if s.beatDue then .next (s.beat r) else .next s

/-- FLIT_RECEIVE (R446 to R448): on a trained direction that is not being recalibrated, a flit that its transmitter can have sent. -/
def execFlitReceive (direction : Fin 16) (flit : BitVec 2048) (s : State) : Host.Outcome State Fault Refusal :=
  if (s.link direction).trained && !s.repair.recal.contains (direction / 2) && (s.link direction).canSend flit then .next (s.flitArrives direction flit) else .next s

/-- RECALIBRATION_END (R449 to R452). -/
def execRecalibrationEnd (link : Fin 8) (failed : List UnitRef) (s : State) : Host.Outcome State Fault Refusal :=
  .next (s.recalEnds link failed)

/-- SELF_TEST_END (R458 to R461). -/
def execSelfTestEnd (unit : UnitRef) (failed : List UnitRef) (s : State) : Host.Outcome State Fault Refusal :=
  .next (s.testEnds unit failed)

/-- NODE_CORE_MACHINE_CHECK (R462): reported to the node operating system by an exception of the hart, which it takes in M-mode; the
core is not retired. -/
def execNodeCoreMachineCheck (h : Fin 32) (s : State) : Host.Outcome State Fault Refusal :=
  .next ((s.bump Reg.LR_TRANS_CNT.COUNT).onHart h fun x =>
    { x with resv := none, mode := .machine, checks := x.checks + 1 })

/-- GUEST_READ (R466 to R468). -/
def execGuestRead (hdr : BitVec 128) (s : State) : Host.Outcome State Fault Refusal :=
  .next (s.guestArrives { hdr := hdr, bad := State.guestOp hdr != 1 })

/-- GUEST_WRITE (R466 to R468). -/
def execGuestWrite (hdr : BitVec 128) (bytes : List Byte) (s : State) : Host.Outcome State Fault Refusal :=
  .next (s.guestArrives { hdr := hdr, bytes := bytes, bad := State.guestOp hdr != 2 })

/-- GUEST_MASKED_WRITE (R466 to R468). -/
def execGuestMaskedWrite (hdr : BitVec 128) (bytes : List Byte) (mask : BitVec 128) (s : State) :
    Host.Outcome State Fault Refusal :=
  .next (s.guestArrives { hdr := hdr, bytes := bytes, mask := mask, bad := State.guestOp hdr != 3 })

/-- MALFORMED_GUEST_MESSAGE (R466, R467). -/
def execMalformedGuestMessage (hdr : BitVec 128) (s : State) : Host.Outcome State Fault Refusal :=
  .next (s.guestArrives { hdr := hdr, bad := true })

/-- ALLOWANCE_REFILL (R468). -/
def execAllowanceRefill (s : State) : Host.Outcome State Fault Refusal := .next s.refill

/-- UCIE_LINK_DOWN (R469). -/
def execUcieLinkDown (s : State) : Host.Outcome State Fault Refusal :=
  if s.flag Reg.CG_STAT.LINKUP then .next ((s.setFlag Reg.CG_STAT.LINKUP false).assertSource 8) else .next s

/-- UCIE_LINK_UP (R465): a guest die is fitted, the port is enabled, and the device is not in Nap or Night. -/
def execUcieLinkUp (s : State) : Host.Outcome State Fault Refusal :=
  if s.ident.guest && s.flag Reg.CG_CTL.EN && s.power.sleep != .nap && s.power.sleep != .night then
    .next (s.setFlag Reg.CG_STAT.LINKUP true)
  else .next s

end Sys2Proof.Machine
end

