-- ==== Sys2Proof/Machine/PowerStates.lean ====
section
/-! DEFINITION. Rows of the event controller's input (chapter 16), supply loss, and Doze, Nap and Night (chapter 17). -/

namespace Sys2Proof.Machine

/-! ## Event controller -/

/-- EVENT_SIGNAL (R472): the oldest message of source `n` reaches the controller's input. -/
def execEventSignal (n : BitVec 10) (s : State) : Host.Outcome State Fault Refusal :=
  if n.toNat ∈ s.ec.signals then
    .next (({ s with ec := { s.ec with signals := s.ec.signals.erase n.toNat } }).assertSource n.toNat)
  else .next s

/-- SOURCE_ASSERT (R471, R473): the event of a source occurs. -/
def execSourceAssert (n : BitVec 10) (s : State) : Host.Outcome State Fault Refusal := .next (s.assertSource n.toNat)

/-- MSIX_PBA_SEND (R478). -/
def execMsixPbaSend (v : Fin 256) (s : State) : Host.Outcome State Fault Refusal :=
  if s.ec.pba.contains v.val && s.msixReady v.val && s.presenting (65 + v.val) then .next (s.msixSend v.val) else .next s

/-! ## Supply loss -/

/-- SUPPLY_LOSS (R509): a device that is off already changes nothing. -/
def execSupplyLoss (s : State) : Host.Outcome State Fault Refusal :=
  if s.start.off.isSome then .next s else .next (s.railsOff .supply)

/-! ## Doze -/

/-- A tile is idle (R512). -/
def Tile.idle (x : Tile) : Bool :=
  let quiet (e : EngineSt) : Bool := e.queue.isEmpty && e.started.isEmpty
  let drain : Bool := match x.mode with
    | .draining _ => true
    | _ => false
  x.slots.isEmpty && quiet x.ld && quiet x.mx && quiet x.ve && quiet x.st && x.kernel.isNone && !drain

/-- DOZE_ENTRY (R512): the tile has been idle for DOZEIDLE cycles. -/
def execDozeEntry (t : Fin 256) (s : State) : Host.Outcome State Fault Refusal :=
  let x := s.tile t
  if s.flag Reg.PW_CTL.DOZEEN && x.idle && decide (x.idleSince + s.get Reg.PW_CTL.DOZEIDLE ≤ s.time.cycle) then
    .next (s.onTile t fun y => { y with doze := true })
  else .next s

/-! ## Nap and Night -/

namespace State

/-- The node-core boot code in the device-reserved region matches slot 2 (R551). -/
def bootCodeOk (s : State) : Bool :=
  let code := Config.bootCode (s.mem.filter fun c => decide (reservedBase ≤ c.1) && decide (c.1 < tier0End))
  s.slotOf 2 == Config.sm3 (zeroSlot ++ Config.sm3 code)

/-- A line of the saved image reads as uncorrectable (R586). -/
def savedImageBad (s : State) : Bool :=
  s.devs.any fun p => p.2.errors.any fun e => Config.savedLine e.1 && (State.decodeErrors p.1 e.2).2

/-- What follows a wake: a reset that was asked for in Nap or Night (R580). -/
def afterWake (s : State) : State :=
  let a := s.power.after
  let s : State := { s with power := { s.power with after := none } }
  match a with
  | some 2 => s.moduleReset
  | some _ => s.tarleReset
  | none => s

/-- A wake from Night (R516, R551, R586): the harts start at the boot entry, or the wake proceeds as a device-warm reset. -/
def nightWake (s : State) : State :=
  if s.savedImageBad then s.warmStart
  else if !s.bootCodeOk then (s.bump Reg.TRL_AUTHFAIL_CNT.COUNT).warmStart
  else { s with harts := (List.range 32).map fun h => (h, { running := true }) }.toRun

end State

/-- POWER_STATE_ENTRY (R513): the wait of step 2 has ended; every hart waits in WFI (Log 28). -/
def execPowerStateEntry (s : State) : Host.Outcome State Fault Refusal :=
  match s.power.sleep with
  | .entering night _ _ => if s.workDrained then .next (s.sleepNow night) else .next s
  | _ => .next s

/-- POWER_ENTRY_ABANDON (R514). -/
def execPowerEntryAbandon (s : State) : Host.Outcome State Fault Refusal :=
  match s.power.sleep with
  | .entering _ a limit => if a + limit ≤ s.round then .next s.abandonEntry else .next s
  | _ => .next s

/-- WAKE_COMPLETE (R516): a wake that a source has started, or a reset's (R488, R580), reaches Run. -/
def execWakeComplete (s : State) : Host.Outcome State Fault Refusal :=
  if s.ec.wake.isEmpty && s.power.after.isNone then .next s
  else
    match s.power.sleep with
    | .nap => .next s.napWake.afterWake
    | .night => if s.power.after == some 2 then .next s.afterWake else .next s.nightWake.afterWake
    | _ => .next s

end Sys2Proof.Machine
end

