-- ==== Sys2Proof/Machine/HostPort.lean ====
section
/-! DEFINITION. Rows of the host port and of the outbound root ports (chapter 18), and of their IDE streams (R556, R557). -/

namespace Sys2Proof.Machine

namespace State

/-- The hub's rail is on, so that the host port and the root ports run (R509, R511, Tables 17.4, 20.3). -/
def hubOn (s : State) : Bool := s.start.begun && s.power.sleep != .night

/-- Memory answers: a start has reached WAITBUNDLE (R605). -/
def memoryUp (s : State) : Bool :=
  let st := s.get Reg.ST_STAT.STATE
  (3 ≤ st && st ≤ 5) || st == 7

/-! ## Inbound requests (R520, R535) -/

/-- A line of the range is unmapped, RETIRED, or refused by the ownership check (R317, R337, R374). -/
def inboundRefused (s : State) (ctx a n : Nat) (write : Bool) : Bool :=
  (lineSpans a n).any fun sp => (s.lineCheck ctx sp.1 write).1.isSome

/-- An inbound read performed by the hub I/O agent as RdCur (R520): the bytes go to the requester, or a completion without data when
the read is refused or an uncorrectable line leaves bytes out (Log 43). A refusal counts in `cnt`. A request that reaches a held
granule waits (R379). -/
def inboundRead (s : State) (ctx a n : Nat) (cnt : Fld) : State :=
  if s.granuleHeld a n then s
  else
    let refused := s.inboundRefused ctx a n false
    match s.readBytes 1 ctx a n with
    | (bs, _, s) =>
      if refused then { s.bump cnt with answer := [] }
      else { s with answer := if bs.all Option.isSome then bs.map fun b => b.getD 0 else [] }

/-- An inbound write performed as WrFull or WrPart (R520): refused lines are discarded, and the refusal counts in `cnt`. -/
def inboundWrite (s : State) (ctx a : Nat) (bs : List Byte) (cnt : Fld) : State :=
  if s.granuleHeld a bs.length then s
  else
  let refused := s.inboundRefused ctx a bs.length true
  let (_, s) := s.writeBytes ctx a (bs.map some)
  if refused then s.bump cnt else s

/-- Physical address of BAR4 offset `o` (R519). -/
def bar4Addr (s : State) (o : Nat) : Nat := s.get Reg.HP_W4BASE.BASE * 2 ^ 20 + o

/-- A BAR4 request reaches the hub I/O agent: the link is up, and memory answers (Log 43). -/
def bar4Up (s : State) : Bool := s.flag Reg.HP_STAT.LINKUP && s.memoryUp

/-- CTXID of an inbound request of a root port: the lowest enabled OB_PMAP entry that matches, or DEFCTX; none where a PASID matches no
entry (R535). -/
def inboundCtx (s : State) (p : Nat) : Option (BitVec 20) → Option Nat
  | none => some (s.get (Reg.OB_PCTL.DEFCTX p))
  | some id =>
    ((List.range 64).find? fun i =>
      s.flag (Reg.OB_PMAP.EN i) && (s.get (Reg.OB_PMAP.PORTS i)).testBit p && s.get (Reg.OB_PMAP.PASID i) == id.toNat).map
        fun i => s.get (Reg.OB_PMAP.CTXID i)

/-- An inbound request of root port `p` (R535, R420): Unsupported Request for a PASID without an entry (Log 45) and for an address
outside Tier 0 and Tier 1, counted, in the flash window also in PM_REFUSE_CNT. -/
def inbound (s : State) (p : Nat) (pasid : Option (BitVec 20)) (write : Bool) (a n : Nat) (bs : List Byte) : State :=
  let ur : State := { s with answer := [] }
  match s.inboundCtx p pasid with
  | none => ur
  | some c =>
    if s.coherent a && s.coherent (a + (if write then bs.length else n) - 1) then
      if write then s.inboundWrite c a bs (Reg.OB_REFUSE_CNT.COUNT p) else s.inboundRead c a n (Reg.OB_REFUSE_CNT.COUNT p)
    else
      let ur := ur.bump (Reg.OB_UR_CNT.COUNT p)
      if s.space a == some .flash then ur.bump Reg.PM_REFUSE_CNT.COUNT else ur

/-! ## The host link and PERST# (R525) -/

/-- The link of the host port goes down: its configuration space is reset with it (Log 20). -/
def hostLinkLost (s : State) : State :=
  { s with ec := { s.ec with msixOn := false, vectors := 0 } }.setFlag Reg.HP_STAT.LINKUP false

/-- PERST# is asserted on a running module (R525, R580, R616). -/
def perstAsserted (s : State) : State :=
  let st := s.get Reg.ST_STAT.STATE
  let s := s.hostLinkLost.assertSource 3
  if s.flag Reg.HP_CTL.PERSTRST then
    match s.power.sleep with
    | .nap | .night =>
      { s with power := { s.power with after := some 2 } }
    | _ => if st == 5 || st == 7 then s.moduleReset else s
  else if s.power.sleep == .night then s
  else s.detach 2

/-! ## IDE streams (R556, R557) -/

/-- Streams that a port has. -/
def ideStreams (port : Nat) : Nat := if port = 4 then 2 else 4

/-- A key message that is accepted programs a stream's keys or starts their use (R556; Log 46). -/
def ideKey (s : State) (i : Nat) : State :=
  let x : IdeSt := match AMap.get? s.tarle.ide i with
    | some .keyed | some .secure => .secure
    | _ => .keyed
  { s with tarle := { s.tarle with ide := AMap.put s.tarle.ide i x } }

end State

/-! ## Rows -/

/-- BAR4_READ (R519, R520). -/
def execBar4Read (offset : BitVec 28) (len : BitVec 13) (s : State) : Host.Outcome State Fault Refusal :=
  let s := s.awake .host
  if s.bar4Up && decide (offset.toNat + len.toNat ≤ 2 ^ 28) then
    .next (s.inboundRead 2 (s.bar4Addr offset.toNat) len.toNat Reg.HP_REFUSE_CNT.COUNT)
  else .next { s with answer := [] }

/-- BAR4_WRITE (R519, R520). -/
def execBar4Write (offset : BitVec 28) (bytes : List Byte) (s : State) : Host.Outcome State Fault Refusal :=
  let s := s.awake .host
  if s.bar4Up && decide (offset.toNat + bytes.length ≤ 2 ^ 28) then
    .next (s.inboundWrite 2 (s.bar4Addr offset.toNat) bytes Reg.HP_REFUSE_CNT.COUNT)
  else .next s

/-- HOST_LINK_DOWN (R525, R526). -/
def execHostLinkDown (s : State) : Host.Outcome State Fault Refusal :=
  if s.flag Reg.HP_STAT.LINKUP then .next ((s.hostLinkLost.assertSource 3).detach 1) else .next s

/-- HOST_LINK_UP (R525, R607): the port trains once PERST# is high; its function is then enabled, with MSI-X for a number of
vectors of the host's choosing, or without: a free value (R478; Log 20). -/
def execHostLinkUp (s : State) : Host.Outcome State Fault Refusal :=
  if s.hubOn && !s.host.perst && !s.flag Reg.HP_STAT.LINKUP then
    let (n, s) := s.draw 9
    .next (({ s with ec := { s.ec with msixOn := decide (n % 257 ≠ 0), vectors := n % 257 } }.setFlag Reg.HP_STAT.LINKUP true).assertSource 3)
  else .next s

/-- HOST_PERST (R525, R616). -/
def execHostPerst (s : State) : Host.Outcome State Fault Refusal :=
  if s.host.perst then .next s
  else
    let s : State := { s with host := { s.host with perst := true } }
    if s.start.begun then .next s.perstAsserted else .next s

/-- HOST_PERST_RELEASE (R525). -/
def execHostPerstRelease (s : State) : Host.Outcome State Fault Refusal :=
  if s.host.perst then
    let s : State := { s with host := { s.host with perst := false } }
    if s.start.begun then .next (s.assertSource 3) else .next s
  else .next s

/-- HOST_PORT_ERROR (R518). -/
def execHostPortError (s : State) : Host.Outcome State Fault Refusal := if s.hubOn then .next (s.assertSource 772) else .next s

/-- ATTACH_COMPLETE (R530). -/
def execAttachComplete (s : State) : Host.Outcome State Fault Refusal := .next s.attachDone

/-- ROOT_PORT_INBOUND_REQUEST (R535): over a link that is up, once memory answers. -/
def execRootPortInboundRequest (p : Fin 4) (pasid : Option (BitVec 20)) (write : Bool) (address : W64) (len : BitVec 13)
    (bytes : List Byte) (s : State) : Host.Outcome State Fault Refusal :=
  if s.hubOn && s.get (Reg.OB_PSTAT.RATE p) != 0 && s.memoryUp then
    .next (s.inbound p pasid write address.toNat len.toNat bytes)
  else .next { s with answer := [] }

/-- Level of PERST_N of root port `p`: low while OB_PCTL.EN is 0 and while PRSNT_N is high (R613). -/
def State.perstN (s : State) (p : Nat) : Bool := s.flag (Reg.OB_PCTL.EN p) && !s.ident.unfitted.contains p

/-- ROOT_PORT_LINK_CHANGE (R531): the link of an enabled port trains at a rate and width, goes down with rate or width 0, or reports an
error with both as they were. -/
def execRootPortLinkChange (p : Fin 4) (rate : BitVec 4) (width : BitVec 3) (s : State) : Host.Outcome State Fault Refusal :=
  let down := rate == 0 || width == 0
  if !s.hubOn || (!down && (!s.perstN p || 7 < rate.toNat || 5 < width.toNat)) then .next s
  else
    let s := (s.set (Reg.OB_PSTAT.RATE p) (if down then 0 else rate.toNat)).set (Reg.OB_PSTAT.WIDTH p)
      (if down then 0 else width.toNat)
    .next (s.assertSource (768 + p.val))

/-- IDE_INTEGRITY_FAILURE (R557). -/
def execIdeIntegrityFailure (port : Fin 5) (stream : Fin 4) (s : State) : Host.Outcome State Fault Refusal :=
  let i := port.val * 4 + stream.val
  if (AMap.get? s.tarle.ide i).isSome then
    let s : State := { s with tarle := { s.tarle with ide := AMap.put s.tarle.ide i .insecure } }
    .next (s.assertSource (if port.val = 4 then 772 else 768 + port.val))
  else .next s

/-- IDE_KM (R556): on the host port inside an SPDM session; on a root port Tarle is the requester, and keys a stream only where the
digest of the adapter's certificate chain, which `request` holds, is the one that PORTKEY has set. -/
def execIdeKm (port : Fin 5) (stream : Fin 4) (session : Fin 4) (request : List Byte) (s : State) :
    Host.Outcome State Fault Refusal :=
  let ok : Bool :=
    if port.val = 4 then AMap.getD s.tarle.spdm session.val false && Config.spdmAccepts request
    else AMap.get? s.tarle.portDigest port.val == some (Config.sm3 request)
  if ok && decide (stream.val < State.ideStreams port.val) && s.tarleRuns then .next (s.ideKey (port.val * 4 + stream.val))
  else .next s

end Sys2Proof.Machine
end

