-- ==== Sys2Proof/Machine/Chain.lean ====
section
/-! DEFINITION. The tray chain: letters, forwarding, and the bypass (R536 to R540, R569, R576, R583). -/

namespace Sys2Proof.Machine

/-! ## Letters (Table 18.5) -/

/-- One step of CRC-32 with reflected polynomial (R536). -/
def crc32Bit (c : BitVec 32) : BitVec 32 := if c.getLsbD 0 then (c >>> 1) ^^^ 0xEDB88320#32 else c >>> 1

/-- CRC-32 of bytes (Table 18.5). -/
def crc32 (bs : List Byte) : BitVec 32 :=
  ~~~(bs.foldl (fun (c : BitVec 32) b => (List.range 8).foldl (fun c _ => crc32Bit c) (c ^^^ b.setWidth 32)) (BitVec.allOnes 32))

def letterDst (l : List Byte) : Nat := fileNat l 0 1
def letterSrc (l : List Byte) : Nat := fileNat l 1 1
def letterTtl (l : List Byte) : Nat := fileNat l 2 1
def letterType (l : List Byte) : Nat := fileNat l 3 1
def letterLen (l : List Byte) : Nat := fileNat l 4 2
def letterPayload (l : List Byte) : List Byte := fileBytes l 8 (letterLen l)

/-- A letter is whole: its length fits LEN, which is at most 244, and its CRC is right (R537). -/
def letterOk (l : List Byte) : Bool :=
  letterLen l ≤ 244 && l.length == 12 + letterLen l && fileNat l (8 + letterLen l) 4 == (crc32 (l.take (8 + letterLen l))).toNat

/-- A letter of these fields, with its CRC. -/
def mkLetter (dst src ttl ty seq : Nat) (payload : List Byte) : List Byte :=
  let b := leBytes 1 dst ++ leBytes 1 src ++ leBytes 1 ttl ++ leBytes 1 ty ++ leBytes 2 payload.length ++ leBytes 2 seq ++ payload
  b ++ leBytes 4 (crc32 b).toNat

/-- The letter with TTL one less (R537). -/
def letterHop (l : List Byte) : List Byte :=
  mkLetter (letterDst l) (letterSrc l) (letterTtl l - 1) (letterType l) (fileNat l 6 2) (letterPayload l)

/-- The pieces of at most 244 bytes of a response page (Log 47). -/
def letterParts : Nat → List Byte → List (List Byte)
  | 0, _ => []
  | n + 1, bs => if bs.length ≤ 244 then [bs] else bs.take 244 :: letterParts n (bs.drop 244)

namespace State

/-- The chain relays through Tarle: Tarle runs and the bypass is open (R540). -/
def relays (s : State) : Bool := s.tarleRuns && !s.flag Reg.TC_STAT.BYPASS

/-- Tarle sends a response page of a management request as letters of TYPE 0x01 (R569; Log 47). -/
def sendLetters (s : State) (dst : Nat) (page : List Byte) : State :=
  (letterParts 8 page).foldl (fun (s : State) p =>
    let (ttl, s) := s.draw 8
    let l := mkLetter dst (s.get Reg.TC_STAT.ADDR) ttl 1 s.host.letterSeq p
    { s with host := { s.host with sendQ := s.host.sendQ ++ [l], letterSeq := (s.host.letterSeq + 1) % 2 ^ 16 } }) s

/-- A response page: OPC, STATUS, LEN and TAG of its request, then the payload (R567). -/
def responsePage (req : List Byte) (status : Nat) (payload : List Byte) : List Byte :=
  fileBytes req 0 1 ++ leBytes 1 status ++ leBytes 2 payload.length ++ leBytes 4 (fileNat req 4 4) ++ payload

/-- A letter is forwarded, or dropped and counted (R537, R538). -/
def forwardLetter (s : State) (l : List Byte) : State :=
  if letterTtl l = 0 then s.bump Reg.TC_TTLDROP_CNT.COUNT
  else if 4 ≤ s.host.forward.length then s.bump Reg.TC_FWDDROP_CNT.COUNT
  else { s with host := { s.host with forward := s.host.forward ++ [letterHop l] } }

/-- File data of a letter of TYPE 0x03 (R576): one with a nonzero reserved byte is dropped as a malformed letter (R14; Log 130); Tarle checks the file once every byte up to its length has come. -/
def bootData (s : State) (p : List Byte) : State :=
  let kind := fileNat p 0 1 % 4
  let off := fileNat p 2 4
  let data := p.drop 8
  let st := s.get Reg.ST_STAT.STATE
  if 8 ≤ p.length && !allZero (fileBytes p 6 2) then s.bump Reg.TC_CRC_CNT.COUNT
  else if p.length < 8 || !((kind == 1 && st == 1) || (kind == 2 && st == 3)) then s
  else
    let base := kind * 2 ^ 32
    let parts := data.zipIdx.foldl (fun m (b : Byte × Nat) => AMap.put m (base + off + b.2) b.1) s.start.parts
    let lengths := if fileNat p 1 1 % 2 = 1 then AMap.put s.start.lengths kind (off + data.length) else s.start.lengths
    let s' : State := { s with start := { s.start with parts := parts, lengths := lengths } }
    match AMap.get? lengths kind with
    | none => s'
    | some n =>
      let have_ := parts.filter fun (b : Nat × Byte) => decide (base ≤ b.1) && decide (b.1 < base + n)
      if have_.length = n then
        let s' : State := { s' with start := { s'.start with
          parts := parts.filter (fun (b : Nat × Byte) => b.1 < base || base + 2 ^ 32 ≤ b.1), lengths := AMap.erase lengths kind } }
        let file := have_.map fun (b : Nat × Byte) => b.2
        if kind = 1 then s'.recordArrived file else s'.bundleArrived file
      else s'

/-- A wake letter asserts source 4; in OFF after a power-off it begins a power-on start (R537, R583). -/
def wakeBy (s : State) : State :=
  if s.start.off == some .stop then s.powerOnStart else if s.start.begun then s.assertSource 4 else s

/-- A letter for this module is consumed (R537, R569). -/
def consumeLetter (s : State) (l : List Byte) : State :=
  match letterType l with
  | 1 =>
    let opc := fileNat (letterPayload l) 0 1
    if opc = 1 || opc = 2 then { s with tarle := { s.tarle with letters := s.tarle.letters ++ [l] } }
    else s.sendLetters (letterSrc l) (responsePage (letterPayload l) 1 [])
  | 2 => s.wakeBy
  | 3 => s.bootData (letterPayload l)
  | _ => s.bump Reg.TC_CRC_CNT.COUNT

/-- A letter arrives on CHAIN_IN (R537). While the bypass is closed it goes through to CHAIN_OUT as it is (R540). -/
def receiveLetter (s : State) (l : List Byte) : State :=
  let s : State := { s with host := { s.host with chainIdle := s.time.cycle } }
  if !s.relays then { s with host := { s.host with chainOut := l :: s.host.chainOut } }
  else
    let me := s.get Reg.TC_STAT.ADDR
    if !letterOk l then s.bump Reg.TC_CRC_CNT.COUNT
    else if letterSrc l = me then s
    else if letterDst l = me then s.consumeLetter l
    else if letterDst l = 0xFF then (s.forwardLetter l).consumeLetter l
    else s.forwardLetter l

/-- The next letter leaves on CHAIN_OUT: forwarded ones ahead of the module's own, each after the characters of the one before it, its
two markers and four idle characters, 80 ns each (R536, R538). -/
def chainStep (s : State) : State :=
  let goes (s : State) (l : List Byte) : State :=
    { s with host := { s.host with chainOut := l :: s.host.chainOut, chainBusy := s.time.cycle + 320 * (l.length + 6) } }
  if !s.relays || s.time.cycle < s.host.chainBusy then s
  else
    match s.host.forward, s.host.sendQ with
    | l :: rest, _ => goes { s with host := { s.host with forward := rest } } l
    | [], l :: rest => goes { s with host := { s.host with sendQ := rest } } l
    | [], [] => s

end State

/-! ## Rows -/

/-- WAKE_LETTER (R537). -/
def execWakeLetter (bytes : List Byte) (s : State) : Host.Outcome State Fault Refusal := .next (s.receiveLetter bytes)

/-- BOOT_DATA_LETTER (R537, R576). -/
def execBootDataLetter (bytes : List Byte) (s : State) : Host.Outcome State Fault Refusal := .next (s.receiveLetter bytes)

/-- LETTER_FORWARD (R537, R538). -/
def execLetterForward (bytes : List Byte) (s : State) : Host.Outcome State Fault Refusal := .next (s.receiveLetter bytes)

/-- BAD_LETTER (R537, R569). -/
def execBadLetter (bytes : List Byte) (s : State) : Host.Outcome State Fault Refusal := .next (s.receiveLetter bytes)

/-- BYPASS_CLOSE (R540): while Tarle does not run, or a full start's reset is in progress. -/
def execBypassClose (s : State) : Host.Outcome State Fault Refusal :=
  if s.tarleRuns && s.get Reg.ST_STAT.STATE != 0 then .next s else .next (s.raise Reg.TC_STAT.BYPASS)

/-- BYPASS_OPEN (R540): Tarle runs, and CHAIN_IN has been idle for 10 µs. -/
def execBypassOpen (s : State) : Host.Outcome State Fault Refusal :=
  if s.tarleRuns && decide (s.host.chainIdle + 40000 ≤ s.time.cycle) then .next (s.setFlag Reg.TC_STAT.BYPASS false) else .next s

end Sys2Proof.Machine
end

