-- ==== Sys2Proof/Machine/TarleOps.lean ====
section
/-! DEFINITION. Tarle's requests: their pages and answers (R567 to R569), evidence (R552, R553), sealing (R561, R562), authorized debug
(R564 to R566, R313), and tamper (R572). -/

namespace Sys2Proof.Machine

/-- Mailbox of a source; 0 for a letter. -/
def boxOf : TarleSource → Nat
  | .mailbox1 => 1
  | .mailbox2 => 2
  | .letter => 0

/-- A byte string of exactly `n` bytes. -/
def fitBytes (n : Nat) (bs : List Byte) : List Byte := bs.take n ++ List.replicate (n - bs.length) 0

/-- The 32 bytes of a segment entry (Table 12.5); an invalid one is all zero. -/
def segBytes : Option Seg → List Byte
  | none => List.replicate 32 0
  | some g =>
    leBytes 8 g.base ++ leBytes 8 g.limit ++ leBytes 8 g.pbase
      ++ leBytes 8 (16 * g.tier + boolBit g.paged 3 + boolBit g.w 2 + boolBit g.r 1 + 1)

namespace State

/-! ## Requests and answers -/

/-- The request page of a request in progress (R567), or that of the oldest management letter (R569). -/
def requestPage (s : State) : TarleSource → Option (List Byte)
  | .letter => s.tarle.letters.head?.map letterPayload
  | src =>
    let n := boxOf src
    if s.flag (if n = 1 then Reg.TRL_STAT.MB1BUSY else Reg.TRL_STAT.MB2BUSY) then
      let m := (s.tarle.mailboxes.getD (n - 1) {}).req
      some ((List.range 4096).map fun i => AMap.getD m i 0)
    else none

/-- Tarle answers a request. -/
def answerTo (s : State) (src : TarleSource) (status : Nat) (payload : List Byte) : State :=
  match src with
  | .letter =>
    match s.tarle.letters with
    | l :: rest =>
      { s with tarle := { s.tarle with letters := rest } }.sendLetters (letterSrc l) (responsePage (letterPayload l) status payload)
    | [] => s
  | _ => s.mailAnswer (boxOf src) status payload

/-- The request in progress at `src` with an OPC, of the sources that Table 19.8 gives it and a payload length that `len` lets in: `f`
performs it, with its STATUS and response. A letter's answer waits for room in the send queue (R538). -/
def serve (s : State) (src : TarleSource) (opc : Nat) (boxes : List Nat) (len : Nat → Bool)
    (f : List Byte → State → Nat × List Byte × State) : State :=
  match s.requestPage src with
  | none => s
  | some p =>
    let n := fileNat p 2 2
    if !s.tarleRuns || fileNat p 0 1 != opc then s
    else if src == .letter && 4 < s.host.sendQ.length then s
    else if !boxes.contains (boxOf src) then s.answerTo src 1 []
    else if !len n || p.length < 8 + n then s.answerTo src 2 []
    else
      let (status, out, s) := f (fileBytes p 8 n) s
      s.answerTo src status out

/-! ## Evidence -/

/-- The 16 bytes of the serial number (R552, R574). -/
def serialBytes (s : State) : List Byte := leBytes 16 s.ident.serial.toNat

/-- The evidence report of Table 19.3, franked (R552, R553). -/
def evidenceReport (s : State) (c : Nat) (nonce : List Byte) : List Byte :=
  let seen := if c = 0 then !s.tarle.debugSeen.isEmpty else s.tarle.debugSeen.contains c
  let flags := boolBit (s.flag Reg.TRL_STAT.IDOK) 0 + boolBit (s.flag Reg.TRL_STAT.TAMPER) 1 + boolBit (s.flag Reg.MO_STAT.UNCLEAN) 2
    + boolBit s.locked 3 + boolBit seen 4 + boolBit (s.sealedCtx c) 5
  let b := leBytes 4 1 ++ s.serialBytes ++ leBytes 4 (s.get Reg.TRL_BVER.VERSION) ++ leBytes 4 (s.get Reg.TRL_SVN.SVN)
    ++ leBytes 4 (s.get Reg.TRL_UCREV.UCREV) ++ leBytes 4 flags ++ leBytes 8 s.now ++ leBytes 6 s.round ++ leBytes 2 c
    ++ List.replicate 12 0 ++ fitBytes 32 nonce ++ ((List.range 16).flatMap fun n => fitBytes 32 (s.slotOf n))
    ++ fitBytes 32 (if s.sealedCtx c then (s.ctxOf c).sealmeas else []) ++ List.replicate 64 0
  b ++ fitBytes 64 (Config.sm2Sign s.tarle.d b)

/-! ## Keys and sealing -/

/-- Granules of Tier 1 and of the flash window that context `c` owns become unreadable under new keys (R558; Log 4). -/
def loseOwned (s : State) (c : Nat) : State :=
  let mine (g : Nat) : Bool := (AMap.getD s.xlat.own g ({} : Own)).owner == c
  let t1 := (s.xlat.own.filter fun (p : Nat × Own) => p.2.owner == c && decide (tier1Base ≤ p.1 * 2 ^ 21)
    && decide (p.1 * 2 ^ 21 < deviceBase)).flatMap fun (p : Nat × Own) => rangesOf p.1
  let fl := (s.flash.map.map fun (p : Nat × Nat) => (flashBase + p.1 * 65536) / 65536).filter fun r => mine (r / 32)
  s.loseRanges (t1 ++ fl)

/-- SEALMEAS of context `c` under a tenant key (R562; Log 49). -/
def sealMeasure (s : State) (c : Nat) (tkey : List Byte) : List Byte :=
  let x := s.ctxOf c
  Config.sm3 (tkey ++ ((List.range 16).flatMap fun i => segBytes (AMap.get? x.segs i)) ++ leBytes 8 x.root ++ leBytes 2 x.ptctx)

/-- SEAL (R562); a package with a nonzero reserved byte is malformed (R14). -/
def sealCtx (s : State) (p : List Byte) : Nat × List Byte × State :=
  let c := fileNat p 0 2
  let tkey := fileBytes p 36 64
  let no : Nat × List Byte × State := (3, [], s)
  if !(allZero (fileBytes p 2 2) && allZero (fileBytes p 261 3)) then (2, [], s)
  else if !s.ctxOpen c || (s.ctxOf c).sealing != .unsealed || AMap.get? s.tarle.sealNonce c != some (fileBytes p 4 32)
      || !Config.sm2Verify tkey (p.take 264) (fileBytes p 264 64) then no
  else
    match Config.sm2Decrypt s.tarle.d (fileBytes p 100 161) with
    | none => no
    | some ks =>
      let meas := s.sealMeasure c tkey
      let s : State := { s with tarle := { s.tarle with sealNonce := AMap.erase s.tarle.sealNonce c } }
      let s := (s.loseOwned c).onCtx c fun x => { x with sealing := .sealed, tkey := tkey, sealmeas := meas, keys := ks }
      (0, [], s.assertSource 35)

/-! ## Authorized debug -/

/-- A halted group resumes (R313, R314): a mismatch of its waits is now tested, and source 36 asserts (R566). -/
def resumeGroup (s : State) (t b g : Nat) : State :=
  ((s.onGroup t b g fun x => { x with halted := false, haltSet := 0, stepAt := none }).mismatch t b g).assertSource 36

/-- A debug session ends: the groups that it halted resume (R566). -/
def endDebug (s : State) (h : Nat) : State :=
  match AMap.get? s.tarle.sessions h with
  | none => s
  | some d =>
    let s : State := { s with tarle := { s.tarle with sessions := AMap.erase s.tarle.sessions h } }
    (d.halted.foldl (fun (s : State) x => s.resumeGroup x.1 x.2.1 x.2.2) s).assertSource 36

/-- A debug token is in order (R565). -/
def tokenOk (s : State) (p : List Byte) : Bool :=
  let c := fileNat p 0 2
  let key : Option (List Byte) := if s.sealedCtx c then some (s.ctxOf c).tkey else s.tarle.dbgKey
  let signed : Bool := match key with
    | some k => Config.sm2Verify k (p.take 64) (fileBytes p 64 64)
    | none => false
  fileBytes p 4 16 == s.serialBytes && AMap.get? s.tarle.dbgNonce c == some (fileBytes p 32 32)
    && decide ((fileNat p 20 6 + 2 ^ 48 - s.round) % 2 ^ 48 < 2 ^ 47) && signed

/-- DBGOPEN (R565): a token with a nonzero reserved field is malformed (R14); the token extends slot 7, and the lowest free handle names the session. With eight sessions open the request is
refused in the present state. -/
def openDebug (s : State) (p : List Byte) : Nat × List Byte × State :=
  let c := fileNat p 0 2
  if 8 ≤ fileNat p 2 1 || fileNat p 3 1 != 0 || !allZero (fileBytes p 26 6) then (2, [], s)
  else if !s.tokenOk p then (3, [], s.bump Reg.TRL_DBGDENY_CNT.COUNT)
  else
    match (List.range 8).find? fun h => (AMap.get? s.tarle.sessions h).isNone with
    | none => (4, [], s)
    | some h =>
      let s := s.extendSlot 7 p
      let s : State := { s with tarle := { s.tarle with
        dbgNonce := AMap.erase s.tarle.dbgNonce c
        debugSeen := if s.tarle.debugSeen.contains c then s.tarle.debugSeen else c :: s.tarle.debugSeen
        sessions := AMap.put s.tarle.sessions h { ctx := c, ops := fileNat p 2 1, expiry := fileNat p 20 6 } } }
      (0, leBytes 1 h, s.assertSource 36)

/-- A DBGOP request whose session lets in operations of OPS bit `i` on the group that it names, a resident group of its context (R566):
`f` performs it. -/
def debugOp (s : State) (p : List Byte) (i : Nat) (f : Nat → Nat → Nat → Nat → Kernel → Group → State → Nat × List Byte × State) :
    Nat × List Byte × State :=
  let h := fileNat p 0 1
  let t := fileNat p 2 1
  let g := fileNat p 3 1
  let b := fileNat p 4 4
  match AMap.get? s.tarle.sessions h with
  | none => (4, [], s)
  | some d =>
    if !d.ops.testBit i then (1, [], s)
    else
      -- a debugger access wakes the tile (R512)
      let s := s.onTile t fun x => { x with doze := false }
      match s.group? t b g with
      | none => (4, [], s)
      | some (k, x) =>
        if (s.running t).any fun f => ctxidOf f.desc == d.ctx then f h t b g k x s else (1, [], s)

/-- The lanes' state as READ gives it for one lane (R313; Log 48): pc, registers x1 to x31, fcsr, exit and wait state (255: no wait),
generator state, and the arrival counts of the block's barriers. -/
def laneBytes (k : Kernel) (x : Group) (i : Nat) : List Byte :=
  let l := x.lanes.getD i {}
  let counts := match k.blocks.find? fun b => b.num == x.block with
    | some b => b.counts
    | none => []
  leBytes 8 l.pc.toNat ++ ((List.range 31).flatMap fun r => leBytes 8 (AMap.getD l.x (r + 1) 0).toNat) ++ leBytes 4 l.fcsr
    ++ leBytes 1 (if l.exited then 1 else 0) ++ leBytes 1 (l.wait.getD 255) ++ leBytes 8 l.gen.toNat ++ counts.flatMap (leBytes 2)

/-- WRITE on one lane (R313; Log 48): index 0 its pc, 1 to 31 a register, 32 its fcsr. -/
def debugWriteLane (l : Lane) (i : Nat) (v : W64) : Lane :=
  if i = 0 then { l with pc := v } else if i < 32 then setLaneReg l i v else { l with fcsr := v.toNat % 256 }

/-- A session's list of groups that it has halted changed by `f`. -/
def onHalted (s : State) (h : Nat) (f : List (Nat × Nat × Nat) → List (Nat × Nat × Nat)) : State :=
  match AMap.get? s.tarle.sessions h with
  | some d => { s with tarle := { s.tarle with sessions := AMap.put s.tarle.sessions h { d with halted := f d.halted } } }
  | none => s

/-! ## Tamper -/

/-- New random key pairs for every context: Tier 1 and the flash tier lose their contents (R572; Log 4). -/
def newKeys (s : State) : State :=
  let s := s.xlat.ctxs.foldl (fun (s : State) (p : Nat × Ctx) =>
    let (ks, s) := s.entropy 64
    s.onCtx p.1 fun x => { x with keys := ks }) (s.entropy 64).2
  (s.loseTier1).loseRanges (s.flash.map.map fun (p : Nat × Nat) => (flashBase + p.1 * 65536) / 65536)

/-- Tamper is detected (R572). -/
def tamperFound (s : State) : State :=
  let s := (s.assertSource 6).raise Reg.TRL_STAT.TAMPER
  let s := (List.range 8).foldl (fun (s : State) h => s.endDebug h) s
  let s : State := { s with tarle := { s.tarle with spdm := [], ide := [] } }
  let s := s.newKeys
  { s with xlat := { s.xlat with ctxs := s.xlat.ctxs.map fun (p : Nat × Ctx) =>
      (p.1, if p.2.sealing == .sealed then { p.2 with sealing := .broken } else p.2) } }

/-! ## SPDM (R554, R555) -/

/-- Tarle can answer over DOE on the host port. -/
def doeUp (s : State) : Bool := s.tarleRuns && s.hubOn && s.flag Reg.HP_STAT.LINKUP

/-- An SPDM response goes to the requester. -/
def doeRespond (s : State) (bs : List Byte) : State := { s with tarle := { s.tarle with answers := bs :: s.tarle.answers } }

/-- The answer to a request outside a session, or within one. -/
def spdmReply (s : State) (request : List Byte) (material : List (List Byte)) : State :=
  if s.doeUp then s.doeRespond (Config.spdmAnswer request material) else s

/-- A request within an established session. -/
def spdmInside (s : State) (n : Nat) (request : List Byte) (f : State → State) : State :=
  if s.doeUp then
    if AMap.getD s.tarle.spdm n false then (f s).doeRespond (Config.spdmAnswer request []) else s.doeRespond (Config.spdmError request)
  else s

end State

end Sys2Proof.Machine
end

