-- ==== Sys2Proof/Machine/Tarle.lean ====
section
/-! DEFINITION. Rows of Tarle (chapter 19): the requests of Table 19.8, SPDM, the watchdog and tamper. -/

namespace Sys2Proof.Machine

/-! ## Requests (Table 19.8) -/

/-- STATUS (Table 19.8, OPC 0x01). -/
def execStatus (src : TarleSource) (s : State) : Host.Outcome State Fault Refusal :=
  .next (s.serve src 1 [0, 1, 2] (· == 0) fun _ s =>
    let stat := boolBit (s.flag Reg.TRL_STAT.CFGERR) 5 + boolBit (s.flag Reg.TRL_STAT.MB2BUSY) 4
      + boolBit (s.flag Reg.TRL_STAT.MB1BUSY) 3 + boolBit (s.flag Reg.TRL_STAT.TAMPER) 2 + boolBit (s.flag Reg.TRL_STAT.IDOK) 1
      + boolBit (s.flag Reg.TRL_STAT.BOOTED) 0
    (0, leBytes 4 stat ++ leBytes 4 (s.get Reg.TRL_BVER.VERSION) ++ leBytes 4 (s.get Reg.TRL_SVN.SVN)
      ++ leBytes 4 (s.get Reg.TRL_UCREV.UCREV), s))

/-- EVIDENCE (R552, R553; OPC 0x02): refused while no identity key has been derived. -/
def execEvidence (src : TarleSource) (s : State) : Host.Outcome State Fault Refusal :=
  .next (s.serve src 2 [0, 1, 2] (· == 34) fun p s =>
    if s.tarle.d.isEmpty then (4, [], s) else (0, s.evidenceReport (fileNat p 0 2) (fileBytes p 2 32), s))

/-- EXTEND (R550, Table 19.2; OPC 0x03). -/
def execExtend (src : TarleSource) (s : State) : Host.Outcome State Fault Refusal :=
  .next (s.serve src 3 [1, 2] (· == 33) fun p s =>
    let n := fileNat p 0 1
    if n / 4 ≠ boxOf src + 1 then (1, [], s)
    else
      let s := s.extendSlot n (fileBytes p 1 32)
      (0, fitBytes 32 (s.slotOf n), s))

/-- SETCAP (R502; OPC 0x04): a value that PW_CAP does not take is malformed. -/
def execSetcap (src : TarleSource) (s : State) : Host.Outcome State Fault Refusal :=
  .next (s.serve src 4 [1, 2] (· == 4) fun p s =>
    let v := fileNat p 0 4
    if State.within (v % 2 ^ 13) 1000 4800 && State.within (v / 2 ^ 24) 1 250 then
      (0, [], { s with power := { s.power with capNext := some v } })
    else (2, [], s))

/-- POWER (R513, R514; OPC 0x05): the entry begins, and the answer comes after the wake or the failure. -/
def execPower (src : TarleSource) (s : State) : Host.Outcome State Fault Refusal :=
  let begins : Option (Nat × Nat) := match s.requestPage src with
    | some p =>
      let state := fileNat p 8 1
      let limit := fileNat p 9 1
      if s.tarleRuns && fileNat p 0 1 == 5 && src != .letter && fileNat p 2 2 == 2 && (state == 1 || state == 2) && limit != 0
          && s.power.sleep == .run && s.get Reg.ST_STAT.STATE == 5 then some (state, limit) else none
    | none => none
  match begins with
  | some (state, limit) =>
    .next { s with
      power := { s.power with sleep := .entering (state == 2) s.round limit, asker := some (boxOf src) }
      sorter := { s.sorter with halted := true }
      ec := { s.ec with wake := [] } }
  | none =>
    if s.power.asker == some (boxOf src) then .next s
    else
      .next (s.serve src 5 [1, 2] (· == 2) fun p s =>
        let state := fileNat p 0 1
        if (state != 1 && state != 2) || fileNat p 1 1 == 0 then (2, [], s) else (4, [], s))

/-- SEALNONCE (R562; OPC 0x06). -/
def execSealnonce (src : TarleSource) (s : State) : Host.Outcome State Fault Refusal :=
  .next (s.serve src 6 [2] (· == 2) fun p s =>
    let (n, s) := s.entropy 32
    (0, n, { s with tarle := { s.tarle with sealNonce := AMap.put s.tarle.sealNonce (fileNat p 0 2) n } }))

/-- SEAL (R561, R562; OPC 0x07). -/
def execSeal (src : TarleSource) (s : State) : Host.Outcome State Fault Refusal :=
  .next (s.serve src 7 [2] (· == 328) fun p s => s.sealCtx p)

/-- DBGKEY (R565; OPC 0x08): only while LOCK is 0. -/
def execDbgkey (src : TarleSource) (s : State) : Host.Outcome State Fault Refusal :=
  .next (s.serve src 8 [2] (· == 64) fun p s =>
    if s.locked then (4, [], s) else (0, [], { s with tarle := { s.tarle with dbgKey := some (p.take 64) } }))

/-- DBGNONCE (R565; OPC 0x09). -/
def execDbgnonce (src : TarleSource) (s : State) : Host.Outcome State Fault Refusal :=
  .next (s.serve src 9 [1, 2] (· == 2) fun p s =>
    let (n, s) := s.entropy 32
    (0, n, { s with tarle := { s.tarle with dbgNonce := AMap.put s.tarle.dbgNonce (fileNat p 0 2) n } }))

/-- DBGOPEN (R564, R565; OPC 0x0A). -/
def execDbgopen (src : TarleSource) (s : State) : Host.Outcome State Fault Refusal :=
  .next (s.serve src 10 [1, 2] (· == 128) fun p s => s.openDebug p)

/-! ## DBGOP (OPC 0x0B): the row says which operation of R313 the request asks for (Log 48) -/

/-- HALT (R313). -/
def execHalt (src : TarleSource) (s : State) : Host.Outcome State Fault Refusal :=
  .next (s.serve src 11 [1, 2] (8 ≤ ·) fun p s => s.debugOp p 0 fun h t b g _ x s =>
    if x.halted then (0, [], s)
    else
      let s := s.onGroup t b g fun y => { y with halted := true, stepAt := none }
      (0, [], (s.onHalted h fun l => l ++ [(t, b, g)]).assertSource 36))

/-- DEBUG_READ (R313): the lane that the first argument byte names (Log 48). -/
def execDebugRead (src : TarleSource) (s : State) : Host.Outcome State Fault Refusal :=
  .next (s.serve src 11 [1, 2] (9 ≤ ·) fun p s => s.debugOp p 0 fun _ _ _ _ k x s =>
    if 32 ≤ fileNat p 8 1 then (2, [], s) else (0, State.laneBytes k x (fileNat p 8 1), s))

/-- DEBUG_WRITE (R313): arguments lane, index, value (Log 48). -/
def execDebugWrite (src : TarleSource) (s : State) : Host.Outcome State Fault Refusal :=
  .next (s.serve src 11 [1, 2] (18 ≤ ·) fun p s => s.debugOp p 1 fun _ t b g _ _ s =>
    let i := fileNat p 9 1
    if 32 ≤ fileNat p 8 1 || 32 < i then (2, [], s)
    else (0, [], s.onGroup t b g fun y => mapLanes y fun n l =>
      if n = fileNat p 8 1 then State.debugWriteLane l i (BitVec.ofNat 64 (fileNat p 10 8)) else l))

/-- STEP (R313): one instruction of the issuing set may issue; the request is refused where no lane is runnable. -/
def execStep (src : TarleSource) (s : State) : Host.Outcome State Fault Refusal :=
  .next (s.serve src 11 [1, 2] (8 ≤ ·) fun p s => s.debugOp p 0 fun _ t b g _ x s =>
    if !x.halted then (4, [], s)
    else
      let s' := (s.onGroup t b g fun y => { y with stepAt := some (groupWork y) }).mismatch t b g
      if (issuing x).isEmpty then (4, [], s'.onGroup t b g fun y => { y with stepAt := none }) else (0, [], s'))

/-- RESUME (R313). -/
def execResume (src : TarleSource) (s : State) : Host.Outcome State Fault Refusal :=
  .next (s.serve src 11 [1, 2] (8 ≤ ·) fun p s => s.debugOp p 0 fun h t b g _ x s =>
    if x.halted then (0, [], (s.onHalted h fun l => l.filter (· != (t, b, g))).resumeGroup t b g) else (0, [], s))

/-- DBGCLOSE (R566; OPC 0x0C). -/
def execDbgclose (src : TarleSource) (s : State) : Host.Outcome State Fault Refusal :=
  .next (s.serve src 12 [1, 2] (· == 1) fun p s =>
    if (AMap.get? s.tarle.sessions (fileNat p 0 1)).isSome then (0, [], s.endDebug (fileNat p 0 1)) else (4, [], s))

/-- DEBUG_SESSION_EXPIRY (R566): the first tick after EXPIRY has come. -/
def execDebugSessionExpiry (handle : Fin 8) (s : State) : Host.Outcome State Fault Refusal :=
  match AMap.get? s.tarle.sessions handle.val with
  | some d => if 2 ^ 47 ≤ (d.expiry + 2 ^ 48 - s.round) % 2 ^ 48 then .next (s.endDebug handle.val) else .next s
  | none => .next s

/-- PORTKEY (R556; OPC 0x0D): only while LOCK is 0. -/
def execPortkey (src : TarleSource) (s : State) : Host.Outcome State Fault Refusal :=
  .next (s.serve src 13 [2] (· == 33) fun p s =>
    let n := fileNat p 0 1
    if s.locked then (4, [], s)
    else if 4 ≤ n then (2, [], s)
    else (0, [], { s with tarle := { s.tarle with portDigest := AMap.put s.tarle.portDigest n (fileBytes p 1 32) } }))

/-! ## SPDM (R554, R555) -/

/-- GET_VERSION (R554). -/
def execGetVersion (request : List Byte) (s : State) : Host.Outcome State Fault Refusal := .next (s.spdmReply request [])

/-- GET_CAPABILITIES (R554). -/
def execGetCapabilities (request : List Byte) (s : State) : Host.Outcome State Fault Refusal := .next (s.spdmReply request [])

/-- NEGOTIATE_ALGORITHMS (R554). -/
def execNegotiateAlgorithms (request : List Byte) (s : State) : Host.Outcome State Fault Refusal := .next (s.spdmReply request [])

/-- GET_DIGESTS (R554): of certificate slot 0. -/
def execGetDigests (request : List Byte) (s : State) : Host.Outcome State Fault Refusal :=
  .next (s.spdmReply request [s.tarle.cert, s.tarle.vkey])

/-- GET_CERTIFICATE (R549, R554): an error while IDOK is 0. -/
def execGetCertificate (request : List Byte) (s : State) : Host.Outcome State Fault Refusal :=
  if s.flag Reg.TRL_STAT.IDOK then .next (s.spdmReply request [s.tarle.cert, s.tarle.vkey])
  else if s.doeUp then .next (s.doeRespond (Config.spdmError request)) else .next s

/-- CHALLENGE (R554). -/
def execChallenge (request : List Byte) (s : State) : Host.Outcome State Fault Refusal :=
  .next (s.spdmReply request [s.tarle.d, s.tarle.cert, s.tarle.vkey])

/-- GET_MEASUREMENTS (R554): index n + 1 carries slot n. -/
def execGetMeasurements (request : List Byte) (s : State) : Host.Outcome State Fault Refusal :=
  .next (s.spdmReply request (s.tarle.d :: (List.range 16).map fun n => s.slotOf n))

/-- KEY_EXCHANGE (R554): one of at most four sessions begins. -/
def execKeyExchange (request : List Byte) (s : State) : Host.Outcome State Fault Refusal :=
  if !s.doeUp then .next s
  else
    match (List.range 4).find? fun n => (AMap.get? s.tarle.spdm n).isNone with
    | some n =>
      if Config.spdmAccepts request then
        .next ({ s with tarle := { s.tarle with spdm := AMap.put s.tarle.spdm n false } }.doeRespond
          (Config.spdmAnswer request [s.tarle.d, s.tarle.cert]))
      else .next (s.doeRespond (Config.spdmError request))
    | none => .next (s.doeRespond (Config.spdmError request))

/-- FINISH (R554, R555): the session is established, and HP_STAT.SESSION is set. -/
def execFinish (session : Fin 4) (request : List Byte) (s : State) : Host.Outcome State Fault Refusal :=
  if !s.doeUp then .next s
  else if AMap.get? s.tarle.spdm session.val == some false && Config.spdmAccepts request then
    .next (({ s with tarle := { s.tarle with spdm := AMap.put s.tarle.spdm session.val true } }.raise Reg.HP_STAT.SESSION).doeRespond
      (Config.spdmAnswer request []))
  else .next (s.doeRespond (Config.spdmError request))

/-- KEY_UPDATE (R554). -/
def execKeyUpdate (session : Fin 4) (request : List Byte) (s : State) : Host.Outcome State Fault Refusal :=
  .next (s.spdmInside session.val request fun s => s)

/-- HEARTBEAT (R554). -/
def execHeartbeat (session : Fin 4) (request : List Byte) (s : State) : Host.Outcome State Fault Refusal :=
  .next (s.spdmInside session.val request fun s => s)

/-- END_SESSION (R554). -/
def execEndSession (session : Fin 4) (request : List Byte) (s : State) : Host.Outcome State Fault Refusal :=
  .next (s.spdmInside session.val request fun s =>
    { s with tarle := { s.tarle with spdm := AMap.erase s.tarle.spdm session.val } })

/-! ## Watchdog, tamper and the Tarle-only reset -/

/-- TARLE_WATCHDOG_EXPIRY (R571, R580): in Nap and Night the reset follows the wake that source 5 starts; during a start or a stop,
whose precedence is higher, it is ignored. -/
def execTarleWatchdogExpiry (s : State) : Host.Outcome State Fault Refusal :=
  if !s.tarleRuns then .next s
  else
    let s := s.assertSource 5
    match s.power.sleep with
    | .nap | .night => .next { s with power := { s.power with after := some (s.power.after.getD 4) } }
    | _ =>
      let st := s.get Reg.ST_STAT.STATE
      if st == 5 || st == 6 || st == 8 then .next s.tarleReset else .next s

/-- TARLE_RESET_COMPLETE (R570, R571, Table 20.4): the requests that were in progress are answered, and source 37 asserts. A held bundle
that does not verify counts in TRL_AUTHFAIL_CNT (Log 50). -/
def execTarleResetComplete (s : State) : Host.Outcome State Fault Refusal :=
  if !s.tarle.resetting then .next s
  else
    let s : State := { s with tarle := { s.tarle with resetting := false } }
    let s := if s.start.bundle.isEmpty || bundleOk s.start.bundle then s else s.bump Reg.TRL_AUTHFAIL_CNT.COUNT
    let s := if s.flag Reg.TRL_STAT.MB1BUSY then s.mailAnswer 1 0x7F [] else s
    let s := if s.flag Reg.TRL_STAT.MB2BUSY then s.mailAnswer 2 0x7F [] else s
    .next (s.assertSource 37)

/-- TAMPER (R572), while the VA rail is on. -/
def execTamper (s : State) : Host.Outcome State Fault Refusal :=
  if s.start.begun || (s.start.off.isSome && s.start.off != some .mate) then .next s.tamperFound else .next s

end Sys2Proof.Machine
end

