-- ==== Sys2Proof/Machine/Starts.lean ====
section
/-! DEFINITION. Rows of start-up and of stops (chapters 20 and 23). -/

namespace Sys2Proof.Machine

namespace State

/-- What the start self-test brings: the units retired, the logical numbers, the links, and the report for the start record (R454,
R455, R456, R584). -/
def selfTest (s : State) (failed : List UnitRef) : State :=
  let r := s.start.record
  let asm := assemblyRepairs r
  let field := fieldRepairs r
  let bad := sortUnits (failed ++ asm)
  let listed (u : UnitRef) : Bool := asm.contains u || field.contains u
  -- tiles that failed elements take out of use are retired units too
  let tiles : List UnitRef := (List.range 288).filterMap fun x =>
    let u : UnitRef := .tile (Fin.ofNat 8 (x / 36)) (Fin.ofNat 36 x)
    if tileBad bad (Fin.ofNat 8 (x / 36)) (Fin.ofNat 36 x) && !bad.contains u then some u else none
  let newly := sortUnits ((failed ++ tiles).filter fun u => !listed u)
  let readmit := sortUnits (field.filter fun u => !bad.contains u)
  let passed := sortUnits (asm.filter fun u => !failed.contains u)
  let s := (s.trainLinks bad).assignUnits bad asm
  let s := s.setFlag Reg.LR_STAT.DEGRADED ((List.range 8).any fun l => s.linkBelow l)
  let s := s.bump Reg.LR_DISAGREE_CNT.COUNT (readmit.length + passed.length)
  let s := s.setFlag Reg.LR_STAT.NORECORD ((recordSection r 1).isNone && field.isEmpty)
  let s := (List.range 8).foldl (fun (s : State) d => s.setFlag (Reg.MEM_DSTAT.PRESENT d) true) s
  { s with start := { s.start with report := {
      usable := (List.range 8).map fun d => (s.usableTiles bad (Fin.ofNat 8 d)).length
      cores := (s.usableCores bad).length
      links := (List.range 8).foldl (fun n l => if s.linkBelow l then n + 2 ^ l else n) 0
      nret := newly.length
      nreadmit := readmit.length
      nasm := passed.length
      entries := newly.map (entryNat · 1) ++ readmit.map (entryNat · 2) ++ passed.map (entryNat · 3) } } }

/-- A die reads within 20 °C of its trip level at rail-up (R511, R578). -/
def hotAtRailUp (temps : List Int) : Bool := temps.any fun t => decide (95 < t)

/-- RESULT of the start after its tests; 0 where it goes on (R578, Table 20.5): links, HBM4 training, tiles and node cores, in the order
in which Table 20.3 comes to them. -/
def startResult (s : State) (hbmFailed : Bool) : Nat :=
  if s.noRoute then 4
  else if hbmFailed then 3
  else if s.start.report.usable.any (· < 32) then 1
  else if s.start.report.cores < 32 then 2
  else 0

/-- Training and the start self-test end (Table 20.3); a thermal hold fails the start before them. A module or device-warm start goes on
with its held bundle (R579). -/
def testsDone (s : State) (failed : List UnitRef) (hbmFailed : Bool) (temps : List Int) : State :=
  if hotAtRailUp temps then s.startFail 5
  else
    let s := s.selfTest failed
    match s.startResult hbmFailed with
    | 0 => s.set Reg.ST_STAT.STATE (if s.start.kind = 2 || s.start.kind = 3 then 4 else 3)
    | n => s.startFail n

/-- The held bundle is loaded at a module or device-warm start (R579). -/
def heldBundle (s : State) : State :=
  if s.start.kind = 2 then
    if bundleOk s.start.bundle then (s.takeBundle s.start.bundle).startReady else s.discardBundle.startFail 6
  else if s.componentsMatch then s.startReady
  else s.startFail 6

/-- The fetch of a file through the host port ends (R575): `k` takes the file. -/
def fetched (s : State) (kind state : Nat) (k : State → List Byte → State) : State :=
  if s.start.fetch ≠ some kind then s
  else
    let s : State := { s with start := { s.start with fetch := none } }
    if s.get Reg.ST_STAT.STATE ≠ state then s
    else
      match s.fetchFile with
      | some f => k s f
      | none => s.raise Reg.ST_STAT.LOADERR

end State

/-! ## Rows -/

/-- MATE_ASSERT (R614). -/
def execMateAssert (s : State) : Host.Outcome State Fault Refusal := .next { s with start := { s.start with mated := true } }

/-- MATE_RELEASE (R615). -/
def execMateRelease (s : State) : Host.Outcome State Fault Refusal :=
  let s : State := { s with start := { s.start with mated := false } }
  if s.start.begun || s.start.off.isSome then .next (s.railsOff .mate) else .next s

/-- POWER_ON_START (R577, R583): the input of a mated module that is off has qualified. With TEST_EN high the hub stays in reset and
Tarle does not run (R617). -/
def execPowerOnStart (s : State) : Host.Outcome State Fault Refusal :=
  if s.start.mated && !s.start.begun then
    if s.ident.testEn then
      let t := s.fullReset .powerOn
      .next { t with start := { t.start with off := none } }
    else .next s.powerOnStart
  else .next s

/-- RECORD_FETCH_COMPLETE (R574, R575). -/
def execRecordFetchComplete (s : State) : Host.Outcome State Fault Refusal := .next (s.fetched 1 1 fun s f => s.recordArrived f)

/-- START_SELF_TEST_DONE (R454 to R456, R577, R578). -/
def execStartSelfTestDone (failed : List UnitRef) (hbmFailed : Bool) (temps : List Int) (s : State) :
    Host.Outcome State Fault Refusal :=
  if s.get Reg.ST_STAT.STATE = 2 then .next (s.testsDone failed hbmFailed temps) else .next s

/-- BUNDLE_FETCH_COMPLETE (R546, R575, R579). -/
def execBundleFetchComplete (s : State) : Host.Outcome State Fault Refusal :=
  if s.get Reg.ST_STAT.STATE = 4 then .next s.heldBundle else .next (s.fetched 2 3 fun s f => s.bundleArrived f)

/-- STOP_DRAIN_END (R582). -/
def execStopDrainEnd (s : State) : Host.Outcome State Fault Refusal :=
  if s.start.stop.isSome && s.workDrained then .next (s.endStop false) else .next s

/-- STOP_LIMIT_EXPIRY (R582): LIMIT rounds have passed. -/
def execStopLimitExpiry (s : State) : Host.Outcome State Fault Refusal :=
  match s.start.stop with
  | some (_, r) => if (s.round + 2 ^ 48 - r) % 2 ^ 48 < 2 ^ 47 then .next (s.endStop true) else .next s
  | none => .next s

end Sys2Proof.Machine
end

