-- ==== Sys2Proof/Machine/NodeCores.lean ====
section
/-! DEFINITION. Loads, stores, atomics and fences of the node cores, at the physical address and page attribute that their own
translation gives (R369, R399 to R411). -/

namespace Sys2Proof.Machine

/-- Class of an access in a FENCE's sets: 1 w, 2 r, 4 o, 8 i (R410). -/
def fenceBit (write dev : Bool) : Nat :=
  match dev, write with
  | false, true => 1
  | false, false => 2
  | true, true => 4
  | true, false => 8

namespace State

/-- The hart executes: released, and neither asleep nor in WFI (R369, R513). -/
def hartRuns (s : State) (h : Nat) : Bool :=
  (s.hart h).running && !(s.hart h).wfi && s.power.sleep != .nap && s.power.sleep != .night

/-- Outstanding accesses of a hart beyond coherent memory. -/
def hartOut (s : State) (h : Nat) : List Access := s.order.out.filter fun x => x.unit == .hart h

/-- An access of a class in `bits` must wait for a FENCE whose predecessor set is not done (R411). -/
def fenceHolds (s : State) (h bits : Nat) : Bool :=
  (s.hart h).fences.any fun f =>
    (f.succ &&& bits) != 0
      && (((s.hart h).unc.any fun u => f.txns.contains u.txn) || ((s.hartOut h).any fun x => f.ids.contains x.id))

/-- A DEV access of the hart is not acknowledged (R408). -/
def hartDevBusy (s : State) (h : Nat) : Bool := ((s.hart h).unc.any fun u => u.dev) || ((s.hartOut h).any fun x => x.dev)

/-- An uncached access of the hart to the line is outstanding: a later access to it waits (R396, R407). -/
def hartLineBusy (s : State) (h line : Nat) : Bool := (s.hart h).unc.any fun u => u.addr / 128 == line

/-- Where a node core's access goes: an access fault (R317, R337, R420; Log 25), or a target with its effective type (R400). -/
inductive HartTarget where
  | fault
  | memory (eff : Nat)
  | device (off : Nat)
  | port (eff : Nat)
  deriving DecidableEq, Repr

def hartTarget (s : State) (ctx a pbmt n : Nat) (write : Bool) : HartTarget :=
  let eff := s.effType a false pbmt
  if pbmt = 3 || a % n ≠ 0 then .fault
  else
    match s.space a with
    | some .tier0 | some .tier1 => if s.retired (a / 2 ^ 21) then .fault else .memory eff
    | some .device => .device (a - deviceBase)
    | some .outbound => if (s.portOf a).isSome && s.windowCheck ctx a n write then .port eff else .fault
    | some .flash | none => .fault

/-- A held line that an uncached access is to reach is replaced first (R359). -/
def uncachedRoom (s : State) (h line : Nat) : State :=
  match s.cline h line with
  | some c => if c.st.stable then (s.replaceLine h line).getD s else s
  | none => s

/-- Sends the request of an uncached access of a hart to coherent memory, for a store with its data (R350, R399). -/
def hartUncached (s : State) (h : Nat) (u : UncAccess) (ctx : Nat) (v : Nat) : State :=
  let line := u.addr / 128
  if (s.cline h line).isSome then s.uncachedRoom h line
  else
    match s.sendReq (if u.write then .wrPart else .rdCur) h line ctx with
    | none => s
    | some (t, s) =>
      let u := { u with txn := t, issued := s.order.timer, tout := s.timeoutOf u.addr false }
      let s := s.onHart h fun x => { x with unc := x.unc ++ [u] }
      if u.write then
        let (d, m) := lineWith (u.addr % 128) u.size (BitVec.ofNat 64 v)
        s.send { kind := .wbData, src := BitVec.ofNat 6 h, dst := BitVec.ofNat 6 (0x28 + s.homeOf line), txn := BitVec.ofNat 12 t,
                 line := BitVec.ofNat 45 line, data := d, mask := m }
      else s

/-- An access of a hart to coherent memory. -/
def hartTry (s : State) (h a n : Nat) (write : Bool) : Access :=
  { id := 0, unit := .hart h, write := write, dev := false, addr := a, bytes := n, ctx := (s.hart h).mflsctx }

/-- A load of a node core (R399). -/
def hartLoad (s : State) (h rd a pbmt n : Nat) : State :=
  let ctx := (s.hart h).mflsctx
  let line := a / 128
  match s.hartTarget ctx a pbmt n false with
  | .fault => s.hartFault h
  | .memory eff =>
    if s.fenceHolds h (fenceBit false (eff == 2)) || s.hartLineBusy h line then s
    else if eff = 0 then
      match s.avail h line ctx false with
      | .ready c => (s.tryEnds (.hart h) line).setHartReg h rd (extend (lineNat c.data (a % 128) n) n true)
      | .wait s => s.tries (s.hartTry h a n false)
      | .refused s => (s.tryEnds (.hart h) line).hartFault h
      | .spoiled s => (s.tryEnds (.hart h) line).hartFault h
    else if eff = 2 && s.hartDevBusy h then s
    else s.hartUncached h { write := false, rd := rd, addr := a, size := n, dev := eff == 2 } ctx 0
  | .device off =>
    if s.fenceHolds h 8 || s.hartDevBusy h then s
    else
      match s.deviceRead (.hart (Fin.ofNat 32 h)) off n with
      | (some v, s) => s.setHartReg h rd (extend v n true)
      | (none, s) => s.hartFault h
  | .port eff =>
    if s.fenceHolds h (fenceBit false (eff == 2)) || (eff = 2 && s.hartDevBusy h) then s
    else
      s.issue { id := 0, unit := .hart h, write := false, dev := eff == 2, addr := a, bytes := n, rd := rd, sext := true, ctx := ctx
                tout := s.timeoutOf a false }

/-- A store of a node core (R399, R407, R408). -/
def hartStore (s : State) (h a pbmt n : Nat) (v : Nat) : State :=
  let ctx := (s.hart h).mflsctx
  let line := a / 128
  match s.hartTarget ctx a pbmt n true with
  | .fault => s.hartFault h
  | .memory eff =>
    if s.fenceHolds h (fenceBit true (eff == 2)) || s.hartLineBusy h line then s
    else if eff = 0 && s.storeGone (.hart h) line then s.tryEnds (.hart h) line
    else if eff = 0 then
      match s.avail h line ctx true with
      | .ready c =>
        let (d, m) := lineWith (a % 128) n (BitVec.ofNat 64 v)
        ((s.tryEnds (.hart h) line).setCline h line
          { c with st := .m, data := lineMerge c.data d m }).breakReservations line none (some h)
      | .wait s => s.tries (s.hartTry h a n true)
      | .refused s => (s.tryEnds (.hart h) line).hartFault h
      | .spoiled s => (s.tryEnds (.hart h) line).hartFault h
    else if eff = 2 && s.hartDevBusy h then s
    else s.hartUncached h { write := true, addr := a, size := n, dev := eff == 2 } ctx v
  | .device off =>
    if s.fenceHolds h 4 || s.hartDevBusy h then s
    else
      match s.deviceWrite (.hart (Fin.ofNat 32 h)) off n (v % 2 ^ (8 * n)) with
      | (true, s) => s
      | (false, s) => s.hartFault h
  | .port eff =>
    if s.fenceHolds h (fenceBit true (eff == 2)) || (eff = 2 && s.hartDevBusy h) then s
    else
      s.issue { id := 0, unit := .hart h, write := true, dev := eff == 2, addr := a, bytes := n, data := leBytes n v, ctx := ctx
                tout := s.timeoutOf a false }

/-- A store of the hart is outstanding: an atomic with the release bit waits for it (R396; Log 119). -/
def hartStores (s : State) (h : Nat) : Bool := ((s.hart h).unc.any fun u => u.write) || ((s.hartOut h).any fun x => x.write)

/-- An AMO, LR or SC of a node core, performed at its private L2 with the line owned (R399, R401, R403): `k` is given the line's copy. -/
def hartAtomic (s : State) (h a pbmt n : Nat) (k : State → CLine → State) : State :=
  let ctx := (s.hart h).mflsctx
  match s.hartTarget ctx a pbmt n true with
  | .memory eff =>
    if eff = 2 then s.hartFault h
    else if s.fenceHolds h 3 || s.hartLineBusy h (a / 128) then s
    else
      match s.avail h (a / 128) ctx true with
      | .ready c => k (s.tryEnds (.hart h) (a / 128)) c
      | .wait s => s.tries (s.hartTry h a n false)
      | .refused s => (s.tryEnds (.hart h) (a / 128)).hartFault h
      | .spoiled s => (s.tryEnds (.hart h) (a / 128)).hartFault h
  | .fault | .device _ | .port _ => s.hartFault h

/-- The atomic's bytes are written at the L2, and other holders' reservations on the granule go (R404). -/
def hartAtomicWrite (s : State) (h a n : Nat) (c : CLine) (v : W64) : State :=
  let (d, m) := lineWith (a % 128) n v
  (s.setCline h (a / 128) { c with st := .m, data := lineMerge c.data d m }).breakReservations (a / 128) none (some h)

/-- A FENCE of a node core (R410, R411): accesses of its successor set wait for those outstanding accesses that its predecessor set
names. A FENCE whose predecessors are all done is complete. -/
def hartFence (s : State) (h pred succ : Nat) : State :=
  let named (write dev : Bool) : Bool := (pred &&& fenceBit write dev) != 0
  let txns := ((s.hart h).unc.filter fun u => named u.write u.dev).map (·.txn)
  let ids := ((s.hartOut h).filter fun x => named x.write x.dev).map (·.id)
  let live := (s.hart h).fences.filter fun f =>
    ((s.hart h).unc.any fun u => f.txns.contains u.txn) || ((s.hartOut h).any fun x => f.ids.contains x.id)
  let mine : List HartFence := if txns.isEmpty && ids.isEmpty then [] else [{ txns := txns, ids := ids, succ := succ }]
  s.onHart h fun x => { x with fences := live ++ mine }

end State

/-! ## Rows -/

/-- NODE_CORE_LOAD (R399): LB, LH, LW or LD. -/
def execNodeCoreLoad (h : Fin 32) (rd : BitVec 5) (address : BitVec 52) (pbmt : BitVec 2) (size : MemSize) (s : State) :
    Host.Outcome State Fault Refusal :=
  if s.hartRuns h then .next (s.hartLoad h rd.toNat address.toNat pbmt.toNat (sizeBytes size)) else .next s

/-- NODE_CORE_STORE (R407). -/
def execNodeCoreStore (h : Fin 32) (address : BitVec 52) (pbmt : BitVec 2) (size : MemSize) (v : W64) (s : State) :
    Host.Outcome State Fault Refusal :=
  if s.hartRuns h then .next (s.hartStore h address.toNat pbmt.toNat (sizeBytes size) v.toNat) else .next s

/-- NODE_CORE_AMO (R401). -/
def execNodeCoreAmo (h : Fin 32) (op : AmoOp) (rd : BitVec 5) (address : BitVec 52) (pbmt : BitVec 2) (form : AtomicForm) (v : W64) (s : State) : Host.Outcome State Fault Refusal :=
  let n := if form.double then 8 else 4
  let a := address.toNat
  if s.hartRuns h && !(form.aqrl.getLsbD 0 && s.hartStores h) then
    .next (s.hartAtomic h a pbmt.toNat n fun s c =>
      let old := lineNat c.data (a % 128) n
      (s.hartAtomicWrite h a n c (amoResult op form.double (BitVec.ofNat 64 old) v)).setHartReg h rd.toNat (extend old n true))
  else .next s

/-- NODE_CORE_LR (R403, R404). -/
def execNodeCoreLr (h : Fin 32) (rd : BitVec 5) (address : BitVec 52) (pbmt : BitVec 2) (form : AtomicForm)
    (s : State) : Host.Outcome State Fault Refusal :=
  let n := if form.double then 8 else 4
  let a := address.toNat
  if s.hartRuns h && !(form.aqrl.getLsbD 0 && s.hartStores h) then
    .next (s.hartAtomic h a pbmt.toNat n fun s c =>
      let s := s.setCline h (a / 128) { c with st := .m }
      (s.onHart h fun x => { x with resv := some (a / 128) }).setHartReg h rd.toNat (extend (lineNat c.data (a % 128) n) n true))
  else .next s

/-- NODE_CORE_SC (R404, R405). -/
def execNodeCoreSc (h : Fin 32) (rd : BitVec 5) (address : BitVec 52) (pbmt : BitVec 2) (form : AtomicForm) (v : W64)
    (s : State) : Host.Outcome State Fault Refusal :=
  let n := if form.double then 8 else 4
  let a := address.toNat
  if s.hartRuns h && !(form.aqrl.getLsbD 0 && s.hartStores h) then
    .next (s.hartAtomic h a pbmt.toNat n fun s c =>
      let held := (s.hart h).resv == some (a / 128)
      let s := s.onHart h fun x => { x with resv := none }
      if held then (s.hartAtomicWrite h a n c v).setHartReg h rd.toNat 0 else s.setHartReg h rd.toNat 1)
  else .next s

/-- NODE_CORE_FENCE (R410, R411). -/
def execNodeCoreFence (h : Fin 32) (pred succ : BitVec 4) (s : State) : Host.Outcome State Fault Refusal :=
  if s.hartRuns h then .next (s.hartFence h pred.toNat succ.toNat) else .next s

end Sys2Proof.Machine
end

