-- ==== Sys2Proof/Machine/Cycle.lean ====
section
/-! DEFINITION. What a cycle of 250 ps of reference time brings (R5): node time and the access timer (R34 to R43, R412), the cycle counts
of descriptors (R61, R62, R496), and what is counted per half-rate cycle or per microsecond. The table of commands has no row for
it: it is what a step does when no command waits (Log 1). -/

namespace Sys2Proof.Machine

/-- Units of the fractions of node time and of the access timer in a nanosecond (Log 11). -/
def fracUnit : Nat := 2 ^ 18 * 10 ^ 9

/-- NT_FREQ as a signed number, clamped to ±500,000 ppb (R38). -/
def freqOf (v : Nat) : Int :=
  let f : Int := if v < 2 ^ 39 then v else (v : Int) - 2 ^ 40
  max (-(500000 * 65536)) (min (500000 * 65536) f)

namespace State

/-- The VA rail is on: node time counts (R35, R543). -/
def vaOn (s : State) : Bool :=
  s.start.begun || match s.start.off with
    | some .stop | some .supply | some .trip => true
    | some .mate | none => false

/-- What a cycle adds to node time, in units of `fracUnit` (R38, R43). -/
def rate (s : State) : Nat :=
  (65536 * 1000000000 + freqOf (s.get Reg.NT_FREQ.FREQ) + (if s.time.ppsLeft = 0 then 0 else s.time.ppsOffset * 65536)).toNat

/-- Node time and the access timer advance by a cycle (R34, R38, R40, R43, R412). Node time stays at its last value (Table 21.3). -/
def timeStep (s : State) : State :=
  let r := s.rate
  let acc := s.order.frac + r
  let s : State := { s with order := { s.order with timer := s.order.timer + acc / fracUnit, frac := acc % fracUnit } }
  let left := s.time.ppsLeft - 1
  if s.time.hold ≠ 0 then { s with time := { s.time with hold := s.time.hold - 1, ppsLeft := left } }
  else
    let t := s.time.frac + r
    let s : State := { s with time := { s.time with frac := t % fracUnit, ppsLeft := left } }
    if t / fracUnit = 0 then s else s.set Reg.NT_NOW.NOW (min (2 ^ 64 - 1) (s.now + t / fracUnit))

/-- A unit of the tile could issue an instruction, or has a started command that no fault stalls (R61; Log 52): the commands in flight
behind a stalled one of their unit go on (R391). -/
def tileActs (s : State) (t : Nat) : Bool :=
  let x := s.tile t
  let goes (w : Waiter) (n : Nat) : Bool := decide ((if s.stalled w then 1 else 0) < n)
  !s.throttled t && (s.coreReady t || goes (.fill t) x.ld.started.length || goes (.store t) x.st.started.length
    || !x.mx.started.isEmpty || !x.ve.started.isEmpty
    || match x.kernel with
      | some k => k.groups.any fun g => (s.groupIssues t g.block g.g).isSome
      | none => false)

/-- A unit of the tile is stalled on page-fault service (R391). -/
def tileStalled (s : State) (t : Nat) : Bool :=
  ((s.xlat.faults.flatMap fun f => f.joined.map (·.w)) ++ s.xlat.beyond.map fun r => r.by_.w).any fun w => match w with
    | .core t' | .group t' _ _ | .fill t' | .store t' => t' == t
    | _ => false

/-- The tile is fault-stalled in this cycle (R61). -/
def faultStalled (s : State) (t : Nat) : Bool := s.tileStalled t && !s.tileActs t

/-- A debugger has halted a group of the kernel on the tile: its cycles are unheld (R314). -/
def tileHalted (s : State) (t : Nat) : Bool := (s.tile t).kernel.any fun k => k.groups.any fun g => g.halted

/-- A cycle of a started descriptor: fault-held, throttle-held, or unheld (R61, R62, R314, R496). -/
def flightCycle (s : State) (f : Flight) : Flight :=
  if !f.started then f
  else
    let runs := (f.parts.filter fun p => p.st == .running).map (·.tile)
    let f := { f with cycles := f.cycles + 1 }
    if runs.any s.tileHalted then (if f.late then { f with lateUnheld := f.lateUnheld + 1, anyUnheld := true } else f)
    else if !runs.isEmpty && runs.all s.faultStalled then { f with faultHeld := f.faultHeld + 1 }
    else if runs.any s.throttled then { f with throtHeld := f.throtHeld + 1 }
    else if f.late then { f with lateUnheld := f.lateUnheld + 1, anyUnheld := true }
    else f

/-- Descriptors count their cycles; SORT_CRSTALL_CNT counts half-rate cycles that a completion ring is full. -/
def sorterCycle (s : State) : State :=
  let s : State := { s with sorter := { s.sorter with flights := s.sorter.flights.map s.flightCycle } }
  if s.time.cycle % 2 = 0 && s.sorter.rings.any (fun p => p.2.en && p.2.full) then s.bump Reg.SORT_CRSTALL_CNT.COUNT else s

/-- A whole microsecond of node time has passed (R441, R503). -/
def microsecond (s : State) : State :=
  let s := if s.flag Reg.PW_STAT.THROT then s.bump Reg.PW_THROT_CNT.COUNT else s
  s.stallCount

/-- One cycle. -/
def tickCycle (s : State) : State :=
  let s : State := { s with time := { s.time with cycle := s.time.cycle + 1 } }
  if !s.vaOn then s
  else
    let before := s.now / 1000
    let s := s.timeStep.chainStep
    if s.start.begun && s.power.sleep != .nap && s.power.sleep != .night then
      let s := s.sorterCycle
      if s.now / 1000 = before then s else s.microsecond
    else s

end State

end Sys2Proof.Machine
end

