-- ==== Sys2Proof/Machine/Dispatch.lean ====
section
/-! DEFINITION. One arm for each command: its meaning. -/

namespace Sys2Proof.Machine

/-- The effect of a command on everything but the queue. -/
def exec (i : Instr) (s : State) : Host.Outcome State Fault Refusal :=
  match i with
  | .ntStepForward by_ d => Sys2Proof.Machine.execNtStepForward by_ d s
  | .ntStepBackward by_ d => Sys2Proof.Machine.execNtStepBackward by_ d s
  | .holdEnd => Sys2Proof.Machine.execHoldEnd s
  | .ppsEdge rising => Sys2Proof.Machine.execPpsEdge rising s
  | .ppsCorrectionEnd => Sys2Proof.Machine.execPpsCorrectionEnd s
  | .ntAlarmWrite by_ v => Sys2Proof.Machine.execNtAlarmWrite by_ v s
  | .timeAlarm => Sys2Proof.Machine.execTimeAlarm s
  | .roundsEnable by_ v => Sys2Proof.Machine.execRoundsEnable by_ v s
  | .roundsDisable by_ v => Sys2Proof.Machine.execRoundsDisable by_ v s
  | .collectionTick => Sys2Proof.Machine.execCollectionTick s
  | .scratchpadClearEnd t => Sys2Proof.Machine.execScratchpadClearEnd t s
  | .beatStart r => Sys2Proof.Machine.execBeatStart r s
  | .lateDebit q seq => Sys2Proof.Machine.execLateDebit q seq s
  | .doorbell by_ q v => Sys2Proof.Machine.execDoorbell by_ q v s
  | .queueSelect => Sys2Proof.Machine.execQueueSelect s
  | .descriptorFetchComplete q => Sys2Proof.Machine.execDescriptorFetchComplete q s
  | .orderedDelivery q seq => Sys2Proof.Machine.execOrderedDelivery q seq s
  | .deliveryPacket t q seq => Sys2Proof.Machine.execDeliveryPacket t q seq s
  | .tileReport t => Sys2Proof.Machine.execTileReport t s
  | .completionRecordWrite r => Sys2Proof.Machine.execCompletionRecordWrite r s
  | .headCountReread r => Sys2Proof.Machine.execHeadCountReread r s
  | .descNop q seq => Sys2Proof.Machine.execDescNop q seq s
  | .qopen q seq => Sys2Proof.Machine.execQopen q seq s
  | .qclose q seq => Sys2Proof.Machine.execQclose q seq s
  | .qcloseComplete q seq => Sys2Proof.Machine.execQcloseComplete q seq s
  | .qresume q seq => Sys2Proof.Machine.execQresume q seq s
  | .cropen q seq => Sys2Proof.Machine.execCropen q seq s
  | .crclose q seq => Sys2Proof.Machine.execCrclose q seq s
  | .crcloseComplete q seq => Sys2Proof.Machine.execCrcloseComplete q seq s
  | .tsdefine q seq => Sys2Proof.Machine.execTsdefine q seq s
  | .tsclear q seq => Sys2Proof.Machine.execTsclear q seq s
  | .ctxopen q seq => Sys2Proof.Machine.execCtxopen q seq s
  | .ctxclose q seq => Sys2Proof.Machine.execCtxclose q seq s
  | .segset q seq => Sys2Proof.Machine.execSegset q seq s
  | .segsetComplete q seq => Sys2Proof.Machine.execSegsetComplete q seq s
  | .ownset q seq => Sys2Proof.Machine.execOwnset q seq s
  | .ownsetComplete q seq => Sys2Proof.Machine.execOwnsetComplete q seq s
  | .shareset q seq => Sys2Proof.Machine.execShareset q seq s
  | .tlbinv q seq => Sys2Proof.Machine.execTlbinv q seq s
  | .tlbinvComplete q seq => Sys2Proof.Machine.execTlbinvComplete q seq s
  | .fropen q seq => Sys2Proof.Machine.execFropen q seq s
  | .frclose q seq => Sys2Proof.Machine.execFrclose q seq s
  | .quotaSet q seq => Sys2Proof.Machine.execQuotaSet q seq s
  | .quotaQuery q seq => Sys2Proof.Machine.execQuotaQuery q seq s
  | .launch t => Sys2Proof.Machine.execLaunch t s
  | .kernel t => Sys2Proof.Machine.execKernel t s
  | .gemm t => Sys2Proof.Machine.execGemm t s
  | .ggemm t => Sys2Proof.Machine.execGgemm t s
  | .chain t => Sys2Proof.Machine.execChain t s
  | .ledgerHomeFold t strip => Sys2Proof.Machine.execLedgerHomeFold t strip s
  | .closingPass t strip => Sys2Proof.Machine.execClosingPass t strip s
  | .linear mover => Sys2Proof.Machine.execLinear mover s
  | .pack mover => Sys2Proof.Machine.execPack mover s
  | .unpack mover => Sys2Proof.Machine.execUnpack mover s
  | .trim mover => Sys2Proof.Machine.execTrim mover s
  | .copy mover => Sys2Proof.Machine.execCopy mover s
  | .fill mover => Sys2Proof.Machine.execFill mover s
  | .moveComplete mover => Sys2Proof.Machine.execMoveComplete mover s
  | .sort => Sys2Proof.Machine.execSort s
  | .merge => Sys2Proof.Machine.execMerge s
  | .topk => Sys2Proof.Machine.execTopk s
  | .sortingModeComplete => Sys2Proof.Machine.execSortingModeComplete s
  | .fence q seq => Sys2Proof.Machine.execFence q seq s
  | .fenceComplete q seq => Sys2Proof.Machine.execFenceComplete q seq s
  | .waitround q seq => Sys2Proof.Machine.execWaitround q seq s
  | .waittoken q seq => Sys2Proof.Machine.execWaittoken q seq s
  | .waittokenTimeout q seq => Sys2Proof.Machine.execWaittokenTimeout q seq s
  | .tokenWaitSatisfied t c => Sys2Proof.Machine.execTokenWaitSatisfied t c s
  | .tpush t e rd rs1 rs2 => Sys2Proof.Machine.execTpush t e rd rs1 rs2 s
  | .tqfree t e rd => Sys2Proof.Machine.execTqfree t e rd s
  | .tqidle t rd => Sys2Proof.Machine.execTqidle t rd s
  | .tsum t rd => Sys2Proof.Machine.execTsum t rd s
  | .tsumcnt t rd => Sys2Proof.Machine.execTsumcnt t rd s
  | .tklaunch t rd rs1 => Sys2Proof.Machine.execTklaunch t rd rs1 s
  | .tklaunchEnd t => Sys2Proof.Machine.execTklaunchEnd t s
  | .tend t => Sys2Proof.Machine.execTend t s
  | .tendComplete t => Sys2Proof.Machine.execTendComplete t s
  | .tpost t rs1 c release => Sys2Proof.Machine.execTpost t rs1 c release s
  | .ttake t rd rs1 c => Sys2Proof.Machine.execTtake t rd rs1 c s
  | .ttest t rd rs1 c => Sys2Proof.Machine.execTtest t rd rs1 c s
  | .tread t rd c => Sys2Proof.Machine.execTread t rd c s
  | .tsetc t rs1 c => Sys2Proof.Machine.execTsetc t rs1 c s
  | .tokenPost from_ c => Sys2Proof.Machine.execTokenPost from_ c s
  | .controlCoreLoad t rd rs1 imm size unsigned float => Sys2Proof.Machine.execControlCoreLoad t rd rs1 imm size unsigned float s
  | .controlCoreStore t rs1 rs2 imm size float => Sys2Proof.Machine.execControlCoreStore t rs1 rs2 imm size float s
  | .controlCoreAmo t op rd rs1 rs2 form => Sys2Proof.Machine.execControlCoreAmo t op rd rs1 rs2 form s
  | .controlCoreLr t rd rs1 form => Sys2Proof.Machine.execControlCoreLr t rd rs1 form s
  | .controlCoreSc t rd rs1 rs2 form => Sys2Proof.Machine.execControlCoreSc t rd rs1 rs2 form s
  | .controlCoreFence t pred succ => Sys2Proof.Machine.execControlCoreFence t pred succ s
  | .fenceI t => Sys2Proof.Machine.execFenceI t s
  | .ecall t g => Sys2Proof.Machine.execEcall t g s
  | .ebreak t g => Sys2Proof.Machine.execEbreak t g s
  | .pocketFillArrival t => Sys2Proof.Machine.execPocketFillArrival t s
  | .mergeEntryDrain t => Sys2Proof.Machine.execMergeEntryDrain t s
  | .pocketInvalidation t line => Sys2Proof.Machine.execPocketInvalidation t line s
  | .resetDrainEnd t => Sys2Proof.Machine.execResetDrainEnd t s
  | .tileResetComplete t => Sys2Proof.Machine.execTileResetComplete t s
  | .watchdogExpiry t => Sys2Proof.Machine.execWatchdogExpiry t s
  | .engineNop t e => Sys2Proof.Machine.execEngineNop t e s
  | .ldSetar t => Sys2Proof.Machine.execLdSetar t s
  | .ldSetsr t => Sys2Proof.Machine.execLdSetsr t s
  | .ld2d t => Sys2Proof.Machine.execLd2d t s
  | .ldZero t => Sys2Proof.Machine.execLdZero t s
  | .stSetar t => Sys2Proof.Machine.execStSetar t s
  | .stSetsr t => Sys2Proof.Machine.execStSetsr t s
  | .st2d t => Sys2Proof.Machine.execSt2d t s
  | .commandComplete t e => Sys2Proof.Machine.execCommandComplete t e s
  | .mxSetm t => Sys2Proof.Machine.execMxSetm t s
  | .mxSetp t => Sys2Proof.Machine.execMxSetp t s
  | .mxMma t => Sys2Proof.Machine.execMxMma t s
  | .mxExp t => Sys2Proof.Machine.execMxExp t s
  | .outTrayEntry t => Sys2Proof.Machine.execOutTrayEntry t s
  | .veLoadp t => Sys2Proof.Machine.execVeLoadp t s
  | .veSetin t => Sys2Proof.Machine.execVeSetin t s
  | .veRun t => Sys2Proof.Machine.execVeRun t s
  | .veRunEnd t => Sys2Proof.Machine.execVeRunEnd t s
  | .blockStart t => Sys2Proof.Machine.execBlockStart t s
  | .shflIdx g rd rs1 rs2 => Sys2Proof.Machine.execShflIdx g rd rs1 rs2 s
  | .shflUp g rd rs1 rs2 => Sys2Proof.Machine.execShflUp g rd rs1 rs2 s
  | .shflDown g rd rs1 rs2 => Sys2Proof.Machine.execShflDown g rd rs1 rs2 s
  | .shflXor g rd rs1 rs2 => Sys2Proof.Machine.execShflXor g rd rs1 rs2 s
  | .voteAny g rd rs1 => Sys2Proof.Machine.execVoteAny g rd rs1 s
  | .voteAll g rd rs1 => Sys2Proof.Machine.execVoteAll g rd rs1 s
  | .voteBallot g rd rs1 => Sys2Proof.Machine.execVoteBallot g rd rs1 s
  | .voteActive g rd => Sys2Proof.Machine.execVoteActive g rd s
  | .bar g b => Sys2Proof.Machine.execBar g b s
  | .gsync g rs1 => Sys2Proof.Machine.execGsync g rs1 s
  | .getid g rd f => Sys2Proof.Machine.execGetid g rd f s
  | .exit g => Sys2Proof.Machine.execExit g s
  | .srnd g rd rs1 format double n => Sys2Proof.Machine.execSrnd g rd rs1 format double n s
  | .tgpost g rs1 c release => Sys2Proof.Machine.execTgpost g rs1 c release s
  | .threadLoad g rd rs1 imm size unsigned => Sys2Proof.Machine.execThreadLoad g rd rs1 imm size unsigned s
  | .threadStore g rs1 rs2 imm size => Sys2Proof.Machine.execThreadStore g rs1 rs2 imm size s
  | .threadAmo g op rd rs1 rs2 form => Sys2Proof.Machine.execThreadAmo g op rd rs1 rs2 form s
  | .threadLr g rd rs1 form => Sys2Proof.Machine.execThreadLr g rd rs1 form s
  | .threadSc g rd rs1 rs2 form => Sys2Proof.Machine.execThreadSc g rd rs1 rs2 form s
  | .threadFence g pred succ => Sys2Proof.Machine.execThreadFence g pred succ s
  | .barrierWatchdog t => Sys2Proof.Machine.execBarrierWatchdog t s
  | .kernelPartEnd t => Sys2Proof.Machine.execKernelPartEnd t s
  | .memoryRequestService d slot => Sys2Proof.Machine.execMemoryRequestService d slot s
  | .refresh d => Sys2Proof.Machine.execRefresh d s
  | .scrubWriteBack d line => Sys2Proof.Machine.execScrubWriteBack d line s
  | .memLockSet by_ v => Sys2Proof.Machine.execMemLockSet by_ v s
  | .gddr7TrainingDone ch => Sys2Proof.Machine.execGddr7TrainingDone ch s
  | .rds m => Sys2Proof.Machine.execRds m s
  | .rdm m => Sys2Proof.Machine.execRdm m s
  | .upg m => Sys2Proof.Machine.execUpg m s
  | .rdcur m => Sys2Proof.Machine.execRdcur m s
  | .wrfull m => Sys2Proof.Machine.execWrfull m s
  | .wrpart m => Sys2Proof.Machine.execWrpart m s
  | .wbm m => Sys2Proof.Machine.execWbm m s
  | .wbo m => Sys2Proof.Machine.execWbo m s
  | .eve m => Sys2Proof.Machine.execEve m s
  | .chk m => Sys2Proof.Machine.execChk m s
  | .homeRequestDequeue home line => Sys2Proof.Machine.execHomeRequestDequeue home line s
  | .snps m => Sys2Proof.Machine.execSnps m s
  | .snpm m => Sys2Proof.Machine.execSnpm m s
  | .snpi m => Sys2Proof.Machine.execSnpi m s
  | .snpc m => Sys2Proof.Machine.execSnpc m s
  | .snprsp m => Sys2Proof.Machine.execSnprsp m s
  | .compack m => Sys2Proof.Machine.execCompack m s
  | .gntm m => Sys2Proof.Machine.execGntm m s
  | .cmp m => Sys2Proof.Machine.execCmp m s
  | .relack m => Sys2Proof.Machine.execRelack m s
  | .deny m => Sys2Proof.Machine.execDeny m s
  | .perr m => Sys2Proof.Machine.execPerr m s
  | .crdret m => Sys2Proof.Machine.execCrdret m s
  | .data m => Sys2Proof.Machine.execData m s
  | .wbdata m => Sys2Proof.Machine.execWbdata m s
  | .faultRecordWrite f => Sys2Proof.Machine.execFaultRecordWrite f s
  | .faultResumeReplay by_ f v => Sys2Proof.Machine.execFaultResumeReplay by_ f v s
  | .faultResumeFail by_ f v => Sys2Proof.Machine.execFaultResumeFail by_ f v s
  | .faultTimeout q seq => Sys2Proof.Machine.execFaultTimeout q seq s
  | .accessTimerTest => Sys2Proof.Machine.execAccessTimerTest s
  | .fenceNotice t => Sys2Proof.Machine.execFenceNotice t s
  | .flashGranuleRead mover outcome => Sys2Proof.Machine.execFlashGranuleRead mover outcome s
  | .flashGranuleWrite mover => Sys2Proof.Machine.execFlashGranuleWrite mover s
  | .flashReclaim ch blocks => Sys2Proof.Machine.execFlashReclaim ch blocks s
  | .readDisturbRelocation ch block => Sys2Proof.Machine.execReadDisturbRelocation ch block s
  | .flashChannelFailure ch => Sys2Proof.Machine.execFlashChannelFailure ch s
  | .mapCheckpoint => Sys2Proof.Machine.execMapCheckpoint s
  | .flashMapRestoreDone => Sys2Proof.Machine.execFlashMapRestoreDone s
  | .flitReceive direction flit => Sys2Proof.Machine.execFlitReceive direction flit s
  | .recalibrationEnd link failed => Sys2Proof.Machine.execRecalibrationEnd link failed s
  | .selfTestEnd unit failed => Sys2Proof.Machine.execSelfTestEnd unit failed s
  | .nodeCoreMachineCheck h => Sys2Proof.Machine.execNodeCoreMachineCheck h s
  | .guestRead hdr => Sys2Proof.Machine.execGuestRead hdr s
  | .guestWrite hdr bytes => Sys2Proof.Machine.execGuestWrite hdr bytes s
  | .guestMaskedWrite hdr bytes mask => Sys2Proof.Machine.execGuestMaskedWrite hdr bytes mask s
  | .allowanceRefill => Sys2Proof.Machine.execAllowanceRefill s
  | .ucieLinkDown => Sys2Proof.Machine.execUcieLinkDown s
  | .eventSignal n => Sys2Proof.Machine.execEventSignal n s
  | .sourceAssert n => Sys2Proof.Machine.execSourceAssert n s
  | .msixPbaSend v => Sys2Proof.Machine.execMsixPbaSend v s
  | .ecClaim by_ t => Sys2Proof.Machine.execEcClaim by_ t s
  | .ecComplete by_ t v => Sys2Proof.Machine.execEcComplete by_ t v s
  | .ecPend by_ v => Sys2Proof.Machine.execEcPend by_ v s
  | .ecMask by_ v => Sys2Proof.Machine.execEcMask by_ v s
  | .ecUnmask by_ v => Sys2Proof.Machine.execEcUnmask by_ v s
  | .ecPendSet by_ w v => Sys2Proof.Machine.execEcPendSet by_ w v s
  | .ecPendClr by_ w v => Sys2Proof.Machine.execEcPendClr by_ w v s
  | .ecMaskSet by_ w v => Sys2Proof.Machine.execEcMaskSet by_ w v s
  | .ecMaskClr by_ w v => Sys2Proof.Machine.execEcMaskClr by_ w v s
  | .railSample r counts temp => Sys2Proof.Machine.execRailSample r counts temp s
  | .droopDetect r domain => Sys2Proof.Machine.execDroopDetect r domain s
  | .droopRecover r domain => Sys2Proof.Machine.execDroopRecover r domain s
  | .supplyWarning => Sys2Proof.Machine.execSupplyWarning s
  | .supplyRecovery => Sys2Proof.Machine.execSupplyRecovery s
  | .supplyLoss => Sys2Proof.Machine.execSupplyLoss s
  | .dozeEntry t => Sys2Proof.Machine.execDozeEntry t s
  | .powerStateEntry => Sys2Proof.Machine.execPowerStateEntry s
  | .powerEntryAbandon => Sys2Proof.Machine.execPowerEntryAbandon s
  | .wakeComplete => Sys2Proof.Machine.execWakeComplete s
  | .bar4Read offset len => Sys2Proof.Machine.execBar4Read offset len s
  | .bar4Write offset bytes => Sys2Proof.Machine.execBar4Write offset bytes s
  | .hostLinkDown => Sys2Proof.Machine.execHostLinkDown s
  | .hostLinkUp => Sys2Proof.Machine.execHostLinkUp s
  | .hostPerst => Sys2Proof.Machine.execHostPerst s
  | .attach by_ v => Sys2Proof.Machine.execAttach by_ v s
  | .attachComplete => Sys2Proof.Machine.execAttachComplete s
  | .rootPortInboundRequest p pasid write address len bytes => Sys2Proof.Machine.execRootPortInboundRequest p pasid write address len bytes s
  | .rootPortLinkChange p rate width => Sys2Proof.Machine.execRootPortLinkChange p rate width s
  | .ideIntegrityFailure port stream => Sys2Proof.Machine.execIdeIntegrityFailure port stream s
  | .wakeLetter bytes => Sys2Proof.Machine.execWakeLetter bytes s
  | .bootDataLetter bytes => Sys2Proof.Machine.execBootDataLetter bytes s
  | .letterForward bytes => Sys2Proof.Machine.execLetterForward bytes s
  | .bypassClose => Sys2Proof.Machine.execBypassClose s
  | .bypassOpen => Sys2Proof.Machine.execBypassOpen s
  | .status src => Sys2Proof.Machine.execStatus src s
  | .evidence src => Sys2Proof.Machine.execEvidence src s
  | .extend src => Sys2Proof.Machine.execExtend src s
  | .setcap src => Sys2Proof.Machine.execSetcap src s
  | .power src => Sys2Proof.Machine.execPower src s
  | .sealnonce src => Sys2Proof.Machine.execSealnonce src s
  | .seal src => Sys2Proof.Machine.execSeal src s
  | .dbgkey src => Sys2Proof.Machine.execDbgkey src s
  | .dbgnonce src => Sys2Proof.Machine.execDbgnonce src s
  | .dbgopen src => Sys2Proof.Machine.execDbgopen src s
  | .halt src => Sys2Proof.Machine.execHalt src s
  | .debugRead src => Sys2Proof.Machine.execDebugRead src s
  | .debugWrite src => Sys2Proof.Machine.execDebugWrite src s
  | .step src => Sys2Proof.Machine.execStep src s
  | .resume src => Sys2Proof.Machine.execResume src s
  | .dbgclose src => Sys2Proof.Machine.execDbgclose src s
  | .debugSessionExpiry handle => Sys2Proof.Machine.execDebugSessionExpiry handle s
  | .portkey src => Sys2Proof.Machine.execPortkey src s
  | .getVersion request => Sys2Proof.Machine.execGetVersion request s
  | .getCapabilities request => Sys2Proof.Machine.execGetCapabilities request s
  | .negotiateAlgorithms request => Sys2Proof.Machine.execNegotiateAlgorithms request s
  | .getDigests request => Sys2Proof.Machine.execGetDigests request s
  | .getCertificate request => Sys2Proof.Machine.execGetCertificate request s
  | .challenge request => Sys2Proof.Machine.execChallenge request s
  | .getMeasurements request => Sys2Proof.Machine.execGetMeasurements request s
  | .keyExchange request => Sys2Proof.Machine.execKeyExchange request s
  | .finish session request => Sys2Proof.Machine.execFinish session request s
  | .keyUpdate session request => Sys2Proof.Machine.execKeyUpdate session request s
  | .heartbeat session request => Sys2Proof.Machine.execHeartbeat session request s
  | .endSession session request => Sys2Proof.Machine.execEndSession session request s
  | .tarleWatchdogExpiry => Sys2Proof.Machine.execTarleWatchdogExpiry s
  | .tamper => Sys2Proof.Machine.execTamper s
  | .mateAssert => Sys2Proof.Machine.execMateAssert s
  | .mateRelease => Sys2Proof.Machine.execMateRelease s
  | .powerOnStart => Sys2Proof.Machine.execPowerOnStart s
  | .recordDelivery by_ v => Sys2Proof.Machine.execRecordDelivery by_ v s
  | .bundleDelivery by_ v => Sys2Proof.Machine.execBundleDelivery by_ v s
  | .recordFetchComplete => Sys2Proof.Machine.execRecordFetchComplete s
  | .startSelfTestDone failed hbmFailed temps => Sys2Proof.Machine.execStartSelfTestDone failed hbmFailed temps s
  | .bundleFetchComplete => Sys2Proof.Machine.execBundleFetchComplete s
  | .moduleReset by_ v => Sys2Proof.Machine.execModuleReset by_ v s
  | .deviceWarmReset by_ v => Sys2Proof.Machine.execDeviceWarmReset by_ v s
  | .tarleOnlyReset by_ v => Sys2Proof.Machine.execTarleOnlyReset by_ v s
  | .tarleResetComplete => Sys2Proof.Machine.execTarleResetComplete s
  | .fullMaintenanceStop by_ v => Sys2Proof.Machine.execFullMaintenanceStop by_ v s
  | .powerOff by_ v => Sys2Proof.Machine.execPowerOff by_ v s
  | .stopDrainEnd => Sys2Proof.Machine.execStopDrainEnd s
  | .stopLimitExpiry => Sys2Proof.Machine.execStopLimitExpiry s
  | .mflsctxWrite h machineMode v => Sys2Proof.Machine.execMflsctxWrite h machineMode v s
  | .lowWordRead by_ offset => Sys2Proof.Machine.execLowWordRead by_ offset s
  | .highWordRead by_ offset => Sys2Proof.Machine.execHighWordRead by_ offset s
  | .registerWrite by_ offset wide v => Sys2Proof.Machine.execRegisterWrite by_ offset wide v s
  | .nodeCoreLoad h rd address pbmt size => Sys2Proof.Machine.execNodeCoreLoad h rd address pbmt size s
  | .nodeCoreStore h address pbmt size v => Sys2Proof.Machine.execNodeCoreStore h address pbmt size v s
  | .nodeCoreAmo h op rd address pbmt form v => Sys2Proof.Machine.execNodeCoreAmo h op rd address pbmt form v s
  | .nodeCoreLr h rd address pbmt form => Sys2Proof.Machine.execNodeCoreLr h rd address pbmt form s
  | .nodeCoreSc h rd address pbmt form v => Sys2Proof.Machine.execNodeCoreSc h rd address pbmt form v s
  | .nodeCoreFence h pred succ => Sys2Proof.Machine.execNodeCoreFence h pred succ s
  | .pcieCompletionArrival access bytes => Sys2Proof.Machine.execPcieCompletionArrival access bytes s
  | .badLetter bytes => Sys2Proof.Machine.execBadLetter bytes s
  | .refusedRegisterRead by_ offset size => Sys2Proof.Machine.execRefusedRegisterRead by_ offset size s
  | .ucieLinkUp => Sys2Proof.Machine.execUcieLinkUp s
  | .malformedGuestMessage hdr => Sys2Proof.Machine.execMalformedGuestMessage hdr s
  | .wearLevelling ch block => Sys2Proof.Machine.execWearLevelling ch block s
  | .channelRewritten ch => Sys2Proof.Machine.execChannelRewritten ch s
  | .hostPortError => Sys2Proof.Machine.execHostPortError s
  | .hostPerstRelease => Sys2Proof.Machine.execHostPerstRelease s
  | .ideKm port stream session request => Sys2Proof.Machine.execIdeKm port stream session request s

end Sys2Proof.Machine
end

