-- ==== Sys2Proof/Safety.lean ====
section
/-! DEFINITION. What a good state is, in the terms that statements use. -/

namespace Sys2Proof.Machine

/-- No range of Tier 0 departs from the rule by which its unlisted bytes read as zero (Log 4). -/
def fillWf (m : AMap (Option Nat)) : Bool := m.all fun p => decide (tier1Base ≤ p.1 * 65536)

/-- The memory of the device and of the service host are in canonical form: addresses strictly rise, and no byte is listed that an
unlisted address reads as. -/
def Memory.wf (s : State) : Bool := fillWf s.ident.fill && cellsWf s.dflt s.mem && cellsWf (fun _ => 0) s.hostMem

/-- What is fixed at manufacture and by the tray: the build, the guest, the serial number and the slot (R537, R608). -/
def State.made (s : State) : Bool × Bool × BitVec 128 × BitVec 6 := (s.ident.g, s.ident.guest, s.ident.serial, s.ident.slot)

/-- What every step keeps: the memories' canonical form, and what is fixed at manufacture as `m` says. -/
def State.Kept (m : Bool × Bool × BitVec 128 × BitVec 6) (s : State) : Prop := Memory.wf s = true ∧ s.made = m

/-- Command `c` goes on from `s`: it answers a next state, and that state is as `p` says. -/
def Goes (c : Instr) (s : State) (p : State → Prop) : Prop := ∃ t, exec c s = .next t ∧ p t

/-- Beside the fields named, every register field of `t` is as in `s`. -/
def State.FieldsBut (s t : State) (l : List Fld) : Prop := ∀ f : Fld, f.key ∉ l.map Fld.key → t.get f = s.get f

/-- Descriptor `(q, seq)` has left the sorter. -/
def State.Left (s t : State) (q seq : Nat) : Prop := t.sorter.flights = s.sorter.flights.filter fun x => !(x.queue == q && x.seq == seq)

/-- Descriptor `f` has made its own step and waits for its completion. -/
def State.Waits (t : State) (f : Flight) : Prop := t.flight? f.queue f.seq = some { f with acted := true, waiting := true }

/-- Beside the sorter, the register fields and the event controller, `t` is as `s`. -/
def State.SorterOnly (s t : State) : Prop := t = { s with sorter := t.sorter, flds := t.flds, ec := t.ec }

/-- An instruction of tile `n`'s control core has retired, and been counted, and left `v` in register `rd`, x0 staying 0; the rest of the tile is as `x`,
and every other tile as before. -/
def State.Wrote (s t : State) (n rd : Nat) (v : W64) (x : Tile) : Prop :=
  (∀ r, r < 32 → t.coreReg n r = if r = rd ∧ r ≠ 0 then v else s.coreReg n r) ∧
    t.tile n = { x with core := { x.core with
      pc := (s.tile n).core.pc + 4, retired := ((s.tile n).core.retired + 1) % 2 ^ 64, x := (t.tile n).core.x } } ∧
    ∀ m, m ≠ n → t.tile m = s.tile m

/-- A lane of a resident group. -/
def State.laneAt (s : State) (r : GroupRef) (i : Nat) : Lane :=
  match s.group? r.tile r.block.toNat r.group with
  | some (_, x) => x.lanes.getD i {}
  | none => {}

/-- The lanes `ls` of a group have retired an instruction that leaves `v i` in register `rd` of lane `i`; every other lane of every
group, and the rest of the block, are as before. -/
def State.LanesWrote (s t : State) (r : GroupRef) (ls : List Nat) (rd : BitVec 5) (v : Nat → W64) : Prop :=
  (∀ i, if i ∈ ls then (t.laneAt r i).pc = (s.laneAt r i).pc + 4 ∧
      (∀ q, laneReg (t.laneAt r i) q = if q = rd ∧ q ≠ 0 then v i else laneReg (s.laneAt r i) q) ∧
      (t.laneAt r i).exited = (s.laneAt r i).exited ∧ (t.laneAt r i).wait = (s.laneAt r i).wait
    else t.laneAt r i = s.laneAt r i) ∧
    (∀ r' i, r' ≠ r → t.laneAt r' i = s.laneAt r' i) ∧ (∀ m, m ≠ r.tile.val → t.tile m = s.tile m) ∧ t = { s with tiles := t.tiles }

/-- Command `d`, of operation `op`, heads the queue of engine `e` of tile `t`, `rest` behind it, and can start; the control core waits for
nothing. -/
def State.Head (s : State) (t : Nat) (e : Engine) (op : Nat) (d : BitVec 128) (rest : List (BitVec 128)) : Prop :=
  s.engineRuns t e = true ∧ (s.engine t e).queue = d :: rest ∧ s.commandBad t e d = false ∧ s.lateBad t e d = false ∧ cmdOp d = op ∧ headWants (s.engine t e) = none ∧
    (d.getLsbD 23 = false ∨ (s.engine t e).started = []) ∧ (s.tile t).core.wait = .none

/-- But for the test of the command that now heads the queue of engine `e` of tile `t` (R136), the state is as `p` says. -/
def Tested (t : Nat) (e : Engine) (p : State → Prop) (u : State) : Prop := ∃ v : State, u = v.testHead t e ∧ p v

/-- Command `d` has left the queue of engine `e` for the started ones; the other engines, the control core, the token counters and every
other tile are as before. -/
def State.Popped (s u : State) (t : Nat) (e : Engine) (d : BitVec 128) (rest : List (BitVec 128)) (done : Bool) : Prop :=
  (u.engine t e).queue = rest ∧ (u.engine t e).started = (s.engine t e).started ++ [(d, done)] ∧ (u.engine t e).taken = false ∧
    (∀ e', e' ≠ e → u.engine t e' = s.engine t e') ∧ (u.tile t).core = (s.tile t).core ∧ (u.tile t).tokens = (s.tile t).tokens ∧
    (u.tile t).fifo = (s.tile t).fifo ∧ ∀ m, m ≠ t → u.tile m = s.tile m

/-- A request of OPC `opc` with payload `x` is in progress at `src`, Tarle runs, and a letter's answer has room to leave. -/
def State.Asks (s : State) (src : TarleSource) (opc : Nat) (x : List Byte) : Prop :=
  ∃ p, s.requestPage src = some p ∧ s.tarleRuns = true ∧ fileNat p 0 1 = opc ∧ 8 + fileNat p 2 2 ≤ p.length ∧
    x = fileBytes p 8 (fileNat p 2 2) ∧ (src = .letter → s.host.sendQ.length ≤ 4)

/-- Payload `x` of a DBGOP names a session that lets in operations of OPS bit `i`, and a resident group of its context: group `g` of block
`b` of tile `t`, with its kernel `k` and its state `y`. -/
def State.Debugs (s : State) (x : List Byte) (i t b g : Nat) (k : Kernel) (y : Group) : Prop :=
  t = fileNat x 2 1 ∧ g = fileNat x 3 1 ∧ b = fileNat x 4 4 ∧ s.group? t b g = some (k, y) ∧
    ∃ d f, AMap.get? s.tarle.sessions (fileNat x 0 1) = some d ∧ d.ops.testBit i = true ∧ s.running t = some f ∧ ctxidOf f.desc = d.ctx

end Sys2Proof.Machine
end

