-- ==== Sys2Proof/Certificates/Slice0/Obligations.lean ====
section
/-! DEFINITION. The statements for the provers, in the order of OBLIGATIONS.json. A command stands for an event (Log 2); a statement about a
command says what its next state is, and names all of State that may differ from the state before. -/

set_option linter.all false

open Sys2Proof Sys2Proof.Machine

/-- The step takes the command at the front of the queue and performs it on the state with the queue's rest. The queue of commands
is the form of the model (Log 2). -/
def Obligations.StepRunsFrontCommand : Prop :=  ∀ (c : Instr) (rest : List Instr) (s : State), step { s with pending := c :: rest } = exec c { s with pending := rest }

/-- A step on an empty queue is one cycle of 250 ps: the model's choice (Log 1). With the VA rail on and no hold, steering or
correction, node time, short of its end, gains a quarter of a nanosecond; during a hold it does not change. That a step on an
empty queue is a cycle is the choice of Log 1, and the unit of the fraction that of Log 11. -/
def Obligations.IdleStepIsACycle : Prop :=  ∀ s : State, s.pending = [] → ∃ t, step s = .next t ∧ t.pending = [] ∧ t.time.cycle = s.time.cycle + 1 ∧
    (s.vaOn = true → s.time.hold = 0 → s.get Reg.NT_FREQ.FREQ = 0 → s.time.ppsLeft = 0 → s.now < 2 ^ 64 - 1 →
      s.time.frac < fracUnit → 4 * (t.now * fracUnit + t.time.frac) = 4 * (s.now * fracUnit + s.time.frac) + fracUnit) ∧
    (s.time.hold ≠ 0 → t.now = s.now)

/-- No command stops the block, and none touches the queue: only the step takes commands from it. That a command which is not due
changes nothing is the choice of Log 2. -/
def Obligations.EveryCommandGoesOn : Prop :=  ∀ (c : Instr) (s : State), Goes c s fun t => t.pending = s.pending

/-- The state after reset has its memories in canonical form. The canonical form of memory is that of Log 4 and Log 12; the build is
that of Log 10. -/
def Obligations.ResetIsKept : Prop := State.reset.Kept State.reset.made

/-- Every step keeps the canonical form of the memories, the build, the guest die, the serial number and the slot. The canonical
form of memory is that of Log 4 and Log 12. -/
def Obligations.EveryStepKeeps : Prop :=  ∀ (m : Bool × Bool × BitVec 128 × BitVec 6) (s t : State), s.Kept m → step s = .next t → t.Kept m

/-- What the machine holds right after power-on reset: the reset values that the chapters give. -/
def Obligations.ResetValues : Prop :=  let s := State.reset
  s.now = 0 ∧ s.get Reg.NT_ALARM.ALARM = 2 ^ 64 - 1 ∧ s.get Reg.RND_PERIOD.PERIOD = 100 ∧ s.get Reg.RND_CTL.MAINT = 1 ∧
    s.flag Reg.RND_CTL.EN = false ∧ s.flag Reg.SORT_CTL.EN = false ∧ s.locked = false ∧ s.flag Reg.MEM_CTL.SCRUBEN = true ∧
    s.flag Reg.EC_CTL.MAINT = true ∧ s.get Reg.CT_CTL.WDOG = 16 ∧ s.get Reg.TG_CTL.BWDOG = 4 ∧ s.get Reg.MO_CTL.DEFTO = 2000 ∧
    s.get Reg.MO_CTL.DRAINTO = 100 ∧ s.flag Reg.HP_CTL.PERSTRST = true ∧ s.flag Reg.TC_STAT.BYPASS = true ∧
    s.get Reg.ST_STAT.STATE = 0 ∧ s.get Reg.TR_CTL.INITOWN = 1 ∧
    (∀ n, (s.source n).masked = true ∧ (s.source n).target = 64 ∧ (s.source n).pend = false) ∧
    (∀ q, (s.pigeon q).en = false) ∧ (∀ r, (s.ring r).en = false) ∧ (∀ n, (s.tset n).en = false) ∧
    (∀ h, (s.hart h).mflsctx = 1) ∧ s.ctxOpen 1 = true ∧ s.ctxOpen 2 = true ∧ s.ctxOpen 3 = false

/-- A write to NT_STEP of a value below −10^9, or while HOLDING is 1, is ignored and sets STEPERR. -/
def Obligations.StepOutOfRangeIsIgnored : Prop :=  ∀ (s : State) (r : Requester) (d : W64), s.reaches r 0x10018 = (true, s) →
    s.flag Reg.NT_STAT.HOLDING = true ∨ d.toInt < -1000000000 →
    ∀ c ∈ [Instr.ntStepForward r d, .ntStepBackward r d],
      Goes c s fun t => t.flag Reg.NT_STAT.STEPERR = true ∧ t = { s with flds := t.flds } ∧ s.FieldsBut t [Reg.NT_STAT.STEPERR]

/-- A write of 0 has no effect; a positive step with rounds disabled moves node time and nothing else; a negative one sets HOLDING
and holds node time for that long. Rounds are enabled and disabled by writes of RND_CTL; a write that carries 3 in MAINT is
ignored whole and sets CFGERR. The ends of holds and corrections, the pulse's capture, and the alarm. That an end of a hold or
of a correction is a command of its own follows Log 2. -/
def Obligations.NodeTimeAndRounds : Prop :=
  (∀ (s : State) (r : Requester) (d : W64), s.reaches r 0x10018 = (true, s) → s.flag Reg.NT_STAT.HOLDING = false →
    (d.toInt = 0 → exec (.ntStepForward r d) s = .next s ∧ exec (.ntStepBackward r d) s = .next s) ∧
    (0 < d.toInt → s.flag Reg.RND_CTL.EN = false →
      Goes (.ntStepForward r d) s fun t => t.now = min (2 ^ 64 - 1) (s.now + d.toNat) ∧ t = { s with flds := t.flds } ∧
        s.FieldsBut t [Reg.NT_NOW.NOW]) ∧
    (-1000000000 ≤ d.toInt → d.toInt < 0 →
      Goes (.ntStepBackward r d) s fun t => t.flag Reg.NT_STAT.HOLDING = true ∧ t.time.hold = 4 * d.toInt.natAbs ∧
        t = { s with flds := t.flds, time := { s.time with hold := t.time.hold } } ∧ s.FieldsBut t [Reg.NT_STAT.HOLDING])) ∧
  (∀ (s : State) (r : Requester) (v : W32), s.reaches r 0x10040 = (true, s) →
    ∀ c ∈ [Instr.roundsEnable r v, .roundsDisable r v],
      (v.toNat / 2 % 4 = 3 → Goes c s fun t => t.flag Reg.RND_STAT.CFGERR = true ∧ t = { s with flds := t.flds } ∧
        s.FieldsBut t [Reg.RND_STAT.CFGERR]) ∧
      (v.toNat / 2 % 4 ≠ 3 → Goes c s fun t => t.get Reg.RND_CTL.EN = v.toNat % 2 ∧ t.get Reg.RND_CTL.MAINT = v.toNat / 2 % 4 ∧
        t = { s with flds := t.flds, time := t.time } ∧ s.FieldsBut t [Reg.RND_CTL.EN, Reg.RND_CTL.MAINT] ∧
        (v.toNat % 2 = 1 → s.flag Reg.RND_CTL.EN = false → t.time.ticked = false ∧ t.time.tickBase = s.now))) ∧
  (∀ s : State,
    (s.flag Reg.NT_STAT.HOLDING = true → s.time.hold = 0 →
      Goes .holdEnd s fun t => t.flag Reg.NT_STAT.HOLDING = false ∧ t = { s with flds := t.flds } ∧
        s.FieldsBut t [Reg.NT_STAT.HOLDING]) ∧
    (s.time.ppsLeft = 0 → exec .ppsCorrectionEnd s = .next { s with time := { s.time with ppsOffset := 0 } }) ∧
    (∀ rising, s.flag Reg.NT_CTL.PPSEN = true → s.flag Reg.NT_CTL.PPSEDGE = !rising → s.flag Reg.NT_CTL.PPSAUTO = false →
      Goes (.ppsEdge rising) s fun t => t.get Reg.NT_PPSCAP.CAP = (s.now + 2 ^ 64 - s.get Reg.NT_PPSCOMP.COMP) % 2 ^ 64 ∧
        t.flag Reg.NT_STAT.PPSSEEN = true ∧ t.time.ppsLeft = 0 ∧ t = { s with flds := t.flds, time := t.time } ∧
        s.FieldsBut t [Reg.NT_PPSCAP.CAP, Reg.NT_STAT.PPSSEEN]) ∧
    (∀ (r : Requester) (v : W64), s.reaches r 0x10038 = (true, s) → s.now < v.toNat →
      Goes (.ntAlarmWrite r v) s fun t => t.get Reg.NT_ALARM.ALARM = v.toNat ∧ t.time.armed = decide (v.toNat ≠ 2 ^ 64 - 1) ∧
        t = { s with flds := t.flds, time := { s.time with armed := t.time.armed } } ∧ s.FieldsBut t [Reg.NT_ALARM.ALARM]) ∧
    (s.time.armed = true → s.get Reg.NT_ALARM.ALARM ≤ s.now → s.power.sleep = .run →
      Goes .timeAlarm s fun t => t.time.armed = false ∧ (t.source 7).pend = true ∧
        t = { s with time := { s.time with armed := false }, ec := t.ec }))

/-- At a tick RND_NUM is set to node time over the period, modulo 2^48; the tick starts the round and leaves node time alone. A
forward step over n tick instants with rounds enabled causes exactly one tick, which sets RND_NUM, and adds n − 1 to
RND_SKIP_CNT. -/
def Obligations.CollectionTicks : Prop :=
  (∀ s : State, s.tickDue = true →
    Goes .collectionTick s fun t => t.get Reg.RND_NUM.NUM = s.now / s.period % 2 ^ 48 ∧ t.now = s.now ∧
      t.time.tickBase = s.now / s.period * s.period ∧ t.time.ticked = true ∧ t.time.beats = 0 ∧
      t.get Reg.RND_SKIP_CNT.COUNT = s.get Reg.RND_SKIP_CNT.COUNT) ∧
  (∀ (s : State) (r : Requester) (d : W64), s.reaches r 0x10018 = (true, s) → s.flag Reg.NT_STAT.HOLDING = false →
    s.flag Reg.RND_CTL.EN = true → 0 < d.toInt → s.tickDue = false →
    let after := min (2 ^ 64 - 1) (s.now + d.toNat)
    let n := after / s.period - s.now / s.period
    Goes (.ntStepForward r d) s fun t => t.now = after ∧
      (n = 0 → t = { s with flds := t.flds } ∧ s.FieldsBut t [Reg.NT_NOW.NOW]) ∧
      (n ≠ 0 → t.get Reg.RND_NUM.NUM = after / s.period % 2 ^ 48 ∧ t.time.tickBase = after / s.period * s.period ∧
        t.get Reg.RND_SKIP_CNT.COUNT = min (2 ^ 48 - 1) (s.get Reg.RND_SKIP_CNT.COUNT + (n - 1))))

/-- At a tick in Run with no descriptor in flight and no change of a tile set pending, the ledger of every enabled set becomes C
less its debt, and C where the set was enabled since the last tick. At every tick outside Nap and Night, whatever is in flight
or pending, no ledger exceeds C, so no unused balance is carried over. -/
def Obligations.LedgersAtATick : Prop :=  (∀ s : State, s.tickDue = true → s.power.sleep = .run → s.power.fresh = false → s.sorter.flights = [] →
    s.sorter.changes = [] → s.sorter.written = [] →
    Goes .collectionTick s fun t => ∀ n,
      (t.tset n).mask = (s.tset n).mask ∧ (t.tset n).en = (s.tset n).en ∧
        (t.tset n).balance =
          if (s.tset n).en then (s.capacity : Int) + (if (s.tset n).live then min 0 (s.tset n).balance else 0) else (s.tset n).balance) ∧
  (∀ s : State, s.tickDue = true → s.power.sleep ≠ .nap → s.power.sleep ≠ .night →
    Goes .collectionTick s fun t => ∀ n, (t.tset n).en = true → (t.tset n).balance ≤ s.capacity)

/-- A write of LB_TAIL of a queue that is not enabled or is being closed is ignored and sets LBDEAD. A write of LB_TAIL sets TAIL
where it leaves at most 2^K descriptors; otherwise it stops the queue with 0x19 and forms a record with SEQ equal to NEXTSEQ. -/
def Obligations.Doorbells : Prop :=
  (∀ (s : State) (r : Requester) (q : Fin 16384) (v : W32), s.awake r = s → s.present r = true → s.answers 0x800000 = true →
    (s.pigeon q).en = false ∨ (s.pigeon q).closing = true →
    Goes (.doorbell r q v) s fun t => t.flag Reg.SORT_STAT.LBDEAD = true ∧ t = { s with flds := t.flds } ∧
      s.FieldsBut t [Reg.SORT_STAT.LBDEAD]) ∧
  (∀ (s : State) (r : Requester) (q : Fin 16384) (v : W32), s.awake r = s → s.present r = true → s.answers 0x800000 = true →
    (s.pigeon q).en = true → (s.pigeon q).closing = false →
    ((v.toNat + 2 ^ 32 - (s.pigeon q).head) % 2 ^ 32 ≤ 2 ^ (s.pigeon q).k →
      Goes (.doorbell r q v) s fun t =>
        t.pigeon q = { s.pigeon q with tail := v.toNat, readyTime := (t.pigeon q).readyTime } ∧
        (∀ p, p ≠ q.val → t.pigeon p = s.pigeon p) ∧
        t = { s with sorter := { s.sorter with pigeons := t.sorter.pigeons } }) ∧
    (2 ^ (s.pigeon q).k < (v.toNat + 2 ^ 32 - (s.pigeon q).head) % 2 ^ 32 → s.power.sleep = .run →
      Goes (.doorbell r q v) s fun t =>
        (t.pigeon q).error = true ∧ (t.pigeon q).lastStat = 0x19 ∧ (t.pigeon q).tail = (s.pigeon q).tail ∧
        (t.pigeon q).head = (s.pigeon q).head ∧ t.flag Reg.SORT_STAT.QSTOPPED = true ∧ (t.source 71).pend = true ∧
        ∃ c, (t.ring (s.pigeon q).cring).waiting = (s.ring (s.pigeon q).cring).waiting ++ [c] ∧ c.queue = q.val ∧
          c.status = 0x19 ∧ c.seq = (s.pigeon q).nextSeq ∧ c.counted = false))

/-- The sorter selects a ready queue, and none that it could select stands before it in the order of R87. Selection starts the fetch
of the head of the selected queue. A head whose SEQ is not NEXTSEQ stops its queue with 0x16 and is not consumed. A head that
passes its checks is admitted where the ledger, the capacity and the slots of its set allow it, with ORDER set; a short ledger
defers its queue. Selection and the end of a fetch are commands of their own (Log 2). -/
def Obligations.SelectionAndAdmission : Prop :=
  (∀ (s : State) (q : Nat), s.selected = some q →
    s.ready q = true ∧ (s.pigeon q).slotWait = false ∧ (s.pigeon q).fetching = false ∧
      ∀ p ∈ s.sorter.pigeons.map (·.1), s.ready p = true → (s.pigeon p).slotWait = false → (s.pigeon p).fetching = false →
        (s.pigeon p).closing = false → s.stepDue p = false → keyLt (s.selectKey p) (s.selectKey q) = false) ∧
  ((∀ (s : State) (q : Nat), s.admitting = true → s.selected = some q →
    Goes .queueSelect s fun t => t.pigeon q = { s.pigeon q with fetching := true } ∧ (∀ p, p ≠ q → t.pigeon p = s.pigeon p) ∧
      t = { s with sorter := { s.sorter with pigeons := t.sorter.pigeons } }) ∧
  ∀ (s : State) (q : Fin 16384) (d : BitVec 512), (s.pigeon q).fetching = true → s.ready q = true → (s.pigeon q).closing = false →
    s.stepDue q = false → s.headHeld q = false → s.admitting = true → s.fetchHead q = (d, s) →
    (seqNumOf d ≠ (s.pigeon q).nextSeq →
      Goes (.descriptorFetchComplete q) s fun t => (t.pigeon q).head = (s.pigeon q).head ∧
        (t.pigeon q).nextSeq = (s.pigeon q).nextSeq ∧ (t.pigeon q).error = true ∧ (t.pigeon q).lastStat = 0x16 ∧
        ∃ c, (t.ring (s.pigeon q).cring).waiting = (s.ring (s.pigeon q).cring).waiting ++ [c] ∧ c.status = 0x16 ∧
          c.seq = (s.pigeon q).nextSeq) ∧
    (∀ j, seqNumOf d = (s.pigeon q).nextSeq → s.checkDesc q d = .pass j s → classOf (opOf d) = some .tile →
      s.dueDebits (tsetOf d) = s → budgetOf d ≤ s.capacity →
      ((s.tset (tsetOf d)).balance < budgetOf d →
        Goes (.descriptorFetchComplete q) s fun t => (t.pigeon q).defer = true ∧ (t.pigeon q).head = (s.pigeon q).head ∧
          (t.pigeon q).defRnd = s.round ∧ t.sorter.flights = s.sorter.flights ∧ t.sorter.tsets = s.sorter.tsets) ∧
      (0 < (s.tset (tsetOf d)).balance → (budgetOf d : Int) ≤ (s.tset (tsetOf d)).balance → Machine.orderOf d = true →
        ((s.setTiles (tsetOf d)).any fun t => decide (8 ≤ s.slotsUsed t)) = false →
        Goes (.descriptorFetchComplete q) s fun t =>
          (t.pigeon q).head = ((s.pigeon q).head + 1) % 2 ^ 32 ∧ (t.pigeon q).nextSeq = ((s.pigeon q).nextSeq + 1) % 2 ^ 32 ∧
          (t.pigeon q).inflight = (s.pigeon q).inflight + 1 ∧
          (t.tset (tsetOf d)).balance = (s.tset (tsetOf d)).balance - budgetOf d ∧
          (∀ n, n ≠ tsetOf d → t.tset n = s.tset n) ∧
          ∃ f, t.sorter.flights = s.sorter.flights ++ [f] ∧ f.queue = q.val ∧ f.seq = seqNumOf d ∧ f.desc = d ∧ f.tset = tsetOf d ∧
            f.parts.map (·.tile) = s.setTiles (tsetOf d))))

/-- ORDERED_DELIVERY sends, outside maintenance beats, the packets of the oldest descriptor of its set; a packet makes its
descriptor start and takes a slot of its tile; the report of an ended part, while other parts have not reported, marks it
reported and lets every queue that waits for slots try again. The sender of commands chooses when a packet arrives (Log 2). -/
def Obligations.Deliveries : Prop :=  ∀ (s : State) (q : Fin 16384) (seq : W32) (f : Flight), s.flight? q seq.toNat = some f →
    (f.ordered = true → s.maintBeat = false → (s.sorter.flights.takeWhile fun x => !(x.queue == q.val && x.seq == seq.toNat)).all
        (fun x => x.tset != f.tset || x.parts.isEmpty) = true →
      Goes (.orderedDelivery q seq) s fun t => t.flight? q seq.toNat = some { f with ordered := false }) ∧
    (∀ t : Fin 256, f.ordered = false → (∃ p ∈ f.parts, p.tile = t ∧ p.st = .sent) → (s.tile t).mode = .normal →
      (s.tile t).clears = [] →
      Goes (.deliveryPacket t q seq) s fun u => (u.tile t).slots = (s.tile t).slots ++ [(q.val, seq.toNat)] ∧
        u.flight? q seq.toNat = some { f with
          started := true, parts := f.parts.map fun p => if p.tile = t.val then { p with st := .arrived } else p } ∧
        (∀ n, n ≠ t.val → u.tile n = s.tile n) ∧ u = { s with sorter := { s.sorter with flights := u.sorter.flights }, tiles := u.tiles }) ∧
    (∀ t : Fin 256, (s.sorter.flights.find? fun f => f.parts.any fun p => p.tile == t.val && p.st == .ended) = some f →
      (∃ p ∈ f.parts, p.tile ≠ t ∧ p.st ≠ .reported) →
      Goes (.tileReport t) s fun u => u.flight? q seq.toNat = some { f with
          parts := f.parts.map fun p => if p.tile = t.val then { p with st := .reported } else p } ∧
        (∀ p, (u.pigeon p).slotWait = false) ∧ u.tiles = s.tiles ∧ u.flds = s.flds)

/-- A record that waits first for a ring in service-host memory that is not full is written at TAIL with its PHASE, as a posted
write, and TAIL goes on; the head count of a full completion or fault ring in service-host memory is read again. The service
host's memory is part of State (Log 12). -/
def Obligations.RecordsAreWritten : Prop :=  (∀ (s : State) (r : Fin 4096) (c : CRecord) (rest : List CRecord), let x := s.ring r
    x.en = true → x.loc = true → s.flag Reg.HP_STAT.DETACHED = false → c.regc = false → x.waiting = c :: rest → x.full = false →
    x.evsrc = 0 → { x with tail := (x.tail + 1) % 2 ^ 32 }.full = false →
    Goes (.completionRecordWrite r) s fun t =>
      t.hostMem = (s.hostWrite (x.base + x.tail % 2 ^ x.j * 32) (c.toBytes (phaseOf x.tail x.j))).hostMem ∧
      (t.ring r).tail = (x.tail + 1) % 2 ^ 32 ∧ (t.ring r).waiting = rest ∧ (∀ n, n ≠ r.val → t.ring n = s.ring n) ∧
      (t.pigeon c.queue).inflight = (s.pigeon c.queue).inflight - (if c.counted then 1 else 0) ∧
      t = { s with hostMem := t.hostMem, sorter := { s.sorter with pigeons := t.sorter.pigeons, rings := t.sorter.rings }
                   order := { s.order with out := t.order.out, nextId := s.order.nextId + 1 } } ∧
      ∃ a, t.order.out = s.order.out ++ [a] ∧ a.write = true ∧ a.host = some (x.base + x.tail % 2 ^ x.j * 32) ∧ a.bytes = 32) ∧
  (∀ (s : State) (n : Fin 4096), (s.ring n).en = true → (s.ring n).full = true → (s.ring n).loc = true → s.hostUp = true →
    Goes (.headCountReread (.completion n)) s fun t => (t.ring n).h = leNat (s.hostBytes (s.ring n).headAddr 4) ∧
      (∀ m, m ≠ n.val → t.ring m = s.ring m) ∧ t = { s with sorter := t.sorter }) ∧
  (∀ (s : State) (n : Fin 64), (s.fring n).en = true → (s.fring n).full = true → (s.fring n).loc = true → s.hostUp = true →
    Goes (.headCountReread (.fault n)) s fun t => (t.fring n).h = leNat (s.hostBytes (s.fring n).headAddr 4) ∧
      (∀ m, m ≠ n.val → t.fring m = s.fring m) ∧ t = { s with xlat := t.xlat })

/-- The management of queues and completion rings: what each accepted descriptor leaves, at its step or its completion. -/
def Obligations.QueueManagement : Prop :=  ∀ (s : State) (q : Fin 16384) (seq : W32) (f : Flight), s.flight? q seq.toNat = some f →
    let gone (t : State) : Prop := s.Left t q seq.toNat ∧ s.SorterOnly t
    let waits (t : State) : Prop := t.Waits f ∧ s.SorterOnly t
    let n := body f.desc 0 2
    let new := (BitVec.ofNat 256 (body f.desc 8 32), body f.desc 2 2, body f.desc 4 1 == 1)
    (s.due 0x00 q seq.toNat = some f → Goes (.descNop q seq) s gone) ∧
    (s.due 0x01 q seq.toNat = some f → (s.pigeon n).en = false → s.ctxOpen (body f.desc 16 8 / 2 ^ 16 % 2 ^ 16) = true →
      (s.ring (body f.desc 16 8 / 2 ^ 32 % 2 ^ 12)).en = true →
      (s.ring (body f.desc 16 8 / 2 ^ 32 % 2 ^ 12)).ctx = body f.desc 16 8 / 2 ^ 16 % 2 ^ 16 →
      Goes (.qopen q seq) s fun t => gone t ∧ (t.pigeon n).en = true ∧ (t.pigeon n).head = 0 ∧ (t.pigeon n).tail = 0 ∧
        (t.pigeon n).nextSeq = body f.desc 24 4 ∧ (t.pigeon n).rbase = body f.desc 8 8 / 2 ^ 12 * 2 ^ 12 ∧
        (t.pigeon n).k = body f.desc 8 8 / 8 % 32 ∧ (t.pigeon n).ctx = body f.desc 16 8 / 2 ^ 16 % 2 ^ 16 ∧
        (t.pigeon n).prio = body f.desc 16 8 / 2 ^ 13 % 8 ∧ (t.pigeon n).held = [] ∧ (t.pigeon n).defer = false) ∧
    (s.due 0x02 q seq.toNat = some f → (s.pigeon n).en = true → (s.pigeon n).closing = false →
      (s.sorter.flights.any fun x => x.queue == n && classOf (opOf x.desc) == some .sync) = false →
      Goes (.qclose q seq) s fun t => (t.pigeon n).closing = true ∧ (t.pigeon n).fetching = false ∧ (t.pigeon n).en = true ∧
        waits t) ∧
    (s.acting 0x02 q seq.toNat = some f → (s.pigeon n).inflight = (if n = q.val then 1 else 0) →
      Goes (.qcloseComplete q seq) s fun t => gone t ∧ (t.pigeon n).closing = false ∧ (t.pigeon n).en = false) ∧
    (s.due 0x03 q seq.toNat = some f → (s.pigeon n).en = true → stopErrOf f.desc = false →
      Goes (.qresume q seq) s fun t => gone t ∧ (t.pigeon n).error = false ∧ (t.pigeon n).head = (s.pigeon n).head) ∧
    (s.due 0x04 q seq.toNat = some f → (s.ring n).en = false → s.ctxOpen (body f.desc 24 8 / 2 ^ 16 % 2 ^ 16) = true →
      Goes (.cropen q seq) s fun t => gone t ∧ (t.ring n).en = true ∧ (t.ring n).tail = 0 ∧ (t.ring n).h = 0 ∧
        (t.ring n).base = body f.desc 8 8 / 2 ^ 12 * 2 ^ 12 ∧ (t.ring n).j = body f.desc 8 8 / 8 % 32 ∧
        (t.ring n).headAddr = body f.desc 16 8 ∧ (t.ring n).ctx = body f.desc 24 8 / 2 ^ 16 % 2 ^ 16) ∧
    (s.due 0x05 q seq.toNat = some f → Goes (.crclose q seq) s fun t =>
      waits t ∧ t.sorter.rings = s.sorter.rings) ∧
    (s.acting 0x05 q seq.toNat = some f → (s.sorter.pigeons.any fun p => p.2.en && p.2.cring == n) = false →
      Goes (.crcloseComplete q seq) s fun t => gone t ∧ (t.ring n).en = false) ∧
    (s.due 0x06 q seq.toNat = some f → s.ctxOpen (body f.desc 2 2) = true → s.sealedCtx (body f.desc 2 2) = false →
      body f.desc 8 32 ≠ 0 → (s.knownSets.any fun m => m != n && s.nextMask m &&& BitVec.ofNat 256 (body f.desc 8 32) != 0) = false →
      Goes (.tsdefine q seq) s fun t => waits t ∧
        t.sorter.changes = s.sorter.changes ++ [{ set := n, define := some new, queue := q, seq := seq.toNat }] ∧
        t.sorter.tsets = s.sorter.tsets) ∧
    (s.due 0x07 q seq.toNat = some f → Goes (.tsclear q seq) s fun t =>
      waits t ∧
        t.sorter.changes = s.sorter.changes ++ [{ set := n, define := none, queue := q, seq := seq.toNat, effect := s.nextEn n }] ∧
        t.sorter.tsets = s.sorter.tsets)

/-- Synchronization descriptors wait or end, and their queue's SYNCWAIT ends with them; a late descriptor's debit falls on its set. -/
def Obligations.Synchronization : Prop :=  ∀ (s : State) (q : Fin 16384) (seq : W32) (f : Flight), s.flight? q seq.toNat = some f →
    let acts (t : State) : Prop := t.flight? q seq.toNat = some { f with acted := true, waiting := true } ∧
      t = { s with sorter := t.sorter }
    let ends (t : State) : Prop := (t.pigeon q).syncWait = false ∧
      t.sorter.flights = s.sorter.flights.filter fun x => !(x.queue == q.val && x.seq == seq.toNat)
    (s.due 0x58 q seq.toNat = some f → Goes (.fence q seq) s acts) ∧
    (s.acting 0x58 q seq.toNat = some f →
      ((s.sorter.flights.takeWhile fun x => !(x.queue == q.val && x.seq == seq.toNat)).any fun x => x.queue == q.val) = false →
      ((s.ring (s.pigeon q).cring).waiting.any fun c => c.queue == q.val) = false → Goes (.fenceComplete q seq) s ends) ∧
    (s.due 0x59 q seq.toNat = some f → Goes (.waitround q seq) s fun t =>
      if s.roundReached (body f.desc 0 6) then ends t else acts t) ∧
    (s.due 0x5A q seq.toNat = some f → s.waitTimedOut f = false → Goes (.waittoken q seq) s fun t =>
      if s.tokenReached f.desc then ends t else acts t) ∧
    (s.acting 0x5A q seq.toNat = some f → s.waitTimedOut f = true → f.abort = 0 → Goes (.waittokenTimeout q seq) s fun t =>
      ends t ∧ ∃ c ∈ (t.ring (s.pigeon q).cring).waiting, c.queue = q.val ∧ c.seq = seq.toNat ∧ c.status = 0x25) ∧
    (f.debits < s.owed f → (s.tset f.tset).en = true → Goes (.lateDebit q seq) s fun t =>
      (t.tset f.tset).balance = (s.tset f.tset).balance - 1 ∧ (∀ n, n ≠ f.tset → t.tset n = s.tset n) ∧
        t.flight? q seq.toNat = some { f with debits := f.debits + 1 } ∧ t = { s with sorter := t.sorter })

/-- The sorted order of a row is a stable permutation of it, in order of the keys. -/
def Obligations.SortIsStable : Prop :=  ∀ (mode : Nat) (xs : List SortRec), (sortRecs mode xs).Perm xs ∧ sortedRecs mode (sortRecs mode xs) = true ∧
    ∀ key, (sortRecs mode xs).filter (fun x => keyRank mode x.1 == keyRank mode key) =
      xs.filter fun x => keyRank mode x.1 == keyRank mode key

/-- SORT of rows of at most 4,096 records writes the sorted rows at the destination, MERGE of two sorted sources their merge, and
TOPK the first k of each sorted row, through the segments of the context; each adds the number of records it writes to
SORT_REC_CNT and changes nothing else beside its reads and writes. SORTING_MODE_COMPLETE then takes the descriptor out and lets
the next one run. A sorting command acts on memory as one whole (Log 22). -/
def Obligations.SortingMode : Prop :=  (∀ (s v u : State) (f : Flight) (bs : List Byte) (l : List (Option Byte)), s.sorting? 0x50 = some f →
    let d := f.desc
    let out := (rowsOf (body d 24 4) (recsOf bs (body d 24 4 * body d 28 2)) (body d 28 2)).flatMap (sortRecs (body d 30 1))
    body d 24 4 ≤ 4096 → s.bulkRead 1 (s.microWho f) (body d 0 8) (16 * (body d 24 4 * body d 28 2)) = .done (bs.map some) v →
    v.bulkWrite (v.microWho f) (body d 8 8) ((recBytes out).map some) = .done l u →
    Goes .sort s fun t => t.sorter = { u.sorter with sortDone := true } ∧
      t.get Reg.SORT_REC_CNT.COUNT = min (2 ^ 48 - 1) (u.get Reg.SORT_REC_CNT.COUNT + (recBytes out).length / 16) ∧
      t = { u with sorter := t.sorter, flds := t.flds } ∧ u.FieldsBut t [Reg.SORT_REC_CNT.COUNT]) ∧
  (∀ (s v w u : State) (f : Flight) (bs cs : List Byte) (l : List (Option Byte)), s.sorting? 0x51 = some f →
    let d := f.desc
    let xs := recsOf bs (body d 24 4)
    let ys := recsOf cs (body d 32 4)
    let out := mergeRecs (body d 30 1) xs ys
    sortedRecs (body d 30 1) xs = true → sortedRecs (body d 30 1) ys = true →
    s.bulkRead 1 (s.microWho f) (body d 0 8) (16 * body d 24 4) = .done (bs.map some) v →
    v.bulkRead 1 (v.microWho f) (body d 8 8) (16 * body d 32 4) = .done (cs.map some) w →
    w.bulkWrite (w.microWho f) (body d 16 8) ((recBytes out).map some) = .done l u →
    Goes .merge s fun t => t.sorter = { u.sorter with sortDone := true } ∧
      t.get Reg.SORT_REC_CNT.COUNT = min (2 ^ 48 - 1) (u.get Reg.SORT_REC_CNT.COUNT + (recBytes out).length / 16) ∧
      t = { u with sorter := t.sorter, flds := t.flds } ∧ u.FieldsBut t [Reg.SORT_REC_CNT.COUNT]) ∧
  (∀ (s v u : State) (f : Flight) (bs : List Byte) (l : List (Option Byte)), s.sorting? 0x52 = some f →
    let d := f.desc
    let out := (rowsOf (body d 24 4) (recsOf bs (body d 24 4 * body d 28 2)) (body d 28 2)).flatMap
      fun r => (sortRecs (body d 30 1) r).take (body d 36 2)
    s.bulkRead 1 (s.microWho f) (body d 0 8) (16 * (body d 24 4 * body d 28 2)) = .done (bs.map some) v →
    v.bulkWrite (v.microWho f) (body d 8 8) ((recBytes out).map some) = .done l u →
    Goes .topk s fun t => t.sorter = { u.sorter with sortDone := true } ∧
      t.get Reg.SORT_REC_CNT.COUNT = min (2 ^ 48 - 1) (u.get Reg.SORT_REC_CNT.COUNT + (recBytes out).length / 16) ∧
      t = { u with sorter := t.sorter, flds := t.flds } ∧ u.FieldsBut t [Reg.SORT_REC_CNT.COUNT]) ∧
  (∀ (s : State) (q seq : Nat) (rest : List (Nat × Nat)) (f : Flight), s.sorter.sorting = (q, seq) :: rest →
    s.flight? q seq = some f → s.sorter.sortDone = true →
    Goes .sortingModeComplete s fun t => t.sorter.sorting = rest ∧ t.sorter.sortDone = false ∧
      t.sorter.flights = s.sorter.flights.filter fun x => !(x.queue == q && x.seq == seq))

/-- What the context, segment, share-set, fault-ring and quota descriptors leave. -/
def Obligations.ContextManagement : Prop :=  ∀ (s : State) (q : Fin 16384) (seq : W32) (f : Flight), s.flight? q seq.toNat = some f →
    let d := f.desc
    let c := body d 0 2
    let ends (t : State) : Prop := s.Left t q seq.toNat ∧ t = { s with sorter := t.sorter, flds := t.flds, ec := t.ec, xlat := t.xlat }
    let acts (t : State) : Prop := t.Waits f ∧ t = { s with sorter := t.sorter, xlat := t.xlat }
    let others (t : State) : Prop := ∀ n, n ≠ c → t.ctxOf n = s.ctxOf n ∧ t.ctxOpen n = s.ctxOpen n
    (s.due 0x08 q seq.toNat = some f → 16 ≤ c → s.ctxOpen c = false → s.xlat.ctxs.length + 1 < 4096 → s.locked = true →
      body d 8 8 = 0 → body d 2 1 = 1 →
      Goes (.ctxopen q seq) s fun t => ends t ∧ others t ∧ t.ctxOpen c = true ∧ t.ctxOf c =
        { sealing := .unsealed, ftimeout := body d 3 1, fring := body d 4 2, ptctx := body d 6 2, root := 0, pasid := body d 16 4 }) ∧
    (s.due 0x09 q seq.toNat = some f → 16 ≤ c → s.ctxOpen c = true → s.ctxNamed c = false →
      (s.tarle.sessions.any fun p => p.2.ctx == c) = false →
      Goes (.ctxclose q seq) s fun t => s.Left t q seq.toNat ∧ others t ∧ t.ctxOpen c = false ∧ (∀ e ∈ t.xlat.tlb, e.ctx ≠ c) ∧
        t = { s with sorter := t.sorter, flds := t.flds, ec := t.ec, xlat := t.xlat, tarle := t.tarle }) ∧
    (s.due 0x0A q seq.toNat = some f → c ≠ 0 → s.ctxOpen c = true → s.sealedCtx c = false →
      (segValid d = true → (segOf d).base < (segOf d).limit ∧ (segOf d).limit ≤ 2 ^ 48 ∧ ((segOf d).paged = true ∨ s.segInTier (segOf d) = true)) →
      Goes (.segset q seq) s fun t => acts t ∧ others t ∧ t.ctxOf c = { s.ctxOf c with
        segs := if segValid d then AMap.put (s.ctxOf c).segs (body d 2 1 % 16) (segOf d)
          else AMap.erase (s.ctxOf c).segs (body d 2 1 % 16) }) ∧
    (s.acting 0x0A q seq.toNat = some f → s.segHeld c = false → Goes (.segsetComplete q seq) s fun t => ends t ∧ t.xlat = s.xlat) ∧
    (s.due 0x0C q seq.toNat = some f → s.ctxOpen (body d 4 2) = true → body d 2 1 = 0 → s.sealedCtx (body d 4 2) = false →
      Goes (.shareset q seq) s fun t => ends t ∧ body d 4 2 ∈ t.members c ∧ (∀ x ∈ t.members c, x = body d 4 2 ∨ x ∈ s.members c) ∧
        (∀ n, n ≠ c → t.members n = s.members n) ∧ t.xlat = { s.xlat with shares := t.xlat.shares }) ∧
    (s.due 0x0D q seq.toNat = some f → body d 2 1 = 1 ∨ s.ctxOpen c = true →
      Goes (.tlbinv q seq) s fun t => acts t ∧ t.xlat = s.xlat) ∧
    (s.acting 0x0D q seq.toNat = some f → Goes (.tlbinvComplete q seq) s fun t => ends t ∧
      t.xlat = { s.xlat with tlb := t.xlat.tlb, walks := t.xlat.walks } ∧
      (∀ e, e ∈ t.xlat.tlb ↔ e ∈ s.xlat.tlb ∧ ¬((body d 2 1 = 1 ∨ e.ctx = c) ∧ (body d 16 4 = 0 ∨
        e.page < body d 8 8 / 4096 + body d 16 4 ∧ body d 8 8 / 4096 < e.page + e.pages)))) ∧
    (s.due 0x0E q seq.toNat = some f → body d 2 1 = 0 → (s.fring c).en = false →
      Goes (.fropen q seq) s fun t => ends t ∧ t.fring c = { s.fring c with
        base := body d 8 8 / 2 ^ 12 * 2 ^ 12, j := body d 8 8 / 2 ^ 3 % 32, loc := body d 8 8 / 4 % 2 == 1, headAddr := body d 16 8,
        pasid := body d 24 8 / 2 ^ 44, evsrc := body d 24 8 / 2 ^ 32 % 2 ^ 10, ctx := body d 24 8 / 2 ^ 16 % 2 ^ 16, en := true,
        tail := 0, h := 0 } ∧ ∀ n, n ≠ c → t.fring n = s.fring n) ∧
    (s.due 0x0E q seq.toNat = some f → body d 2 1 = 1 →
      Goes (.frclose q seq) s fun t => ends t ∧ t.fring c = { s.fring c with en := false } ∧ ∀ n, n ≠ c → t.fring n = s.fring n) ∧
    (s.due 0x0F q seq.toNat = some f → body d 3 1 = 0 → s.ctxOpen c = true → c ≠ 0 →
      Goes (.quotaSet q seq) s fun t => ends t ∧ others t ∧ t.ctxOf c = { s.ctxOf c with
        quotas := AMap.put (s.ctxOf c).quotas (body d 2 1)
          { cap := if body d 4 4 = 0xFFFFFFFF then none else some (body d 4 4), moveb := body d 8 8 } })

/-- OWNSET and the removal of a context from a share set start a job that holds new requests for the granules whose entries change;
the end of an OWNSET's job for no granule or for one writes the entry and completes the descriptor, and where no other job is
left the granule is held no more. QUOTA with QUERY 1 writes CAP, the granules used and MOVEB at REPORT, and completes. That a
unit's access to a held granule waits, its command changing nothing, is Log 96. -/
def Obligations.OwnershipJobs : Prop :=  ∀ (s : State) (q : Fin 16384) (seq : W32) (f : Flight), s.flight? q seq.toNat = some f →
    let d := f.desc
    let a := body d 0 8
    let n := body d 8 4
    let e := ownsetEntry d
    let gs := (List.range n).map (a / 2 ^ 21 + ·)
    let job : OwnJob := { queue := q, seq := seq.toNat, granules := n, first := a / 2 ^ 21, entry := e }
    let share : OwnJob := { queue := q, seq := seq.toNat, granules := 0, first := 0, entry := {}, leave := some (body d 0 2, body d 4 2) }
    (∀ tier, s.due 0x0B q seq.toNat = some f → s.tierOf a = some tier → s.tierOf (a + n * 2 ^ 21 - 1) = some tier →
      (tier = 0 → a + n * 2 ^ 21 - 1 < reservedBase) → gs.any s.retired = false → e.mode ≠ 3 → s.ctxOpen e.owner = true →
      (e.mode = 2 → e.sset ≤ 1023 ∧ s.sealedCtx e.owner = false) → (AMap.getD (s.ctxOf e.owner).quotas tier {}).cap = none →
      Goes (.ownset q seq) s fun t => t.Waits f ∧ t.xlat = { s.xlat with jobs := s.xlat.jobs ++ [job] } ∧
        t.coh = { s.coh with heldGranules := s.coh.heldGranules ++ s.jobGranules job } ∧
        t = { s with sorter := t.sorter, xlat := t.xlat, coh := t.coh }) ∧
    (s.due 0x0C q seq.toNat = some f → s.ctxOpen (body d 4 2) = true → body d 2 1 = 1 → body d 4 2 ∈ s.members (body d 0 2) →
      Goes (.shareset q seq) s fun t => t.Waits f ∧ t.xlat = { s.xlat with jobs := s.xlat.jobs ++ [share] } ∧
        t.coh = { s.coh with heldGranules := s.coh.heldGranules ++ s.jobGranules share } ∧
        t = { s with sorter := t.sorter, xlat := t.xlat, coh := t.coh }) ∧
    (∀ j, s.xlat.jobs.find? (fun j => j.queue == q.val && j.seq == seq.toNat) = some j → j.leave = none → s.jobGranules j = [] →
      Goes (.ownsetComplete q seq) s fun t => s.Left t q seq.toNat ∧ t.xlat = { s.xlat with jobs := s.xlat.jobs.erase j } ∧
        t = { s with sorter := t.sorter, flds := t.flds, ec := t.ec, xlat := t.xlat, coh := t.coh }) ∧
    (∀ j g, s.xlat.jobs.find? (fun j => j.queue == q.val && j.seq == seq.toNat) = some j → j.leave = none → s.jobGranules j = [g] →
      s.granulesQuiet [g] = true →
      Goes (.ownsetComplete q seq) s fun t => s.Left t q seq.toNat ∧ t.ownOf g = j.entry ∧ (∀ h, h ≠ g → t.ownOf h = s.ownOf h) ∧
        t.xlat.jobs = s.xlat.jobs.erase j ∧ (s.xlat.jobs = [j] → g ∉ t.coh.heldGranules)) ∧
    (s.due 0x0F q seq.toNat = some f → body d 3 1 = 1 → s.ctxOpen (body d 0 2) = true →
      let x := AMap.getD (s.ctxOf (body d 0 2)).quotas (body d 2 1) {}
      let r := s.writeBytes (ctxidOf d) (body d 16 8) ((leBytes 8 (x.cap.getD 0xFFFFFFFF) ++
        leBytes 8 (s.granulesUsed (body d 0 2) (body d 2 1)) ++ leBytes 8 x.moveb).map some)
      r.2.flight? q seq.toNat = some f →
      Goes (.quotaQuery q seq) s fun t => r.2.Left t q seq.toNat ∧ t.mem = r.2.mem ∧ t.hostMem = r.2.hostMem ∧
        t = { r.2 with sorter := t.sorter, flds := t.flds, ec := t.ec })

/-- Ownership of a granule and its bytes are checked by the rule of the entry: an access passes where the context is 0, memory is
not locked, the context owns the granule, or it shares it and does not write a granule shared for reading only. -/
def Obligations.OwnershipCheck : Prop :=  ∀ (s : State) (c g : Nat) (w : Bool), let o := s.ownOf g
    (s.ownCheck c g w = true ↔ c = 0 ∨ s.locked = false ∨ ((o.mode = 1 ∨ o.mode = 2) ∧ o.owner = c) ∨
      (o.mode = 2 ∧ c ∈ s.members o.sset ∧ (o.sro = false ∨ w = false))) ∧
    (s.retired g = true → o.mode = 3)

/-- LAUNCH starts the program of a tile's part with a0 to a5, the tile's place in its set and the number of its tiles; a misaligned
ENTRY is a fatal trap of the tile: counted, signalled, its reset begun, and the descriptor to end with 0x24. TEND waits, and
TEND_COMPLETE ends the part when the engines, the stores and the kernel have ended: the slot is free, and the tile's FLUSHED
flags enter the descriptor. -/
def Obligations.ControlPrograms : Prop :=  ∀ (s : State) (t : Fin 256),
    (∀ f, s.partHead t 0x10 = some f → f.abort = 0 →
      let d := f.desc
      let parts := f.parts.map fun p => if p.tile = t.val then { p with st := .running } else p
      (body d 0 8 % 4 = 0 → Goes (.launch t) s fun u =>
        (u.tile t).active = true ∧ (u.tile t).core.running = true ∧ (u.tile t).core.pc = BitVec.ofNat 64 (body d 0 8) ∧
        (u.tile t).core.wait = .none ∧ (u.tile t).core.mmode = false ∧ (u.tile t).core.f = [] ∧
        (∀ i, i < 4 → u.coreReg t (10 + i) = BitVec.ofNat 64 (body d (8 + 8 * i) 8)) ∧
        u.coreReg t 14 = BitVec.ofNat 64 (s.tileIndex f t).1 ∧ u.coreReg t 15 = BitVec.ofNat 64 (s.tileIndex f t).2 ∧
        (∀ r, r < 10 ∨ 16 ≤ r ∧ r < 32 → u.coreReg t r = 0) ∧
        (u.tile t).tokens = (if (body d 40 1).testBit 0 then [] else (s.tile t).tokens) ∧
        (u.tile t).fifo = (if (body d 40 1).testBit 1 then [] else (s.tile t).fifo) ∧ (u.tile t).sp = (s.tile t).sp ∧
        u.flight? f.queue f.seq = some { f with parts := parts } ∧ (∀ m, m ≠ t.val → u.tile m = s.tile m) ∧
        u = { s with sorter := { s.sorter with flights := u.sorter.flights }, tiles := u.tiles }) ∧
      (body d 0 8 % 4 ≠ 0 → Goes (.launch t) s fun u =>
        (u.tile t).mode = .draining s.time.cycle ∧ (u.tile t).core.running = false ∧
        u.flight? f.queue f.seq = some { f with parts := parts, abort := 0x24 } ∧
        u.get (Reg.CT_TRAP_CNT.COUNT t) = min (2 ^ 48 - 1) (s.get (Reg.CT_TRAP_CNT.COUNT t) + 1) ∧
        u.ec.signals = s.ec.signals ++ [512 + t.val] ∧ (∀ m, m ≠ t.val → u.tile m = s.tile m))) ∧
    (s.coreReady t = true → Goes (.tend t) s fun u =>
      u.tile t = { s.tile t with core := { (s.tile t).core with wait := .ending } } ∧ (∀ m, m ≠ t.val → u.tile m = s.tile m) ∧
        u = { s with tiles := u.tiles }) ∧
    (∀ f q n rest, s.flight? q n = some f → opOf f.desc = 0x10 → (s.tile t).core.wait = .ending → (∀ e, (s.engine t e).queue = [] ∧ (s.engine t e).started = []) →
      s.coreDrained t = true → (s.tile t).kernel = none → (s.tile t).slots = (q, n) :: rest → (s.tile t).clears = [] →
      Goes (.tendComplete t) s fun u => (u.tile t).slots = rest ∧ (u.tile t).active = false ∧ (u.tile t).core.running = false ∧
        (u.tile t).tokens = (s.tile t).tokens ∧ (u.tile t).sp = (s.tile t).sp ∧
        u.flight? q n = some { f with
          flushed := f.flushed ||| (s.tile t).flags, parts := f.parts.map fun p => if p.tile = t.val then { p with st := .ended } else p } ∧
        (∀ m, m ≠ t.val → u.tile m = s.tile m) ∧
        u = { s with sorter := { s.sorter with flights := u.sorter.flights }, tiles := u.tiles })

/-- The instructions on engine queues and the summary FIFO: a push into a queue with room gives the number of entries then free, one
of a malformed command into an empty queue is a fatal trap, and one into a full queue waits. TQFREE, TQIDLE and TSUMCNT read;
TSUM takes the oldest summary, or waits for one. Token counters: a core's post to its own tile adds, unless an earlier post of
it to that counter is on its way; a post to another tile leaves, and adds as it arrives, saturating at 2^32 − 1; a release post
waits for the core's stores. A take subtracts and returns the value it found, a test returns it, each once the counter has
reached the amount, and waits before; a read returns it, and a set replaces it. That a wait goes on by a command of its own
follows Log 2. -/
def Obligations.TileInstructions : Prop :=
  (∀ (s : State) (t : Fin 256) (rd rs1 rs2 : BitVec 5), s.coreReady t = true →
    let wrote (v : W64) (x : Tile) (u : State) : Prop := s.Wrote u t rd.toNat v x ∧ u = { s with tiles := u.tiles }
    let idle (e : Engine) : Bool := (s.engine t e).queue.isEmpty && (s.engine t e).started.isEmpty
    let bit (e : Engine) (i : Nat) : Nat := if idle e then 2 ^ i else 0
    (∀ e, (s.engine t e).queue.length < 64 →
      (s.engine t e).queue ≠ [] ∨ s.commandBad t e (s.coreReg t rs2.toNat ++ s.coreReg t rs1.toNat) = false →
      Goes (.tpush t e rd rs1 rs2) s fun u =>
        let pushed := s.onEngine t e fun y => { y with queue := y.queue ++ [s.coreReg t rs2.toNat ++ s.coreReg t rs1.toNat] }
        wrote (BitVec.ofNat 64 (63 - (s.engine t e).queue.length))
          { pushed.tile t with core := { (s.tile t).core with waitTicks := 0 } } u) ∧
    (∀ e, (s.engine t e).queue = [] → s.commandBad t e (s.coreReg t rs2.toNat ++ s.coreReg t rs1.toNat) = true →
      Goes (.tpush t e rd rs1 rs2) s fun u => (u.tile t).mode = .draining s.time.cycle ∧
        u.get (Reg.CT_TRAP_CNT.COUNT t) = min (2 ^ 48 - 1) (s.get (Reg.CT_TRAP_CNT.COUNT t) + 1) ∧ ∀ m, m ≠ t.val → u.tile m = s.tile m) ∧
    (∀ e, 64 ≤ (s.engine t e).queue.length →
      Goes (.tpush t e rd rs1 rs2) s fun u => (u.tile t).core.wait = .push e rd.toNat (s.coreReg t rs2.toNat ++ s.coreReg t rs1.toNat) ∧
        (u.tile t).core.pc = (s.tile t).core.pc ∧ (∀ e', u.engine t e' = s.engine t e') ∧ (∀ m, m ≠ t.val → u.tile m = s.tile m) ∧
        u = { s with tiles := u.tiles }) ∧
    (∀ e, Goes (.tqfree t e rd) s (wrote (BitVec.ofNat 64 (64 - (s.engine t e).queue.length)) (s.tile t))) ∧
    Goes (.tqidle t rd) s (wrote (BitVec.ofNat 64 (bit .load 0 + bit .matrix 1 + bit .vector 2 + bit .store 3)) (s.tile t)) ∧
    Goes (.tsumcnt t rd) s (wrote (BitVec.ofNat 64 (s.tile t).fifo.length) (s.tile t)) ∧
    (∀ v rest, (s.tile t).fifo = v :: rest → Goes (.tsum t rd) s
      (wrote v { s.tile t with fifo := rest, core := { (s.tile t).core with waitTicks := 0 } })) ∧
    ((s.tile t).fifo = [] → Goes (.tsum t rd) s fun u => (u.tile t).core.wait = .summary rd.toNat ∧
      (u.tile t).core.pc = (s.tile t).core.pc ∧ (∀ m, m ≠ t.val → u.tile m = s.tile m) ∧ u = { s with tiles := u.tiles })) ∧
  (∀ (s : State) (t : Fin 256) (c : Fin 32) (rd rs1 : BitVec 5),
    let n := (s.coreReg t rs1.toNat).toNat % 2 ^ 32
    let v := s.counterOf t c
    let counts (k : Nat) : Tile := { s.tile t with tokens := AMap.put (s.tile t).tokens c k }
    let calm (x : Tile) : Tile := { x with core := { x.core with waitTicks := 0 } }
    let wrote (w : W64) (x : Tile) (u : State) : Prop := s.Wrote u t rd.toNat w x ∧ u = { s with tiles := u.tiles }
    let pass (x : Tile) (u : State) : Prop := s.Wrote u t 0 0 x ∧ u = { s with tiles := u.tiles }
    (s.coreReady t = true →
      Goes (.tread t rd c) s (wrote (BitVec.ofNat 64 v) (s.tile t)) ∧
      Goes (.tsetc t rs1 c) s (pass (counts n)) ∧
      ((s.coreReg t rs1.toNat).toNat < 2 ^ 32 → (s.posts.any fun p => p.sender == t.val && p.tile == t.val && p.c == c.val) = false →
        v + n < 2 ^ 32 → Goes (.tpost t rs1 c false) s (pass (counts (v + n)))) ∧
      (∀ f p, (s.coreReg t rs1.toNat).getLsbD 63 = true → (s.coreReg t rs1.toNat).toNat / 2 ^ 40 % 2 ^ 23 = 0 → s.running t = some f →
        f.parts[(s.coreReg t rs1.toNat).toNat / 2 ^ 32 % 256]? = some p →
        Goes (.tpost t rs1 c false) s fun u => s.Wrote u t 0 0 (s.tile t) ∧
          u = { s with tiles := u.tiles, posts := s.posts ++ [{ sender := t, tile := p.tile, c := c, n := n }] }) ∧
      ((s.coreReg t rs1.toNat).toNat < 2 ^ 32 → s.coreDrained t = false → Goes (.tpost t rs1 c true) s fun u =>
        (u.tile t).core.wait = .post (s.coreReg t rs1.toNat) c ∧ (u.tile t).core.pc = (s.tile t).core.pc ∧ (u.tile t).tokens = (s.tile t).tokens ∧
          u = { s with tiles := u.tiles }) ∧
      ((∀ e, headWants (s.engine t e) ≠ some c.val) →
        (n ≤ v → Goes (.ttake t rd rs1 c) s (wrote (BitVec.ofNat 64 v) (calm (counts (v - n)))) ∧
          Goes (.ttest t rd rs1 c) s (wrote (BitVec.ofNat 64 v) (calm (s.tile t)))) ∧
        (v < n → Goes (.ttake t rd rs1 c) s (fun u =>
            u.tile t = { s.tile t with core := { (s.tile t).core with wait := .take rd.toNat c n, waitTicks := 0 } } ∧ u = { s with tiles := u.tiles }) ∧
          Goes (.ttest t rd rs1 c) s (fun u =>
            u.tile t = { s.tile t with core := { (s.tile t).core with wait := .test rd.toNat c n, waitTicks := 0 } } ∧ u = { s with tiles := u.tiles })))) ∧
    (∀ p, s.posts.find? (fun p => p.sender == t.val && p.c == c.val) = some p → (s.tile p.tile).mode ≠ .absent →
      Goes (.tokenPost t c) s fun u => u.posts = s.posts.erase p ∧
        u.counterOf p.tile c = min (2 ^ 32 - 1) (s.counterOf p.tile c + p.n) ∧
        (∀ k, k ≠ c.val → u.counterOf p.tile k = s.counterOf p.tile k) ∧ (∀ m, m ≠ p.tile → u.tile m = s.tile m) ∧
        u = { s with tiles := u.tiles, posts := u.posts, flds := u.flds } ∧ s.FieldsBut u [Reg.CT_TOKSAT_CNT.COUNT p.tile]) ∧
    (∀ m, (s.tile t).core.wait = .take rd.toNat c m → m ≤ v → (s.tile t).mode = .normal → (∀ e, headWants (s.engine t e) ≠ some c.val) →
      s.sorter.flights = [] →
      Goes (.tokenWaitSatisfied t c) s fun u =>
        s.Wrote u t rd.toNat (BitVec.ofNat 64 v) { counts (v - m) with core := { (s.tile t).core with wait := .none } }))

/-- A control core's plain accesses. A load of a line in the pocket cache, and one whose fill arrives, write the register; a store
enters the empty merging buffer; an entry of WB bytes that drains is written at the base die's L2; a pocket invalidation removes
the line's copies. AMO, LR and SC of a control core act on the line at the base die's L2 held with ownership, one with rl once
the core's earlier stores are done. AMO and LR give the old value sign-extended; SC writes only where the core's reservation
covers the line, gives 0 or 1, and ends it. A command that makes an access is one attempt (Log 32). -/
def Obligations.CoreMemoryAccesses : Prop :=
  (∀ (s : State) (t : Fin 256), let x := (s.tile t).core
    (∀ rd rs1 imm size uns l a, s.coreReady t = true → (uns && size == .d) = false →
      s.target (.dtlb t) (s.tileWho t (.core t)) (s.coreReg t rs1.toNat + imm.signExtend 64).toNat (sizeBytes size) accLoad = .mem s a 0 →
      (x.pocket ++ x.evict).find? (fun p => p.1 == a / 128) = some (a / 128, l) → s.resumeDone (.core t) = s →
      Goes (.controlCoreLoad t rd rs1 imm size uns false) s fun u =>
        s.Wrote u t rd.toNat (extend (lineNat l (a % 128) (sizeBytes size)) (sizeBytes size) (!uns))
          ((s.pocketAllocate t (a / 128) l).tile t) ∧ u = { s with tiles := u.tiles }) ∧
    (∀ rs1 rs2 imm size a, s.coreReady t = true →
      s.target (.dtlb t) (s.tileWho t (.core t)) (s.coreReg t rs1.toNat + imm.signExtend 64).toNat (sizeBytes size) accStore = .mem s a 0 →
      x.merge = [] → x.pocket = [] → x.evict = [] → s.resumeDone (.core t) = s →
      let e := lineWith (a % 128) (sizeBytes size) (s.coreReg t rs2.toNat)
      let c := (s.tileWho t (.core t)).ctx
      let m : MergeEntry := { line := a / 128, data := e.1, mask := e.2, since := s.time.cycle, ctx := c }
      Goes (.controlCoreStore t rs1 rs2 imm size false) s fun u =>
        s.Wrote u t 0 0 { s.tile t with core := { x with merge := [m] } } ∧ u = { s with tiles := u.tiles }) ∧
    (∀ rd a n sext c, x.wait = .fill rd a n sext false true 0 → s.merging t (a / 128) = false →
      s.l2Avail (s.dieOf t) (a / 128) (s.tileWho t (.core t)).ctx false = .ready c →
      Goes (.pocketFillArrival t) s fun u => (u.tile t).core.wait = .none ∧ (u.tile t).core.pc = x.pc + 4 ∧
        (∀ r, r < 32 → u.coreReg t r = if r = rd % 32 ∧ r ≠ 0 then extend (lineNat c.data (a % 128) n) n sext else s.coreReg t r) ∧
        (a / 128, c.data) ∈ (u.tile t).core.pocket ∧ (∀ m, m ≠ t.val → u.tile m = s.tile m) ∧
        u = { s with tiles := u.tiles, order := { s.order with tried := u.order.tried }, coh := { s.coh with presence := u.coh.presence } }) ∧
    (∀ e rest c, s.mergeDue t = true → x.merge = e :: rest → e.host = false → s.coherent (e.line * 128) = true → e.umask = 0 → e.mask ≠ 0 →
      x.wait = .none → s.storeGone (.core t) e.line = false → s.l2Avail (s.dieOf t) e.line e.ctx true = .ready c →
      Goes (.mergeEntryDrain t) s fun u => (u.tile t).core.merge = rest ∧ (u.tile t).core.pc = x.pc ∧
        (let p := (s.tryEnds (.core t) e.line).l2Put (s.dieOf t) e.line c (lineMerge c.data e.data e.mask)
         u = { p with tiles := u.tiles, harts := u.harts, coh := { p.coh with presence := u.coh.presence } })) ∧
    (∀ line : BitVec 45, Goes (.pocketInvalidation t line) s fun u => (∀ p ∈ (u.tile t).core.pocket, p.1 ≠ line.toNat) ∧
      (∀ p ∈ (u.tile t).core.evict, p.1 ≠ line.toNat) ∧ (∀ p, p.1 ≠ line.toNat → (p ∈ (u.tile t).core.pocket ↔ p ∈ x.pocket)) ∧
      (u.tile t).core.x = x.x ∧ (∀ m, m ≠ t.val → u.tile m = s.tile m) ∧ u = { s with tiles := u.tiles })) ∧
  (∀ (s : State) (t : Fin 256) (rd rs1 rs2 : BitVec 5) (double : Bool) (aqrl : BitVec 2) (access a eff : Nat) (c : CLine), s.coreReady t = true →
    aqrl.getLsbD 0 = false ∨ s.coreDrained t = true →
    let n := if double then 8 else 4
    let line := a / 128
    let die := s.dieOf t
    let v := s.coreReg t rs2.toNat
    let stored (w : W64) (l : Line) : Line := lineMerge l (lineWith (a % 128) n w).1 (lineWith (a % 128) n w).2
    let base : State := (s.pocketDrop t line).tryEnds (.core t) line
    let put (l : Line) : State := base.l2Put die line c l
    let reg (u p : State) (w : W64) : Prop := (∀ r, r < 32 → u.coreReg t r = if r = rd.toNat ∧ r ≠ 0 then w else s.coreReg t r) ∧
      (u.tile t).core.pc = (s.tile t).core.pc + 4 ∧
      u = { p with tiles := u.tiles, harts := u.harts, coh := { p.coh with presence := u.coh.presence } }
    let old := lineNat c.data (a % 128) n
    s.target (.dtlb t) (s.tileWho t (.core t)) (s.coreReg t rs1.toNat).toNat n access = .mem s a eff → eff ≠ 2 →
    s.merging t line = false → (s.pocketDrop t line).l2Avail die line (s.tileWho t (.core t)).ctx true = .ready c →
    s.resumeDone (.core t) = s →
    (∀ op, access = accAtomic → Goes (.controlCoreAmo t op rd rs1 rs2 ⟨double, aqrl⟩) s fun u => 
      reg u (put (stored (amoResult op double (BitVec.ofNat 64 old) v) c.data)) (extend old n true)) ∧
    (access = accLr → Goes (.controlCoreLr t rd rs1 ⟨double, aqrl⟩) s fun u => reg u (put c.data) (extend old n true) ∧
      (u.tile t).core.resv = some line) ∧
    (access = accSc → (s.tile t).core.resv = some line → Goes (.controlCoreSc t rd rs1 rs2 ⟨double, aqrl⟩) s fun u => 
      reg u (put (stored v c.data)) 0 ∧ (u.tile t).core.resv = none) ∧
    (access = accSc → (s.tile t).core.resv ≠ some line → Goes (.controlCoreSc t rd rs1 rs2 ⟨double, aqrl⟩) s fun u => reg u base 1 ∧
      (u.tile t).core.resv = none))

/-- A FENCE of a control core retires where its predecessor set is done, and waits otherwise; FENCE.I empties the instruction cache
and retires. ECALL, and EBREAK where no debug session of the context lets in halting at EBREAK, are fatal traps: the tile's
reset begins, its commands are dropped, the trap is counted and signalled, and the descriptor is to end with 0x24. With such a
session EBREAK retires. -/
def Obligations.FencesAndTraps : Prop :=  ∀ (s : State) (t : Fin 256), s.coreReady t = true →
    (∀ pred succ : BitVec 4, s.fenceDone t pred.toNat = true → Goes (.controlCoreFence t pred succ) s fun u =>
      s.Wrote u t 0 0 { s.tile t with core := { (s.tile t).core with waitTicks := 0 } } ∧ u = { s with tiles := u.tiles }) ∧
    (∀ pred succ : BitVec 4, s.fenceDone t pred.toNat = false → Goes (.controlCoreFence t pred succ) s fun u =>
      u.tile t = { s.tile t with core := { (s.tile t).core with wait := .fence pred.toNat succ.toNat, waitTicks := 0 } } ∧
        u = { s with tiles := u.tiles }) ∧
    Goes (.fenceI t) s (fun u => s.Wrote u t 0 0 { s.tile t with core := { (s.tile t).core with icache := [] } } ∧
      u = { s with tiles := u.tiles }) ∧
    (∀ h, attachedSession s t = some h → Goes (.ebreak t none) s fun u => s.Wrote u t 0 0 (s.tile t) ∧ u = { s with tiles := u.tiles }) ∧
    ∀ c ∈ [Instr.ecall t none, .ebreak t none], c = .ecall t none ∨ attachedSession s t = none → Goes c s fun u =>
      (u.tile t).mode = .draining s.time.cycle ∧ (u.tile t).core.running = false ∧ (u.tile t).tokens = (s.tile t).tokens ∧
        (∀ e, (u.engine t e).queue = [] ∧ (u.engine t e).started = []) ∧
        (∀ f, s.running t = some f → f.abort = 0 → u.flight? f.queue f.seq = some { f with abort := 0x24 }) ∧
        u.get (Reg.CT_TRAP_CNT.COUNT t) = min (2 ^ 48 - 1) (s.get (Reg.CT_TRAP_CNT.COUNT t) + 1) ∧
        u.ec.signals = s.ec.signals ++ [512 + t.val] ∧ (∀ m, m ≠ t.val → u.tile m = s.tile m) ∧
        s.FieldsBut u [Reg.CT_TRAP_CNT.COUNT t] ∧ u.mem = s.mem

/-- The stages of a tile reset, the clearing of a scratchpad, and the watchdog: a drained tile that ran a program or a kernel enters
its 512 cycles, its units at their reset values and its part ended, the scratchpad and the token counters kept; after them it
takes the packets that waited. A clear leaves zeros, takes the packets, and shows the tile's new set. A tile that has waited
through WDOG ticks traps. The free values of lost scratchpad bytes are those of Log 4. -/
def Obligations.TileResets : Prop :=  ∀ (s : State) (t : Fin 256), let x := s.tile t
    (∀ since q n rest f, s.flight? q n = some f → State.jobOp (opOf f.desc) = false → f.acks = [] → x.mode = .draining since → x.core.merge = [] → s.order.out = [] → x.active = true → x.slots = (q, n) :: rest →
      Goes (.resetDrainEnd t) s fun u => (u.tile t).mode = .resetting s.time.cycle ∧ (u.tile t).slots = rest ∧
        (u.tile t).active = false ∧ (u.tile t).tokens = x.tokens ∧ (u.tile t).sp = x.sp ∧ (u.tile t).core = {} ∧ (u.tile t).kernel = none ∧
        (u.tile t).matrix = {} ∧ (u.tile t).vector = {} ∧ (u.tile t).fifo = [] ∧ (∀ e, u.engine t e = {}) ∧
        u.flight? q n = some { f with
          flushed := f.flushed ||| x.flags, parts := f.parts.map fun p => if p.tile = t.val then { p with st := .ended } else p } ∧
        (∀ m, m ≠ t.val → u.tile m = s.tile m) ∧
        u = { s with sorter := { s.sorter with flights := u.sorter.flights }, tiles := u.tiles, xlat := { s.xlat with tlb := u.xlat.tlb }
                     order := { s.order with tried := u.order.tried } }) ∧
    (∀ since, x.mode = .draining since → s.drainOver t since = false → exec (.resetDrainEnd t) s = .next s) ∧
    (∀ since, x.mode = .resetting since → since + 512 ≤ s.time.cycle → x.clears = [] →
      Goes (.tileResetComplete t) s fun u => u.tile t = { x with mode := .normal, slots := x.slots ++ x.waiting, waiting := [] } ∧
        (∀ m, m ≠ t.val → u.tile m = s.tile m) ∧ u = { s with tiles := u.tiles }) ∧
    (∀ since, x.mode = .resetting since → s.time.cycle < since + 512 → exec (.tileResetComplete t) s = .next s) ∧
    (∀ since set, x.mode = .clearing since set → since + 2048 ≤ s.time.cycle → x.clears = [] →
      Goes (.scratchpadClearEnd t) s fun u => u.tile t =
          { x with mode := .normal, sp := [], spLost := none, spBad := [], tokens := [], fifo := [], slots := x.slots ++ x.waiting, waiting := [] } ∧
        u.flag (Reg.CT_TSET.VALID t) = set.isSome ∧ u.get (Reg.CT_TSET.TSET t) = (set.getD 0) % 2 ^ (Reg.CT_TSET.TSET t).len ∧
        (∀ m, m ≠ t.val → u.tile m = s.tile m) ∧ u = { s with tiles := u.tiles, flds := u.flds } ∧
        s.FieldsBut u [Reg.CT_TSET.VALID t, Reg.CT_TSET.TSET t]) ∧
    (s.tick.wdog ≠ 0 → s.tick.wdog ≤ x.core.waitTicks ∨ s.tick.wdog ≤ x.ld.waitTicks ∨ s.tick.wdog ≤ x.mx.waitTicks ∨
        s.tick.wdog ≤ x.ve.waitTicks ∨ s.tick.wdog ≤ x.st.waitTicks → x.mode = .normal →
      Goes (.watchdogExpiry t) s fun u => (u.tile t).mode = .draining s.time.cycle ∧
        u.get (Reg.CT_TRAP_CNT.COUNT t) = min (2 ^ 48 - 1) (s.get (Reg.CT_TRAP_CNT.COUNT t) + 1) ∧
        u.ec.signals = s.ec.signals ++ [512 + t.val] ∧ (∀ m, m ≠ t.val → u.tile m = s.tile m)) ∧
    (s.tick.wdog = 0 → exec (.watchdogExpiry t) s = .next s)

/-- A kernel's part starts on a tile with its share of the blocks. TKLAUNCH starts the kernel of its launch block, whose bytes `bs`
it reads, and writes the number of the launch, or waits while a kernel is resident. A block takes the lowest free slot and
starts its groups with their registers and generators. A KERNEL's kernel of which every block has ended ends its part; one that
TKLAUNCH started goes, and its post is made. Registers that the manual leaves open at a start hold 0 (Log 94). -/
def Obligations.Kernels : Prop :=  ∀ (s : State) (t : Fin 256),
    (∀ f, s.partHead t 0x11 = some f → f.abort = 0 →
      let sh := share (body f.desc 16 4) (s.tileIndex f t).2 (s.tileIndex f t).1
      Goes (.kernel t) s fun u => (u.tile t).active = true ∧
        (u.tile t).kernel = some { body := BitVec.ofNat 384 (body f.desc 0 48), index := (s.tileIndex f t).1, next := sh.1, stop := sh.1 + sh.2 } ∧
        u.flight? f.queue f.seq = some { f with
          parts := f.parts.map fun p => if p.tile = t.val then { p with st := .running } else p } ∧
        (∀ m, m ≠ t.val → u.tile m = s.tile m) ∧
        u = { s with sorter := { s.sorter with flights := u.sorter.flights }, tiles := u.tiles }) ∧
    (∀ rd rs1, s.coreReady t = true → (s.tile t).kernel.isSome = true → Goes (.tklaunch t rd rs1) s fun u =>
      u.tile t = { s.tile t with core := { (s.tile t).core with
        wait := .launch rd.toNat (s.coreReg t rs1.toNat).toNat, waitTicks := 0 } } ∧
        u = { s with tiles := u.tiles }) ∧
    (∀ (rd rs1 : BitVec 5) (ps : List Piece) (bs : List Byte) (w : State), s.coreReady t = true → (s.tile t).kernel = none →
      let va := (s.coreReg t rs1.toNat).toNat
      let v := leNat bs
      va + 63 < 2 ^ 48 → s.pagePieces (s.tileWho t (.core t)) accLoad (pageSpans va 64) = (some ps, s) →
      (∀ p ∈ ps, ∃ a n, p = .mem a n) → ps.any s.pieceHeld = false →
      s.readPieces 0 (s.tileWho t (.core t)) ps = (bs.map some, {}, w) →
      w.resumeDone (.core t) = w → State.launchBad v = false →
      Goes (.tklaunch t rd rs1) s fun u => u.coreReg t rd.toNat = (if rd = 0 then 0 else BitVec.ofNat 64 ((w.tile t).core.launches + 1)) ∧
        (u.tile t).core.pc = (w.tile t).core.pc + 4 ∧ (u.tile t).core.launches = (w.tile t).core.launches + 1 ∧
        (∀ r, r < 32 → r ≠ rd.toNat → u.coreReg t r = w.coreReg t r) ∧
        (∃ k, (u.tile t).kernel = some k ∧ k.body = BitVec.ofNat 384 v ∧ k.launched = true ∧ k.next = 0 ∧ k.stop = at_ v 16 4 ∧
          k.done = (if (at_ v 48 1).testBit 5 then some (at_ v 48 1 % 32) else none)) ∧
        (∀ m, m ≠ t.val → u.tile m = w.tile m) ∧ u = { w with tiles := u.tiles }) ∧
    (∀ k, (s.tile t).kernel = some k → (s.tile t).mode = .normal → k.trapped = none → k.next < k.stop → k.blocks.length < residentLimit k →
      Goes (.blockStart t) s fun u => ∃ k' b, (u.tile t).kernel = some k' ∧ k'.next = k.next + 1 ∧ k'.blocks = k.blocks ++ [b] ∧
        b.num = k.next ∧ (∀ y ∈ k.blocks, y.slot ≠ b.slot) ∧ (∀ i, i < b.slot → ∃ y ∈ k.blocks, y.slot = i) ∧ b.counts = List.replicate 16 0 ∧ k'.groups.length = k.groups.length + kGpb k ∧
        (∀ i, i < k.groups.length → k'.groups[i]? = k.groups[i]?) ∧
        (∀ g l, g < kGpb k → l < 32 → ∃ x, k'.groups[k.groups.length + g]? = some x ∧ x.block = k.next ∧ x.g = g ∧ x.lanes.length = 32 ∧
          (x.lanes.getD l {}).pc = BitVec.ofNat 64 (kfield k 0 8) ∧
          laneReg (x.lanes.getD l {}) 10 = BitVec.ofNat 64 (kfield k 8 8) ∧ laneReg (x.lanes.getD l {}) 11 = BitVec.ofNat 64 k.next ∧
          laneReg (x.lanes.getD l {}) 12 = BitVec.ofNat 64 (32 * g + l) ∧ laneReg (x.lanes.getD l {}) 13 = BitVec.ofNat 64 (32 * kGpb k) ∧
          (∀ q : BitVec 5, q.toNat < 10 ∨ 16 ≤ q.toNat → laneReg (x.lanes.getD l {}) q = 0) ∧
          (x.lanes.getD l {}).gen = s.openLane t 2 (32 * (g % 4) + l) ((kfield k 40 4 + 8 * k.next + g / 4) % 2 ^ 32) ∧
          laneReg (x.lanes.getD l {}) 14 = BitVec.ofNat 64 k.index ∧ laneReg (x.lanes.getD l {}) 15 = BitVec.ofNat 64 (kfield k 16 4)) ∧
        (∀ m, m ≠ t.val → u.tile m = s.tile m) ∧ u = { s with tiles := u.tiles }) ∧
    (∀ k q n rest f, s.flight? q n = some f → State.jobOp (opOf f.desc) = false → (s.tile t).kernel = some k → (s.tile t).mode = .normal → k.launched = false → s.kernelOver t k = true →
      (s.tile t).slots = (q, n) :: rest → (s.tile t).clears = [] →
      Goes (.kernelPartEnd t) s fun u => (u.tile t).kernel = none ∧ (u.tile t).slots = rest ∧ (u.tile t).active = false ∧
        u.flight? q n = some { f with flushed := f.flushed ||| (s.tile t).flags
                                      parts := f.parts.map fun p => if p.tile = t.val then { p with st := .ended } else p } ∧
        (∀ m, m ≠ t.val → u.tile m = s.tile m) ∧
        u = { s with sorter := { s.sorter with flights := u.sorter.flights }, tiles := u.tiles }) ∧
    (∀ k c, (s.tile t).kernel = some k → (s.tile t).mode = .normal → k.launched = true → s.kernelOver t k = true → k.done = some c →
      s.counterOf t c < 2 ^ 32 - 1 → (s.tile t).core.wait = .none →
      Goes (.tklaunchEnd t) s fun u =>
        u.tile t = { s.tile t with kernel := none, tokens := AMap.put (s.tile t).tokens c (s.counterOf t c + 1) } ∧
        (∀ m, m ≠ t.val → u.tile m = s.tile m) ∧ u = { s with tiles := u.tiles })

/-- The instructions between the lanes of a group: each lane of the issuing set receives the value of its source lane, or the
outcome of the vote, and retires. -/
def Obligations.ShufflesAndVotes : Prop :=  ∀ (s : State) (r : GroupRef) (rd rs1 rs2 : BitVec 5) (k : Kernel) (x : Group) (ls : List Nat),
    s.groupIssues r.tile r.block.toNat r.group = some (k, x, ls) → kRegs32 k = true →
    let reg (i : Nat) (q : BitVec 5) : W64 := laneReg (s.laneAt r i) q
    let shuffled (src : Nat → Nat → Int) (i : Nat) : W64 :=
      let n := src i ((reg i rs2).toNat % 32)
      if 0 ≤ n ∧ n < 32 ∧ n.toNat ∈ ls then reg n.toNat rs1 else reg i rs1
    let mask (p : Nat → Bool) : W64 := BitVec.ofNat 64 (laneMask (ls.filter p))
    (∀ c src, (c, src) ∈ [(Instr.shflIdx r rd rs1 rs2, fun (_ n : Nat) => (n : Int)), (.shflUp r rd rs1 rs2, fun l n => (l : Int) - n),
        (.shflDown r rd rs1 rs2, fun l n => (l : Int) + n), (.shflXor r rd rs1 rs2, fun l n => ((l ^^^ n : Nat) : Int))] →
      Goes c s fun u => s.LanesWrote u r ls rd (shuffled src)) ∧
    Goes (.voteAny r rd rs1) s (fun u => s.LanesWrote u r ls rd fun _ => if ∃ i ∈ ls, reg i rs1 ≠ 0 then 1 else 0) ∧
    Goes (.voteAll r rd rs1) s (fun u => s.LanesWrote u r ls rd fun _ => if ∀ i ∈ ls, reg i rs1 ≠ 0 then 1 else 0) ∧
    Goes (.voteBallot r rd rs1) s (fun u => s.LanesWrote u r ls rd fun _ => mask fun i => reg i rs1 != 0) ∧
    Goes (.voteActive r rd) s (fun u => s.LanesWrote u r ls rd fun _ => mask fun _ => true) ∧
    (∀ f : Fin 8, Goes (.getid r rd f) s fun u => s.LanesWrote u r ls rd fun l => BitVec.ofNat 64 (match f.val with
      | 0 => l | 1 => r.group | 2 => 32 * r.group + l | 3 => kGpb k | 4 => r.block.toNat | 5 => kfield k 16 4 | 6 => k.index
      | _ => kfield k 24 8))

/-- BAR, GSYNC and EXIT of a group whose other lanes keep running: the issuing lanes wait at the barrier, with their arrivals
counted or their masks kept, or have exited. TGPOST posts the low word of every issuing lane, a release one once the group has
no store outstanding. SRND rounds each lane's value with the next draw of its generator. A fence with no store of the group
outstanding retires. -/
def Obligations.GroupSynchronization : Prop :=  ∀ (s : State) (r : GroupRef) (rs1 : BitVec 5) (k : Kernel) (x : Group) (ls : List Nat),
    s.groupIssues r.tile r.block.toNat r.group = some (k, x, ls) → kRegs32 k = true →
    let more := ∃ l ∈ x.lanes.zipIdx, l.2 ∉ ls ∧ laneRunnable l.1 = true
    let tiles (u : State) : Prop := (∀ m, m ≠ r.tile.val → u.tile m = s.tile m) ∧ u = { s with tiles := u.tiles }
    (∀ (b : Fin 16) (y : Block), more → k.blocks = [y] → y.num = r.block.toNat → k.groups = [x] → (∀ l ∈ x.lanes, l.wait = none) → y.counts.length = 16 →
      (∀ i ∈ y.counts, i = 0) → kGpb k = 1 → x.lanes.length = 32 →
      Goes (.bar r b) s fun u => tiles u ∧ (∀ i ∈ ls, (u.laneAt r i).wait = some b.val ∧ (u.laneAt r i).pc = (s.laneAt r i).pc) ∧
        (∀ i, i ∉ ls → u.laneAt r i = s.laneAt r i) ∧
        ∃ k', (u.tile r.tile).kernel = some k' ∧ k'.blocks = [{ y with counts := y.counts.set b ls.length }]) ∧
    (more → k.blocks = [] → k.groups = [x] → (∀ l ∈ x.lanes, l.wait = none) → x.lanes.length = 32 →
      (∀ i ∈ ls, ∃ j < 32, j ∉ ls ∧ (laneReg (s.laneAt r i) rs1).toNat.testBit j = true ∧ laneRunnable (s.laneAt r j) = true) →
      Goes (.gsync r rs1) s fun u => tiles u ∧ (∀ i ∈ ls, (u.laneAt r i).wait = some 16 ∧ (u.laneAt r i).pc = (s.laneAt r i).pc ∧
          (u.laneAt r i).mask = (laneReg (s.laneAt r i) rs1).toNat % 2 ^ 32 ||| 2 ^ i) ∧ ∀ i, i ∉ ls → u.laneAt r i = s.laneAt r i) ∧
    (more → k.blocks = [] → k.groups = [x] → (∀ l ∈ x.lanes, l.wait = none) → x.lanes.length = 32 →
      Goes (.exit r) s fun u => tiles u ∧ (∀ i ∈ ls, (u.laneAt r i).exited = true ∧ (u.laneAt r i).resv = none) ∧
        ∀ i, i ∉ ls → u.laneAt r i = s.laneAt r i) ∧
    (∀ (c : Fin 32) (release : Bool), release = false ∨ s.groupStores r.tile r.block.toNat r.group = false →
      Goes (.tgpost r rs1 c release) s fun u => u.counterOf r.tile c =
          min (2 ^ 32 - 1) (s.counterOf r.tile c + sumNat (ls.map fun i => (laneReg (s.laneAt r i) rs1).toNat % 2 ^ 32)) ∧
        (∀ d, d ≠ c.val → u.counterOf r.tile d = s.counterOf r.tile d) ∧
        (∀ i ∈ ls, (u.laneAt r i).pc = (s.laneAt r i).pc + 4) ∧ (∀ i, i ∉ ls → u.laneAt r i = s.laneAt r i) ∧
        (∀ m, m ≠ r.tile.val → u.tile m = s.tile m) ∧
        u = { s with tiles := u.tiles, flds := u.flds } ∧ s.FieldsBut u [Reg.CT_TOKSAT_CNT.COUNT r.tile]) ∧
    (∀ (rd format n : BitVec 5) (double : Bool) (f : FFmt), (2 ≤ format.toNat ∧ format.toNat ≤ 8 ∨ format.toNat = 1 ∧ double = true) →
      4 ≤ n.toNat → n.toNat ≤ 16 → elemOf format.toNat = some (.float f) →
      let src := if double then fp64 else fp32
      let value (i : Nat) : Nat := (laneReg (s.laneAt r i) rs1).toNat % 2 ^ (if double then 64 else 32)
      let draw (i : Nat) : W64 × Nat := srDraw (s.laneAt r i).gen n.toNat
      let rounded (i : Nat) : Nat :=
        (encodeF f { rnd := 5, sat := kSat k, ftz := kFtz k, srbits := n.toNat } (draw i).2 (readF src (kFtz k) (value i)).1).1
      Goes (.srnd r rd rs1 format double n) s fun u =>
        (∀ i ∈ ls, (u.laneAt r i).pc = (s.laneAt r i).pc + 4 ∧ (u.laneAt r i).gen = (draw i).1 ∧
          (∀ q, laneReg (u.laneAt r i) q = if q = rd ∧ q ≠ 0 then extend (encodeF fp32 {} 0 (decodeF f (rounded i))).1 4 true
            else laneReg (s.laneAt r i) q)) ∧
        (∀ i, i ∉ ls → u.laneAt r i = s.laneAt r i) ∧ tiles u) ∧
    (∀ pred succ : BitVec 4, s.groupStores r.tile r.block.toNat r.group = false →
      Goes (.threadFence r pred succ) s fun u => s.LanesWrote u r ls 0 fun _ => 0)

/-- Loads, stores, AMO, LR and SC of a group whose one issuing lane reaches its tile's local memory, no word of which is
uncorrectable there, and a load that finds its line in the thread L1: the register takes the bytes, local memory takes the
operand, and the lane retires; rl waits for the group's stores. SC writes where the lane's reservation covers the granule, and
gives 0 or 1. The thread L1's replacement is that of Log 37. -/
def Obligations.ThreadAccesses : Prop :=  ∀ (s : State) (r : GroupRef) (rd rs1 rs2 : BitVec 5) (aqrl : BitVec 2) (k : Kernel) (x : Group) (i : Nat),
    s.groupIssues r.tile r.block.toNat r.group = some (k, x, [i]) → kRegs32 k = true → s.resumeDone (.group r.tile r.block.toNat r.group) = s →
    aqrl.getLsbD 0 = false ∨ s.groupStores r.tile r.block.toNat r.group = false →
    let good (sp n : Nat) : Prop := s.spBadIn r.tile [(sp, n)] = []
    let reg (q : BitVec 5) : W64 := laneReg (s.laneAt r i) q
    let bytes (sp n : Nat) : Nat := leNat (s.spBytes r.tile sp n)
    let ret (u : State) (d : BitVec 5) (v : W64) : Prop := (u.laneAt r i).pc = (s.laneAt r i).pc + 4 ∧
      (∀ q, laneReg (u.laneAt r i) q = if q = d ∧ q ≠ 0 then v else reg q) ∧ (∀ m, m ≠ r.tile.val → u.tile m = s.tile m) ∧
      (∀ r' j, r' ≠ r → (u.laneAt r' j).x = (s.laneAt r' j).x ∧ (u.laneAt r' j).pc = (s.laneAt r' j).pc) ∧
      u = { s with tiles := u.tiles, order := { s.order with tried := u.order.tried } }
    let kept (u : State) : Prop := ∀ n, (u.spBytes r.tile 0 n) = s.spBytes r.tile 0 n
    let wrote (u : State) (sp n : Nat) (v : W64) : Prop := u.spBytes r.tile sp n = leBytes n v.toNat ∧
      ∀ a, a < sp ∨ sp + n ≤ a → u.spBytes r.tile a 1 = s.spBytes r.tile a 1
    (∀ imm size uns sp, (uns && size == .d) = false → let va := (reg rs1 + imm.signExtend 64).toNat
      State.localByte k r.block.toNat va = some (some sp) → va % sizeBytes size = 0 → good sp (sizeBytes size) →
      Goes (.threadLoad r rd rs1 imm size uns) s fun u => ret u rd (extend (bytes sp (sizeBytes size)) (sizeBytes size) (!uns)) ∧ kept u) ∧
    (∀ imm size uns a l, (uns && size == .d) = false → let va := (reg rs1 + imm.signExtend 64).toNat
      State.localByte k r.block.toNat va = none →
      s.target (.thread r.tile) (s.tileWho r.tile (.group r.tile r.block.toNat r.group)) va (sizeBytes size) accLoad = .mem s a 0 →
      k.l1.find? (fun p => p.1 == a / 128) = some (a / 128, l) → (∃ c, s.l2Avail (s.dieOf r.tile) (a / 128)
        (s.tileWho r.tile (.group r.tile r.block.toNat r.group)).ctx false = .ready c) →
      Goes (.threadLoad r rd rs1 imm size uns) s fun u =>
        ret u rd (extend (lineNat l (a % 128) (sizeBytes size)) (sizeBytes size) (!uns)) ∧ kept u) ∧
    (∀ imm size sp, let va := (reg rs1 + imm.signExtend 64).toNat
      State.localByte k r.block.toNat va = some (some sp) → va % sizeBytes size = 0 → good sp (sizeBytes size) →
      Goes (.threadStore r rs1 rs2 imm size) s fun u => ret u 0 0 ∧ wrote u sp (sizeBytes size) (reg rs2)) ∧
    (∀ op double sp, let n := if double then 8 else 4
      State.localByte k r.block.toNat (reg rs1).toNat = some (some sp) → (reg rs1).toNat % n = 0 → good sp n →
      Goes (.threadAmo r op rd rs1 rs2 ⟨double, aqrl⟩) s fun u => ret u rd (extend (bytes sp n) n true) ∧
        wrote u sp n (amoResult op double (BitVec.ofNat 64 (bytes sp n)) (reg rs2))) ∧
    (∀ double sp, let n := if double then 8 else 4
      State.localByte k r.block.toNat (reg rs1).toNat = some (some sp) → (reg rs1).toNat % n = 0 → good sp n →
      Goes (.threadLr r rd rs1 ⟨double, aqrl⟩) s fun u => ret u rd (extend (bytes sp n) n true) ∧ kept u ∧
        (u.laneAt r i).resv = some (localKey r.tile sp)) ∧
    (∀ double sp, let n := if double then 8 else 4
      State.localByte k r.block.toNat (reg rs1).toNat = some (some sp) → (reg rs1).toNat % n = 0 → good sp n →
      ((s.laneAt r i).resv = some (localKey r.tile sp) → Goes (.threadSc r rd rs1 rs2 ⟨double, aqrl⟩) s fun u =>
        ret u rd 0 ∧ wrote u sp n (reg rs2) ∧ (u.laneAt r i).resv = none) ∧
      ((s.laneAt r i).resv ≠ some (localKey r.tile sp) → Goes (.threadSc r rd rs1 rs2 ⟨double, aqrl⟩) s fun u =>
        ret u rd 1 ∧ kept u ∧ (u.laneAt r i).resv = none))

/-- ECALL of a group, EBREAK without a session, an instruction that names x16 to x31 under RV64E, and a lane that has waited through
BWDOG ticks, are fatal traps of a kernel: counted, and, for a kernel without a debug record, the tile's reset begins. EBREAK
under a session that admits it halts the group, notes it in the session, and signals source 36 and the tile's. When EBREAK halts
a group is Log 71. -/
def Obligations.GroupTraps : Prop :=  ∀ (s : State) (t : Fin 256) (k : Kernel), (s.tile t).kernel = some k → k.trapped = none → kfield k 32 8 = 0 → (s.tile t).mode = .normal →
    let traps (u : State) : Prop := (u.tile t).mode = .draining s.time.cycle ∧
      u.get (Reg.TG_TRAP_CNT.COUNT t) = min (2 ^ 48 - 1) (s.get (Reg.TG_TRAP_CNT.COUNT t) + 1) ∧
      u.get (Reg.CT_TRAP_CNT.COUNT t) = min (2 ^ 48 - 1) (s.get (Reg.CT_TRAP_CNT.COUNT t) + 1) ∧
      (∀ f, s.running t = some f → f.abort = 0 → u.flight? f.queue f.seq = some { f with abort := 0x24 }) ∧
      u.ec.signals = s.ec.signals ++ [512 + t.val] ∧ ∀ m, m ≠ t.val → u.tile m = s.tile m
    (∀ (b : BitVec 31) (g : Fin 32), (s.groupIssues t b.toNat g).isSome = true → Goes (.ecall t (some (b, g))) s traps) ∧
    (∀ (b : BitVec 31) (g : Fin 32), (s.groupIssues t b.toNat g).isSome = true → attachedSession s t = none →
      Goes (.ebreak t (some (b, g))) s traps) ∧
    (∀ (r : GroupRef) (rd rs1 rs2 : BitVec 5), r.tile = t → (s.groupIssues t r.block.toNat r.group).isSome = true → kRegs32 k = false →
      16 ≤ rd.toNat → ∀ c ∈ [Instr.shflIdx r rd rs1 rs2, .voteAny r rd rs1, .voteActive r rd, .threadLoad r rd rs1 0 .d false], Goes c s traps) ∧
    (∀ (b : BitVec 31) (g : Fin 32) h x ls, s.groupIssues t b.toNat g = some (k, x, ls) → attachedSession s t = some h →
      s.power.sleep = .run →
      Goes (.ebreak t (some (b, g))) s fun u => (∃ y, u.group? t b.toNat g = some y ∧ y.2.halted = true ∧ y.2.haltSet = laneMask ls ∧
        y.2.lanes = x.lanes) ∧ (u.source 36).pend = true ∧ u.ec.signals = s.ec.signals ++ [512 + t.val] ∧
        (∀ p ∈ s.tarle.sessions, p.1 = h → ∃ p' ∈ u.tarle.sessions, p'.1 = h ∧ p'.2.halted = p.2.halted ++ [(t.val, b.toNat, g.val)]) ∧
        (∀ m, m ≠ t.val → u.tile m = s.tile m) ∧ u = { s with tiles := u.tiles, ec := u.ec, tarle := u.tarle }) ∧
    (∀ g l, k.groups = [g] → l ∈ g.lanes → l.exited = false → s.tick.bwdog ≠ 0 → s.tick.bwdog ≤ l.waitTicks →
      Goes (.barrierWatchdog t) s fun u => traps u ∧ u.get (Reg.TG_BWDOG_CNT.COUNT t) = min (2 ^ 48 - 1) (s.get (Reg.TG_BWDOG_CNT.COUNT t) + 1)) ∧
    (s.tick.bwdog = 0 → exec (.barrierWatchdog t) s = .next s)

/-- The commands of the load and store engines: NOP changes nothing, an address or stride register takes its value, a row moves
between the scratchpad and the memory through its segment, LD.ZERO writes zeros, and a completed command leaves with its post.
As a command starts, the next one of its queue is tested (Tested). A command takes its whole effect when it starts (Log 34); a
row is one access (Log 88). -/
def Obligations.LoadAndStoreCommands : Prop :=  ∀ (s : State) (t : Fin 256) (e : Engine) (d : BitVec 128) (rest : List (BitVec 128)),
    let len := bitsOf d 82 16 + 1
    let sp (u : State) (a n : Nat) : List Byte := u.spBytes t a n
    let alone (u : State) : Prop := u = { s with tiles := u.tiles }
    (s.Head t e 0 d rest → Goes (.engineNop t e) s (Tested t e fun u => s.Popped u t e d rest true ∧ (u.engine t e).ar = (s.engine t e).ar ∧
      (u.engine t e).sr = (s.engine t e).sr ∧ (u.tile t).sp = (s.tile t).sp ∧ (u.tile t).matrix = (s.tile t).matrix ∧
      (u.tile t).vector = (s.tile t).vector ∧ alone u)) ∧
    (∀ c, (c, e) ∈ [(Instr.ldSetar t, Engine.load), (.stSetar t, .store)] → s.Head t e 1 d rest → Goes c s (Tested t e fun u =>
      s.Popped u t e d rest true ∧ (u.engine t e).ar = AMap.put (s.engine t e).ar (bitsOf d 32 3) (BitVec.ofNat 64 (bitsOf d 64 64)) ∧
        (u.engine t e).sr = (s.engine t e).sr ∧ (u.tile t).sp = (s.tile t).sp ∧ alone u)) ∧
    (∀ c, (c, e) ∈ [(Instr.ldSetsr t, Engine.load), (.stSetsr t, .store)] → s.Head t e 2 d rest → Goes c s (Tested t e fun u =>
      s.Popped u t e d rest true ∧ (u.engine t e).sr = AMap.put (s.engine t e).sr (bitsOf d 32 3) (BitVec.ofNat 64 (bitsOf d 64 64)) ∧
        (u.engine t e).ar = (s.engine t e).ar ∧ (u.tile t).sp = (s.tile t).sp ∧ alone u)) ∧
    (s.Head t .load 4 d rest → Goes (.ldZero t) s (Tested t .load fun u => s.Popped u t .load d rest true ∧ alone u ∧
      ∀ a, sp u a 1 = if ∃ r ∈ cmdRows d, r.1 ≤ a ∧ a < r.1 + r.2 then [0] else sp s a 1)) ∧
    (∀ ps bs a w, s.Head t .load 3 d rest → bitsOf d 98 12 = 0 → cmdRows d = [(a, len)] → List.length bs = len → s.spBadIn t [(a, len)] = [] →
      s.spanPieces (s.tileWho t (.fill t)) false [(State.rowAddress (s.engine t .load) d 0, len)] = (some [some ps], s) →
      (∀ p ∈ ps, ∃ b n, p = .mem b n) → s.resumeDone (.fill t) = s →
      s.readPieces 1 (s.tileWho t (.fill t)) ps = (bs.map some, {}, w) → w.tiles = s.tiles →
      Goes (.ld2d t) s (Tested t .load fun u => s.Popped u t .load d rest true ∧ u = { w with tiles := u.tiles } ∧ sp u a len = bs ∧
        ∀ b, b < a ∨ a + len ≤ b → sp u b 1 = sp s b 1)) ∧
    (∀ ps a v, s.Head t .store 3 d rest → bitsOf d 98 12 = 0 → cmdRows d = [(a, len)] → s.spBadIn t [(a, len)] = [] →
      s.spanPieces (s.tileWho t (.store t)) true [(State.rowAddress (s.engine t .store) d 0, len)] = (some [some ps], s) →
      s.resumeDone (.store t) = s →
      s.writePieces (s.tileWho t (.store t)) ps ((sp s a len).map some) = ({}, v) → v.tiles = s.tiles →
      Goes (.st2d t) s (Tested t .store fun u => s.Popped u t .store d rest true ∧ (u.tile t).sp = (s.tile t).sp ∧ u = { v with tiles := u.tiles })) ∧
    (∀ more, (s.engine t e).started = (d, true) :: more → (e = .store → s.storesDone t = true) → (s.tile t).mode ≠ .absent →
      (s.tile t).core.wait = .none → s.counterOf t (bitsOf d 16 5) < 2 ^ 32 - 1 →
      Goes (.commandComplete t e) s fun u => (u.engine t e).started = more ∧ (u.engine t e).queue = (s.engine t e).queue ∧
        (∀ e', e' ≠ e → u.engine t e' = s.engine t e') ∧
        (∀ c, u.counterOf t c = s.counterOf t c + if d.getLsbD 21 ∧ c = bitsOf d 16 5 then 1 else 0) ∧
        (u.tile t).sp = (s.tile t).sp ∧ (∀ m, m ≠ t.val → u.tile m = s.tile m) ∧ alone u)

/-- The commands of the matrix engine, no scratchpad word uncorrectable: settings; a product of the paths of one bank, element by
element, its first operand from the scratchpad or the in-tray; a sliced FP64 product, rounded where it is DONE; exponents; and
the passing of the oldest closed bank, or of two for FP64, to the out-tray. As a command starts, the next one of its queue is
tested (Tested). A command takes its whole effect when it starts (Log 34). -/
def Obligations.MatrixCommands : Prop :=  ∀ (s : State) (t : Fin 256) (d : BitVec 128) (rest : List (BitVec 128)), (s.tile t).spBad = [] →
    let m := (s.tile t).matrix
    let kc := (modeKc m).getD 128
    let y := s.operandAt t m (bitsOf m.mode 86 5) kc (bitsOf d 92 18) 96 (bitsOf d 46 23) 64
    let b := bitsOf d 44 2
    let run (c : Instr) (p : State → Prop) : Prop := Goes c s (Tested t .matrix fun u => s.Popped u t .matrix d rest true ∧
      (u.tile t).sp = (s.tile t).sp ∧ (u.tile t).vector = (s.tile t).vector ∧ u = { s with tiles := u.tiles } ∧ p u)
    let entry (bank : Nat) : TrayEntry := { bank := bank, ty := wordTy m, tag := bitsOf d 24 8 }
    (s.Head t .matrix 1 d rest → matrixHeld m d = false → run (.mxSetm t) fun u => (u.tile t).matrix = { m with
        mode := d, modeValid := true, steps := if d.getLsbD 76 then 0 else m.steps
        gens := if d.getLsbD 76 then (List.range 128).map (fun c => s.openLane t 0 c (bitsOf d 96 32)) else m.gens }) ∧
    (s.Head t .matrix 2 d rest → run (.mxSetp t) fun u => (u.tile t).matrix = { m with pitch := d, pitchValid := true }) ∧
    (∀ x : Operand, s.Head t .matrix 3 d rest → matrixHeld m d = false → modeSliced m = false → m.banks.length = 4 →
      (if d.getLsbD 41 then ∃ i ∈ m.inTray.find? (fun i => !i.used),
          x = { elems := i.elems, scales := if i.scales.isEmpty then List.replicate 128 [] else i.scales } ∧ i.elems.length = 128 ∧
            (i.scales = [] ∨ i.scales.length = 128)
        else x = s.operandAt t m (bitsOf m.mode 91 5) kc (bitsOf d 110 18) 112 (bitsOf d 69 23) 80) →
      run (.mxMma t) fun u => (bankOf (u.tile t).matrix b).st = (if d.getLsbD 42 then .closing else .accum) ∧
        (∀ r c, r < 128 → c < 128 → (bankOf (u.tile t).matrix b).words.getD (r * 128 + c) 0 =
          (cellRun (bitsOf m.mode 91 5) (bitsOf m.mode 86 5) (matrixMode m) (cellDraw m (matrixMode m) r c)
            (if d.getLsbD 43 then 0 else (bankOf m b).words.getD (r * 128 + c) 0) (x.elems.getD r []) (y.elems.getD c [])
            (x.scales.getD r []) (y.scales.getD c [])).1) ∧
        (∀ i, i ≠ b → bankOf (u.tile t).matrix i = bankOf m i) ∧
        (u.tile t).matrix.closing = (if d.getLsbD 42 then m.closing ++ [entry b] else m.closing)) ∧
    (s.Head t .matrix 3 d rest → matrixHeld m d = false → modeSliced m = true → ((s.tile t).mx.started.any fun c => cmdOp c.1 == 4) = false →
      let x := s.operandAt t m 0 kc (bitsOf d 110 18) 112 0 80
      let sums := slicedProduct m (if d.getLsbD 43 then [] else m.acc64) (if d.getLsbD 43 then [] else m.live64) x y
      let m1 : MatrixSt := { m with acc64 := sums.1, live64 := sums.2, special := specialProduct m (if d.getLsbD 43 then [] else m.special) x y }
      run (.mxMma t) fun u => (u.tile t).matrix =
        if d.getLsbD 42 then { m1 with
          acc64 := [], live64 := [], special := [], steps := m.steps + 1, closing := m.closing ++ [{ bank := 0, ty := .fp64, tag := bitsOf d 24 8 }]
          banks := { st := .close64, words := (slicedWords m1).1 } :: List.replicate 3 { st := .close64 } }
        else { m1 with banks := List.replicate 4 { st := .acc64 } }) ∧
    (s.Head t .matrix 4 d rest → matrixHeld m d = false →
      let a := (s.operandAt t m 0 128 (bitsOf d 110 18) 112 0 80).elems
      let c := (s.operandAt t m 0 128 (bitsOf d 92 18) 96 0 64).elems
      run (.mxExp t) fun u => (u.tile t).matrix.banks = m.banks ∧ ∀ i, i < 128 →
        (u.tile t).matrix.rows.getD i {} = Expo.take (if d.getLsbD 91 then {} else m.rows.getD i {}) (matrixMode m).ftz (a.getD i []) ∧
        (u.tile t).matrix.cols.getD i {} = Expo.take (if d.getLsbD 91 then {} else m.cols.getD i {}) (matrixMode m).ftz (c.getD i [])) ∧
    (∀ e more, m.closing = e :: more → e.bank < m.banks.length →
      let passes (i : Nat) : Bool := if e.ty = .fp64 then i < 2 else i = e.bank
      Goes (.outTrayEntry t) s fun u => (u.tile t).matrix.closing = more ∧ (u.tile t).matrix.tray = m.tray ++ [e] ∧
        (∀ i, i < m.banks.length → bankOf (u.tile t).matrix i =
          if passes i then { bankOf m i with st := .tray } else if e.ty = .fp64 then {} else bankOf m i) ∧
        (∀ n, n ≠ t.val → u.tile n = s.tile n) ∧ u = { s with tiles := u.tiles })

/-- The commands of the vector engine, no scratchpad word uncorrectable: a program and a stream setting are kept; a run makes its
rows, keeps its summaries, generators and column accumulators, and writes its output to the scratchpad or reserves an in-tray
slot with it; its end pushes the summaries in order and fills the slot. As a command starts, the next one of its queue is tested
(Tested). A command takes its whole effect when it starts (Log 34). -/
def Obligations.VectorCommands : Prop :=  ∀ (s : State) (t : Fin 256) (d : BitVec 128) (rest : List (BitVec 128)), (s.tile t).spBad = [] →
    let v := (s.tile t).vector
    let run (c : Instr) (done : Bool) (p : State → Prop) : Prop := Goes c s (Tested t .vector fun u => s.Popped u t .vector d rest done ∧
      u = { s with tiles := u.tiles } ∧ p u)
    (s.Head t .vector 1 d rest → (v.runs.any fun r => r.slot == bitsOf d 107 3) = false → run (.veLoadp t) true fun u =>
      (u.tile t).matrix = (s.tile t).matrix ∧ (u.tile t).sp = (s.tile t).sp ∧
        (let word (i : Nat) : W64 := BitVec.ofNat 64 (leNat (s.spBytes t (32 * bitsOf d 110 18 + 8 * i) 8))
         let p := (List.range (bitsOf d 101 6 + 1)).map word
         (u.tile t).vector = { v with programs := AMap.put v.programs (bitsOf d 107 3) p })) ∧
    (s.Head t .vector 2 d rest → run (.veSetin t) true fun u => (u.tile t).matrix = (s.tile t).matrix ∧ (u.tile t).sp = (s.tile t).sp ∧
      (u.tile t).vector = { v with streams := AMap.put v.streams (bitsOf d 86 3) d }) ∧
    (s.Head t .vector 3 d rest → runHeld (s.tile t) d = false → (d.getLsbD 57 = true → bitsOf d 61 3 ≠ 0) →
      let p := AMap.getD v.programs (bitsOf d 125 3) []
      let a : AMode := { rnd := bitsOf d 107 3, ftz := d.getLsbD 102, srbits := bitsOf d 97 5 }
      let o : AMode := { rnd := bitsOf d 104 3, sat := d.getLsbD 103, ftz := d.getLsbD 102, srbits := bitsOf d 97 5 }
      let gens := if d.getLsbD 96 then (List.range 128).map fun l => s.openLane t 1 l (bitsOf d 64 32)
        else (List.range 128).map fun l => v.gens.getD l 0
      let start : RunOut := { row := { gens := gens }, cols := if d.getLsbD 58 then v.cols else List.replicate 128 (colStart (bitsOf d 61 3)) }
      let x := (List.range (bitsOf d 113 12 + 1)).foldl
        (s.runRow t d p a o (if d.getLsbD 112 then (s.tile t).matrix.tray.head? else none)) start
      let out := if d.getLsbD 111 then s else s.putRows t x.out
      let all := if d.getLsbD 57 then out.spPut t (32 * bitsOf d 35 18) ((x.cols.flatMap fun w => leBytes 4 w).map some) else out
      let m := ((if d.getLsbD 112 && d.getLsbD 110 then s.releaseHead t else s).tile t).matrix
      run (.veRun t) false fun u => (u.tile t).sp = (all.tile t).sp ∧
        (u.tile t).matrix = (if d.getLsbD 111 then { m with inTray := m.inTray ++ [s.traySlot t (bitsOf d 32 3) x.out] } else m) ∧
        (u.tile t).vector = { v with
          gens := x.row.gens, colOp := bitsOf d 61 3, cols := if bitsOf d 61 3 = 0 then [] else x.cols
          runs := v.runs ++ [{ tag := bitsOf d 24 8, slot := bitsOf d 125 3, summaries := runSummaries p x.row.sums (bitsOf d 24 8)
                               toTray := d.getLsbD 111 }] }) ∧
    (∀ r more, v.runs = r :: more → (s.tile t).core.wait = .none →
      Goes (.veRunEnd t) s fun u => (u.tile t).fifo = (s.tile t).fifo ++ r.summaries ∧ (u.tile t).vector = { v with runs := more } ∧
        (r.toTray = false → (u.tile t).matrix = (s.tile t).matrix) ∧
        (∀ i more', r.toTray = true → (s.tile t).matrix.inTray = i :: more' → i.full = false →
          (u.tile t).matrix.inTray = { i with full := true } :: more') ∧
        (∀ c more', (s.engine t .vector).started = (c, false) :: more' → (u.engine t .vector).started = (c, true) :: more') ∧
        (u.tile t).tokens = (s.tile t).tokens ∧ (u.tile t).sp = (s.tile t).sp ∧ (∀ m, m ≠ t.val → u.tile m = s.tile m) ∧
        u = { s with tiles := u.tiles })

/-- A command of a GEMM, GGEMM or CHAIN, made while no ledger post is due and no program was found invalid, runs the next work unit
of the tile's share, as `runUnit` does: the part then goes on to its next unit, or, after its last one and with no ledger, ends:
the tile's flushed flags enter the descriptor's, and the scratchpad is undefined. A unit whose ranges wait is made again by the
next command. A part with no unit ends as it starts. One command runs one unit, reads before writes (Log 36); the scratchpad of
a job is undefined after it (Log 69). -/
def Obligations.JobUnits : Prop :=  ∀ (s : State) (t : Fin 256) (op : Nat) (c : Instr), (c, op) ∈ [(Instr.gemm t, 0x12), (.ggemm t, 0x13), (.chain t, 0x14)] →
    let ended (f : Flight) (fl : Nat) : Flight := { f with
      flushed := f.flushed ||| fl, parts := f.parts.map fun p => if p.tile = t.val then { p with st := .ended } else p }
    let finished (v u : State) (g : Flight) (fl : Nat) : Prop :=
      (u.tile t).active = false ∧ (u.tile t).slots = (v.tile t).slots.drop 1 ∧ (u.tile t).chain = {} ∧ (u.tile t).sp = [] ∧
        (u.tile t).spLost = some (v.ident.losses + 1) ∧ u.flight? g.queue g.seq = some (ended g fl) ∧
        (∀ m, m ≠ t.val → u.tile m = v.tile m) ∧
        u = { v with tiles := u.tiles, ident := { v.ident with losses := v.ident.losses + 1 },
                     sorter := { v.sorter with flights := u.sorter.flights } }
    (∀ f v, s.running t = some f → opOf f.desc = op → (s.tile t).mode = .normal → f.badProg = false → s.ledgerDue f t = false →
      (s.tile t).chain.next < (s.shareOf f t).2 → (s.runUnit t f ((s.shareOf f t).1 + (s.tile t).chain.next)).2 = v →
      let done := (s.runUnit t f ((s.shareOf f t).1 + (s.tile t).chain.next)).1
      let next := (v.tile t).chain.next + 1
      (done = false → exec c s = .next v) ∧
      (∀ g, done = true → v.running t = some g → g.queue = f.queue → g.seq = f.seq → opOf g.desc = op → g.badProg = false →
        (v.tile t).mode = .normal →
        (next < (v.shareOf g t).2 → Goes c s fun u =>
          u.tile t = { v.tile t with chain := { (v.tile t).chain with next := next } } ∧ (∀ m, m ≠ t.val → u.tile m = v.tile m) ∧
            u = { v with tiles := u.tiles }) ∧
        ((v.shareOf g t).2 ≤ next → ledgerMode g.job = 0 → (v.tile t).clears = [] → Goes c s fun u => finished v u g (v.tile t).flags))) ∧
    (∀ f, s.partHead t op = some f → f.abort ≠ 0x20 → (s.shareOf f t).2 = 0 → f.badProg = false → ledgerMode f.job = 0 →
      (s.tile t).clears = [] → Goes c s fun u => finished s u f 0)

/-- A home fold that is due: whose ranges lie in memory: with every record read it leaves the strip's entries, made by
`ledgerEntries` from the partials and finish programs read, in the flight, and the bytes of each row's R0 and R1 written at the
ledger's address of the row; where a byte was not read, or a record is lost, the strip's ledger cannot complete (`none`), and
nothing is written. A closing pass that is due, whose ranges lie in memory, runs the stages after SPLIT on the held tile and
writes their output, or, without a ledger, gives the held tile up; a strip whose home has been reset gets no ledger. The partial
values of strips are kept with the descriptor (Log 68). -/
def Obligations.LedgerFoldsAndClosing : Prop :=  ∀ (s : State) (t : Fin 256) (f : Flight) (c : Chain) (o : OutTile) (strip : Nat),
    s.running t = some f → (s.tile t).mode = .normal → f.job.epilogue = some c →
    let j := f.job
    let os := stripTiles j strip
    let rd := s.tileWho t (.fill t)
    let wr := s.tileWho t (.store t)
    let memory (ps : List (Option (List Piece))) : Bool := ps.all fun p => p.any fun l => l.all fun x => match x with | .mem _ _ => true | _ => false
    let ready (reads writes : List (Nat × Nat)) (ps ws : List (Option (List Piece))) : Prop :=
      s.spanPieces rd false reads = (some ps, s) ∧ s.spanPieces wr true writes = (some ws, s) ∧ memory ps = true ∧ memory ws = true
    let got (reads : List (List (Nat × Nat))) (ps : List (Option (List Piece))) : ReadSet × State :=
      s.readGroups rd (State.regroup (reads.map List.length) (ps.zip (reads.flatten.map (·.2))))
    let strips (u : State) (v : Option (List Nat)) : Prop :=
      ∃ g, u.flight? f.queue f.seq = some g ∧ AMap.get? g.strips strip = some v
    (∀ ps ws, s.foldDue f t strip = true → State.recordsLost f strip = false → os.getLast? = some o →
      ready (State.foldReads c os).flatten (State.entrySpans c o) ps ws →
      let r := got (State.foldReads c os) ps
      let e := State.ledgerEntries c (r.2.get Reg.TRL_UCREV.UCREV) r.1
      let es := (List.range 128).flatMap fun m => [e.1.getD m 0, e.2.1.getD m 0]
      let w := ((r.2.setFlushed t 1 e.2.2).postLedger f strip (some es)).writeRanges wr (ws.zip ((State.entrySpans c o).map (·.2)))
        ((List.range o.rows).map fun m => leBytes 4 (e.1.getD m 0) ++ leBytes 4 (e.2.1.getD m 0))
      (r.1.missing = false → Goes (.ledgerHomeFold t strip) s fun u => strips u (some es) ∧ u.mem = w.mem) ∧
      (r.1.missing = true → Goes (.ledgerHomeFold t strip) s fun u => strips u none ∧ u.mem = r.2.mem)) ∧
    (s.foldDue f t strip = true → State.recordsLost f strip = true → os ≠ [] → Goes (.ledgerHomeFold t strip) s fun u =>
      strips u none ∧ u.mem = s.mem ∧ ∀ m, m ≠ t.val → u.tile m = s.tile m) ∧
    (∀ es rows ps ws, s.closeDue f t strip = true → AMap.get? f.strips strip = some (some es) →
      os.find? (fun x => (AMap.get? (s.tile t).chain.held x.num).isSome) = some o → AMap.get? (s.tile t).chain.held o.num = some rows →
      ready (State.closeReads c o).flatten (outSpans j o) ps ws →
      let r := got (State.closeReads c o) ps
      let z := r.2.addLoss f.queue f.seq r.1.loss
      let ss := State.closeStages c o es r.1.groups
      let out := stagesRun (z.get Reg.TRL_UCREV.UCREV) o.num (z.vectorLanes t) o.lims
        { fmt := State.heldFmt c, rows := rows, gens := z.lanesOf t } ss
      let w := ((z.setFlushed t 1 out.flushed).keepLanes t out.gens).writeRanges wr (ws.zip ((outSpans j o).map (·.2))) (outBytes j o out.rows)
      stagesBad (State.heldFmt c) ss = false →
      Goes (.closingPass t strip) s fun u => AMap.get? (u.tile t).chain.held o.num = none ∧ u.mem = w.mem) ∧
    (s.closeDue f t strip = true → AMap.get? f.strips strip = some none →
      os.find? (fun x => (AMap.get? (s.tile t).chain.held x.num).isSome) = some o →
      Goes (.closingPass t strip) s fun u => AMap.get? (u.tile t).chain.held o.num = none ∧ u.mem = s.mem ∧
        ∀ m, m ≠ t.val → u.tile m = s.tile m) ∧
    (s.closeDue f t strip = true → AMap.get? f.strips strip = none → Goes (.closingPass t strip) s fun u =>
      strips u none ∧ u.mem = s.mem ∧ ∀ m, m ≠ t.val → u.tile m = s.tile m)

/-- One step of a parcel move, a COPY or a FILL whose ranges lie in memory: the source bytes are read and written at the
destination, and the mover advances; its last step leaves it done. A step of a TRIM over one mapped granule unmaps it, to read
as zero, and journals that. A move that is done frees its mover and completes its descriptor; nothing happens before. A step of
a move acts on memory as one whole (Log 22); the last bits of an image are zeros (Log 55). -/
def Obligations.ParcelMoves : Prop :=
  (∀ (s : State) (m : Fin 32) (x : Mover),
    let d := x.desc
    let who := s.moverWho m x
    let memory (ps : List (List Piece)) : Prop := ∀ p ∈ ps.flatten, ∃ a n, p = .mem a n
    let step (c : Instr) (srcs : List SrcRun) (dsts : List DstRun) (image : Nat) : Prop :=
      ∀ ps qs, memory ps → memory qs →
        s.rangePieces who false (opOf d == 0x30) (srcs.filterMap fun r => match r with | .seg a n _ => some (a, n) | .given _ => none) = .ready ps s →
        s.rangePieces who true (opOf d == 0x30) (dsts.map fun e => (e.addr, e.n)) = .ready qs s →
        (opOf d = 0x30 → s.rateFull who.ctx (ps.flatten ++ qs.flatten) = false) →
        let r := if opOf d = 0x30 then s.rateTake who.ctx (ps.flatten ++ qs.flatten) else s
        let i := r.runBytes who x srcs ps
        let o := i.2.2.destRuns who m i.1 dsts qs
        let lost := sumNat (dsts.map fun e => (((i.1.drop e.off).take e.n).filter Option.isNone).length)
        let v := (o.2.addLoss x.queue x.seq { dropped := lost + o.1.dropped, errs := i.2.1.errs + o.1.errs }).resumeDone (.mover m)
        Goes c s fun u => u = { v with movers := u.movers } ∧ (∀ n, n ≠ m.val → u.mover? n = v.mover? n) ∧
          ∀ z, v.mover? m = some z → u.mover? m = some { z with
            buf := [], want := [], image := z.image + image
            done := z.done || (z.out.isEmpty && decide (moveBytes z.desc ≤ z.pos)) }
    (s.moving m 0x30 0 = some x →
      step (.linear m) [.seg (body d 0 8 + x.pos) 65536 8] [{ addr := body d 8 8 + x.pos, off := 0, n := 65536 }] 0) ∧
    (s.moving m 0x30 1 = some x →
      let p := layoutOf d
      let srcs := (p.runs (imageOf d) 65536 x.pos 65536).map fun r => match r with
        | .zero n => SrcRun.given (List.replicate n 0)
        | .elems n l off => .seg (body d 0 8 + l * p.ldx + off) n (p.runBits off n)
        | .scales n l off => .seg (body d 16 8 + l * p.scaleBytes + off) n 8
      step (.pack m) srcs [{ addr := body d 8 8 + x.pos, off := 0, n := 65536 }] 0) ∧
    (s.moving m 0x30 2 = some x →
      let p := layoutOf d
      let n := min 65536 (imageOf d - x.image)
      step (.unpack m) [.seg (body d 0 8 + x.image) n 8] (State.unpackRuns d p 0 (p.runs (imageOf d) n x.image n)) n) ∧
    (s.moving m 0x40 0 = some x → x.pos + 65536 ≤ body d 16 8 → s.checkedPrefix (ctxidOf d) (body d 0 8 + x.pos) false 18 65536 = 65536 →
      s.checkedPrefix (ctxidOf d) (body d 8 8 + x.pos) true 18 65536 = 65536 →
      step (.copy m) [.seg (body d 0 8 + x.pos) 65536 8] [{ addr := body d 8 8 + x.pos, off := 0, n := 65536 }] 0) ∧
    (s.moving m 0x41 0 = some x →
      let n := s.checkedPrefix (ctxidOf d) (body d 0 8 + x.pos) true 18 (min 65536 (body d 8 8 - x.pos))
      n ≠ 0 → step (.fill m) [.given ((List.range n).map fun i => BitVec.ofNat 8 (body d 16 8 / 2 ^ (8 * ((x.pos + i) % 8))))]
        [{ addr := body d 0 8 + x.pos, off := 0, n := n }] 0) ∧
    (∀ a g, s.moving m 0x30 3 = some x → s.rangePieces who true true [(body d 8 8 + x.pos, 65536)] = .ready [[.flash a 65536]] s →
      s.flag Reg.FL_STAT.READY = true → flashSpans a 65536 = [(g, 0, 65536)] →
      s.ownCheck who.ctx ((flashBase + g * 65536) / 2 ^ 21) true = true → (s.flash.map.any fun e => e.1 == g) = true →
      Goes (.trim m) s fun u => u.flash.map = AMap.erase s.flash.map g ∧ u.flash.journal = s.flash.journal + 1 ∧ u.flash.clean = false ∧
        (∀ b, b < 65536 → u.memGet (flashBase + g * 65536 + b) = 0) ∧
        u.mover? m = some { x with pos := x.pos + 65536, done := decide (moveBytes d ≤ x.pos + 65536) } ∧
        (∀ n, n ≠ m.val → u.mover? n = s.mover? n) ∧
        u = { s with movers := u.movers, flash := u.flash, mem := u.mem, ident := u.ident, devs := u.devs, xlat := u.xlat })) ∧
  (∀ (s : State) (m : Fin 32) (x : Mover) (f : Flight), s.mover? m = some x → s.flight? x.queue x.seq = some f →
    (x.done = true → s.order.out = [] → opOf x.desc ≠ 0x30 ∨ body x.desc 41 1 / 16 % 2 ≠ 1 →
      Goes (.moveComplete m) s fun u => u.mover? m = none ∧ (∀ n, n ≠ m.val → u.mover? n = s.mover? n) ∧ s.Left u x.queue x.seq ∧
        (∀ q, (u.pigeon q).slotWait = false) ∧
        u = { s with sorter := u.sorter, flds := u.flds, ec := u.ec, movers := u.movers, xlat := u.xlat }) ∧
    (x.done = false → exec (.moveComplete m) s = .next s))

/-- The flash tier. A granule that a move needs is read, each retry counted and 30 µs added to the tier's stall time, or, where it
is uncorrectable or its stripe is lost, is lost with an error counted; one that it writes is programmed on the next working
channel in rotation, joins the stripe that fills, and is journaled; a full tier aborts the move. The choice of blocks within a
channel is opaque (Log 40). -/
def Obligations.FlashGranules : Prop :=  ∀ (s : State) (m : Fin 32) (x : Mover), s.mover? m = some x → s.moverHeld m x = false → s.flag Reg.FL_STAT.READY = true →
    let others (u : State) : Prop := ∀ n, n ≠ m.val → u.mover? n = s.mover? n
    let readOn (u : State) (g : Nat) : Prop := -- the read counts at its block for read disturb
      let c := AMap.getD s.flash.map g 0
      let b := Config.flashBlock g (s.get Reg.FL_RELOC_CNT.COUNT)
      u.flash.map = s.flash.map ∧ u.channel c = { s.channel c with
        reads := AMap.put (s.channel c).reads b (AMap.getD (s.channel c).reads b 0 + 1) } ∧ ∀ c', c' ≠ c → u.channel c' = s.channel c'
    (∀ g rest o k, x.want = g :: rest → s.stripeLost g = false →
      (∃ n : Fin 4, o = FlashOutcome.decoded n ∧ k = n.val) ∨ o = FlashOutcome.rebuilt ∧ k = 3 →
      let r := if s.get (Reg.FL_CHSTAT.STATE (AMap.getD s.flash.map g 0)) = 2 then 0 else k
      Goes (.flashGranuleRead m o) s fun u =>
        u.mover? m = some { x with want := rest, wantAt := s.now, buf := x.buf ++ [(g, some (s.memBytes (flashBase + g * 65536) 65536))] } ∧
        others u ∧ readOn u g ∧
        u.get Reg.FL_CORR_CNT.COUNT = min (2 ^ 48 - 1) (s.get Reg.FL_CORR_CNT.COUNT + r) ∧
        u.get (Reg.PM_STALL_CNT.COUNT 18) = min (2 ^ 48 - 1) (s.get (Reg.PM_STALL_CNT.COUNT 18) + 30 * r) ∧
        u = { s with movers := u.movers, flds := u.flds, flash := u.flash } ∧
        s.FieldsBut u [Reg.FL_CORR_CNT.COUNT, Reg.PM_STALL_CNT.COUNT 18]) ∧
    (∀ g rest o, x.want = g :: rest → o = FlashOutcome.uncorrectable ∨ s.stripeLost g = true → s.power.sleep = .run →
      Goes (.flashGranuleRead m o) s fun u =>
        u.mover? m = some { x with want := rest, wantAt := s.now, buf := x.buf ++ [(g, none)] } ∧ others u ∧ readOn u g ∧
        u.get Reg.FL_UNC_CNT.COUNT = min (2 ^ 48 - 1) (s.get Reg.FL_UNC_CNT.COUNT + 1) ∧ (u.source 65).pend = true ∧
        ∀ f, s.flight? x.queue x.seq = some f → u.flight? x.queue x.seq = some { f with errcnt := f.errcnt + 1 }) ∧
    (∀ g n bs rest, x.out = (g, n, bs) :: rest → s.working ≠ [] → (s.channel (s.rotate s.flash.next)).reclaim = false →
      s.readWaits (s.rotate s.flash.next) = false →
      s.ownCheck (ctxidOf x.desc) ((flashBase + g * 65536) / 2 ^ 21) true = true →
      (s.flash.map.any fun e => e.1 == g) = true ∨ s.flash.map.length < 56 * 2 ^ 24 ∧ s.capFull g = false →
      let c := s.rotate s.flash.next
      Goes (.flashGranuleWrite m) s fun u =>
        u.mover? m = some { x with
          out := rest, pos := x.pos + n, done := x.done || (rest.isEmpty && decide (moveBytes x.desc ≤ x.pos + n)) } ∧ others u ∧
        u.flash.map = AMap.put s.flash.map g c ∧ u.flash.next = (c + 1) % 32 ∧ (u.channel c).programs = (s.channel c).programs + 1 ∧
        AMap.get? u.flash.stripe g = some s.flash.filling ∧
        u.flash.journal = s.flash.journal + 1 ∧ u.flash.clean = false ∧
        u.mem = (bs.zipIdx.foldl (fun (s : State) p => match p.1 with
          | some b => s.memPut (flashBase + g * 65536 + p.2) b
          | none => s) s).mem) ∧
    (∀ g n bs rest, x.out = (g, n, bs) :: rest → s.working ≠ [] → (s.channel (s.rotate s.flash.next)).reclaim = false →
      s.readWaits (s.rotate s.flash.next) = false →
      s.ownCheck (ctxidOf x.desc) ((flashBase + g * 65536) / 2 ^ 21) true = true → (s.flash.map.any fun e => e.1 == g) = false →
      56 * 2 ^ 24 ≤ s.flash.map.length →
      Goes (.flashGranuleWrite m) s fun u => u.flag Reg.FL_STAT.FULL = true ∧ u.flash = s.flash ∧ u.mem = s.mem ∧
        ∃ y, u.mover? m = some y ∧ y.done = true ∧ y.out = [])

/-- The flash tier's upkeep, on a channel that no waiting parcel read or write needs: reclaim and relocation of blocks, each an
erasure of its block; failed channels and the rewriting of their granules on working ones; checkpoints, which read the map; and
the end of the map's restore. Erased blocks after a restore and the life in percent are opaque (Log 40); when a restore may end
is Log 62. -/
def Obligations.FlashUpkeep : Prop :=  ∀ (s : State) (ch : Fin 32),
    let others (u : State) : Prop := ∀ n, n ≠ ch.val → u.channel n = s.channel n
    let life (u : State) : Prop := u.get Reg.FL_LIFE.PCT = min 255 (Config.flashLife u.flash.erases)
    (∀ bs, s.background ch = true → let e := (s.channel ch).erased + bs.length
      Goes (.flashReclaim ch bs) s fun u => (u.channel ch).erased = e ∧
        (u.channel ch).reclaim = (if 2 * s.get Reg.FL_CTL.RECLAIM ≤ e then false
          else (s.channel ch).reclaim || decide (e < s.get Reg.FL_CTL.RECLAIM)) ∧
        (u.channel ch).reads = bs.foldl (fun m b => AMap.erase m b) (s.channel ch).reads ∧
        (u.channel ch).wear = bs.foldl (fun m b => AMap.put m b (AMap.getD m b 0 + 1)) (s.channel ch).wear ∧
        u.flash.erases = s.flash.erases + bs.length ∧ life u ∧ others u ∧ u.flash.map = s.flash.map ∧
        u = { s with flash := u.flash, flds := u.flds } ∧ s.FieldsBut u [Reg.FL_LIFE.PCT]) ∧
    (∀ block c, s.background ch = true →
        (c = Instr.readDisturbRelocation ch block ∧ s.get Reg.FL_CTL.RDTHR * 1000 ≤ AMap.getD (s.channel ch).reads block 0) ∨
        c = .wearLevelling ch block →
      Goes c s fun u => u.channel ch = { s.channel ch with
          reads := AMap.erase (s.channel ch).reads block, wear := AMap.put (s.channel ch).wear block (AMap.getD (s.channel ch).wear block 0 + 1) } ∧
        u.get Reg.FL_RELOC_CNT.COUNT = min (2 ^ 48 - 1) (s.get Reg.FL_RELOC_CNT.COUNT + 1) ∧ u.flash.erases = s.flash.erases + 1 ∧ life u ∧
        others u ∧ u.flash.map = s.flash.map ∧ u = { s with flash := u.flash, flds := u.flds } ∧
        s.FieldsBut u [Reg.FL_RELOC_CNT.COUNT, Reg.FL_LIFE.PCT]) ∧
    (s.get (Reg.FL_CHSTAT.STATE ch) = 1 → s.power.sleep = .run →
      Goes (.flashChannelFailure ch) s fun u => u.get (Reg.FL_CHSTAT.STATE ch) = 2 ∧ u.flag Reg.FL_STAT.DEGRADED = true ∧
        (u.source 65).pend = true ∧ u = { s with flds := u.flds, ec := u.ec } ∧
        s.FieldsBut u [Reg.FL_CHSTAT.STATE ch, Reg.FL_STAT.DEGRADED]) ∧
    (s.get (Reg.FL_CHSTAT.STATE ch) = 2 → s.working ≠ [] →
      Goes (.channelRewritten ch) s fun u => u.get (Reg.FL_CHSTAT.STATE ch) = 3 ∧
        (∀ g, (g, ch.val) ∈ s.flash.map → ∃ c, AMap.get? u.flash.map g = some c ∧ c ∈ s.working) ∧
        (∀ g c, AMap.get? s.flash.map g = some c → (s.flash.map.any fun e => e.1 == g && e.2 == ch.val) = false →
          AMap.get? u.flash.map g = some c) ∧
        u.flag Reg.FL_STAT.DEGRADED = (List.range 32).any (fun i => i != ch.val && s.get (Reg.FL_CHSTAT.STATE i) == 2) ∧
        u = { s with flash := u.flash, flds := u.flds, devs := u.devs } ∧ s.FieldsBut u [Reg.FL_CHSTAT.STATE ch, Reg.FL_STAT.DEGRADED]) ∧
    (s.flag Reg.FL_STAT.READY = true → Goes .mapCheckpoint s fun u =>
      u.flash = { s.flash with journal := 0, mapReads := s.flash.mapReads + 1 } ∧
        u.devs = (s.request 3 (Config.mapLine s.flash.mapReads) false).devs ∧ u = { s with flash := u.flash, devs := u.devs }) ∧
    (s.flag Reg.FL_STAT.READY = false → 3 ≤ s.get Reg.ST_STAT.STATE → s.get Reg.ST_STAT.STATE ≤ 5 →
      Goes .flashMapRestoreDone s fun u => u.flag Reg.FL_STAT.READY = true ∧
        (∀ c, c < 32 → u.get (Reg.FL_CHSTAT.STATE c) = (if s.get (Reg.FL_CHSTAT.STATE c) = 0 then 1 else s.get (Reg.FL_CHSTAT.STATE c)) ∧
          (u.channel c).erased = Config.flashErased c ∧
          (u.channel c).reclaim = decide (Config.flashErased c < s.get Reg.FL_CTL.RECLAIM)) ∧
        u.flash.map = s.flash.map ∧ u = { s with flash := u.flash, flds := u.flds })

/-- A pseudo-channel of a memory device serves the request that is due, and counts what the decoding of a line read reports; a
scrub's read lists the lines to be written back; a throttled device serves in one slot of four; a refresh and a training change
no contents; a scrub's write-back leaves as a write of class P3. `e` is the state in which the command's errors have come about.
Setting MEM_CTL.LOCK closes the configuration, assigns the granules that nobody owns to INITOWN, and extends slot 6 with the
locked fields; while it is 1 a write that would change T1EN sets CFGERR instead. What a channel of a MEM window is, and its
queues, is Log 53; an uncorrectable line stays so until it is written (Log 38); the order of the measured fields is Log 30. -/
def Obligations.MemoryChannelsAndLock : Prop :=
  (∀ (s : State) (d : Fin 24),
    let devs (u : State) : Prop := (∀ n, n ≠ d.val → u.dev n = s.dev n) ∧ u.mem = s.mem
    (∀ (p : Fin 64) es e, s.linesErr d es = e →
      (s.flag (Reg.MEM_DSTAT.THROT d) = false →
        (e.nextService d p = none → exec (.memoryRequestService d ⟨p, es⟩) s = .next e) ∧
        (∀ r, e.nextService d p = some r →
          let served : MemDev := { e.dev d with queue := (e.dev d).queue.erase r }
          let found := State.decodeErrors d r.errs
          ((r.write = true ∨ r.span = none ∧ found = (0, false)) → Goes (.memoryRequestService d ⟨p, es⟩) s fun u =>
            u.dev d = served ∧ devs u ∧ u = { s with devs := u.devs }) ∧
          (r.write = false → r.span = none → found.1 ≠ 0 → found.2 = false → s.get Reg.MEM_RAS.CETHR = 0 →
            Goes (.memoryRequestService d ⟨p, es⟩) s fun u => devs u ∧
              u.dev d = { served with corrected := if served.corrected.contains r.line then served.corrected else r.line :: served.corrected } ∧
              u.get (Reg.MEM_CORR_CNT.COUNT d) = min (2 ^ 48 - 1) (s.get (Reg.MEM_CORR_CNT.COUNT d) + found.1) ∧
              u = { s with devs := u.devs, flds := u.flds } ∧ s.FieldsBut u [Reg.MEM_CORR_CNT.COUNT d]) ∧
          (r.write = false → r.span = none → found.2 = true → Goes (.memoryRequestService d ⟨p, es⟩) s fun u => devs u ∧
            u.get (Reg.MEM_UNC_CNT.COUNT d) = min (2 ^ 48 - 1) (s.get (Reg.MEM_UNC_CNT.COUNT d) + 1) ∧
            ((List.range 256).any (fun e => s.get (Reg.MEM_RETIRE.STATE e) == 0) = true →
              u.retireState (r.line * 128 / 2 ^ 21 % 2 ^ (Reg.MEM_RETIRE.GRANULE 0).len) 1 = true ∨
                s.retireState (r.line * 128 / 2 ^ 21) 2 = true ∨ s.retireState (r.line * 128 / 2 ^ 21) 1 = true)) ∧
          (∀ o, r.write = false → r.span = some o → Goes (.memoryRequestService d ⟨p, es⟩) s fun u => devs u ∧
            (u.dev d).queue = served.queue ∧ ∀ x ∈ (e.dev d).errors, e.covers d r x.1 = true → (State.decodeErrors d x.2).1 ≠ 0 →
              (State.decodeErrors d x.2).2 = false → x.1 ∈ (u.dev d).scrub))) ∧
      (s.flag (Reg.MEM_DSTAT.THROT d) = true → AMap.getD (e.dev d).slots p.val 0 ≠ 0 → Goes (.memoryRequestService d ⟨p, es⟩) s fun u =>
        u.dev d = { e.dev d with slots := AMap.put (e.dev d).slots p.val ((AMap.getD (e.dev d).slots p.val 0 + 1) % 4) } ∧ devs u ∧
          u = { s with devs := u.devs })) ∧
    (s.flag (Reg.MEM_DSTAT.PRESENT d) = true → Goes (.refresh d) s fun u =>
      u.dev d = { s.dev d with refreshes := (s.dev d).refreshes + 1 } ∧ devs u ∧ u = { s with devs := u.devs }) ∧
    (∀ line : BitVec 45, line.toNat ∈ (s.dev d).scrub → (s.place (line.toNat * 128)).1 = d →
      Goes (.scrubWriteBack d line) s fun u => devs u ∧ line.toNat ∉ (u.dev d).scrub ∧ u = { s with devs := u.devs } ∧
        (u.dev d).queue = (s.dev d).queue ++
          [{ cls := 3, line := line.toNat, at_ := s.time.cycle, write := true, pch := State.pchOf d (s.place (line.toNat * 128)).2 }]) ∧
    (∀ ch : Fin 16, ch.val ∈ s.t1Channels → Goes (.gddr7TrainingDone ch) s fun u => u.flag (Reg.MEM_DSTAT.PRESENT (8 + ch.val)) = true ∧
      u = { s with flds := u.flds } ∧ s.FieldsBut u [Reg.MEM_DSTAT.PRESENT (8 + ch.val)])) ∧
  (∀ (s : State) (r : Requester) (v : W32), s.reaches r 0x50000 = (true, s) →
    (s.locked = false → v.getLsbD 0 = true → s.ident.g = false ∨ v.toNat / 2 ^ 16 = s.get Reg.MEM_CTL.T1EN →
      Goes (.memLockSet r v) s fun t => t.locked = true ∧ t.get Reg.MEM_CTL.T1EN = v.toNat / 2 ^ 16 ∧
        t.flag Reg.MEM_CTL.SCRUBEN = v.getLsbD 1 ∧ t.xlat = { s.xlat with initOwn := some (s.get Reg.TR_CTL.INITOWN) } ∧
        t.slotOf 6 = Config.sm3 (s.slotOf 6 ++ Config.sm3 t.lockedFields) ∧ (∀ n, n ≠ 6 → t.slotOf n = s.slotOf n) ∧
        t = { s with flds := t.flds, xlat := t.xlat, tarle := { s.tarle with slots := t.tarle.slots } } ∧
        s.FieldsBut t [Reg.MEM_CTL.T1EN, Reg.MEM_CTL.SCRUBEN, Reg.MEM_CTL.LOCK]) ∧
    (s.locked = true → v.toNat / 2 ^ 16 ≠ s.get Reg.MEM_CTL.T1EN → s.get Reg.MEM_CTL.LOCK = 1 →
      Goes (.memLockSet r v) s fun t => t.flag Reg.MEM_STAT.CFGERR = true ∧ t.flag Reg.MEM_CTL.SCRUBEN = v.getLsbD 1 ∧ t.locked = true ∧
        t = { s with flds := t.flds } ∧ s.FieldsBut t [Reg.MEM_STAT.CFGERR, Reg.MEM_CTL.SCRUBEN]))

/-- What a home does with a request that arrives for a line that it is not serving, of which no agent but the requester holds a
copy: a denial, the grant from its copy, the wait for a writer's data, or the end of a notice; a request for a line being served
waits. The dequeue of a waiting write-back makes the home serve it. Messages on their way stand in no order (Log 100). -/
def Obligations.HomeRequests : Prop :=  ∀ (s : State) (m : Msg), m ∈ s.coh.net → State.reservedAgent m.src.toNat = false → State.reservedAgent m.dst.toNat = false →
    s.routed (State.agentDie m.src.toNat) (State.agentDie m.dst.toNat) = true →
    let line := m.line.toNat
    let r := m.src.toNat
    let d := s.dirOf line
    let early := s.coh.early.any fun x => x.line == m.line -- no data for the line came before its request
    let reply (k : MsgKind) (st : LineSt) (l : Line) : Msg :=
      { kind := k, src := m.dst, dst := m.src, txn := m.txn, line := m.line, st := st, data := l }
    let nets (u : State) (ms : List Msg) : Prop := u.coh.net = s.coh.net.erase m ++ ms
    let frame (u : State) : Prop := u = { s with coh := u.coh, tiles := u.tiles, harts := u.harts, flds := u.flds } ∧
      ∀ n, n ≠ line → u.dirOf n = s.dirOf n ∧ u.serve? n = s.serve? n ∧ u.copy? n = s.copy? n
    s.coh.heldGranules = [] → m.dst.toNat = 0x28 + s.homeOf line → s.coherent (line * 128) = true → r ≤ 0x24 →
    s.retired (line * 128 / 2 ^ 21) = false →
    (∀ c, (c, m.kind) ∈ [(Instr.rds m, MsgKind.rdS), (.rdcur m, .rdCur), (.chk m, .chk)] →
      s.ownCheck m.ctx.toNat (line * 128 / 2 ^ 21) false = false → Goes c s fun u => nets u [reply .deny .i 0] ∧ frame u) ∧
    (∀ c, (c, m.kind) ∈ [(Instr.rdm m, MsgKind.rdM), (.upg m, .upg), (.wrfull m, .wrFull), (.wrpart m, .wrPart)] →
      s.ownCheck m.ctx.toNat (line * 128 / 2 ^ 21) true = false → Goes c s fun u => nets u [reply .deny .i 0] ∧ frame u) ∧
    (m.kind = .chk → s.ownCheck m.ctx.toNat (line * 128 / 2 ^ 21) false = true →
      Goes (.chk m) s fun u => nets u [reply .cmp .i 0] ∧ frame u ∧ u.dirOf line = d) ∧
    (s.ownCheck m.ctx.toNat (line * 128 / 2 ^ 21) true = true → s.ownCheck m.ctx.toNat (line * 128 / 2 ^ 21) false = true →
      (∀ c, (c, m.kind) ∈ [(Instr.rds m, MsgKind.rdS), (.rdm m, .rdM), (.upg m, .upg), (.rdcur m, .rdCur), (.wrfull m, .wrFull),
          (.wrpart m, .wrPart), (.wbm m, .wbM), (.wbo m, .wbO), (.eve m, .evE)] → (s.serve? line).isSome = true →
        Goes c s fun u => nets u [] ∧ frame u ∧ AMap.getD u.coh.waiting line [] = AMap.getD s.coh.waiting line [] ++ [m]) ∧
      (∀ l dirty, s.serve? line = none → AMap.getD s.coh.waiting line [] = [] → s.isLocal m = false → s.dirFull line = false →
        s.copy? line = some (l, dirty) → s.coh.badHome.contains line = false → early = false →
        (m.kind = .rdS → d = {} → Goes (.rds m) s fun u => nets u [reply .data .e l] ∧ frame u ∧ u.dirOf line = { owner := some r } ∧
          u.serve? line = some { req := m, answered := true }) ∧
        (m.kind = .rdM → d = {} → Goes (.rdm m) s fun u => nets u [reply .data .m l] ∧ frame u ∧ u.dirOf line = { owner := some r } ∧
          u.copy? line = none ∧ u.serve? line = some { req := m, answered := true }) ∧
        (m.kind = .upg → d = { sharers := [r] } → Goes (.upg m) s fun u => nets u [reply .gntM .i 0] ∧ frame u ∧
          u.dirOf line = { owner := some r } ∧ u.copy? line = none ∧ u.serve? line = some { req := m, answered := true }) ∧
        (m.kind = .rdCur → d.owner = none → Goes (.rdcur m) s fun u => nets u [reply .data .i l] ∧ frame u ∧ u.dirOf line = d ∧
          u.serve? line = none) ∧
        (∀ c, (c, m.kind) ∈ [(Instr.wrfull m, MsgKind.wrFull), (.wrpart m, .wrPart)] → d = {} →
          Goes c s fun u => nets u [] ∧ frame u ∧ u.dirOf line = d ∧ u.serve? line = some { req := m, needData := true }) ∧
        (∀ c, (c, m.kind) ∈ [(Instr.wbm m, MsgKind.wbM), (.wbo m, .wbO)] →
          Goes c s fun u => nets u [] ∧ frame u ∧ u.dirOf line = d ∧ u.serve? line = some { req := m, needData := true }) ∧
        (m.kind = .evE → d = { owner := some r } → Goes (.eve m) s fun u => nets u [reply .relAck .i 0] ∧ frame u ∧ u.dirOf line = {}))) ∧
    (∀ (home : Fin 5) (x : Msg), s.homeOf line = home → s.serve? line = none → AMap.getD s.coh.waiting line [] = [x] → x.kind = .wbM →
      x.line = m.line → early = false → Goes (.homeRequestDequeue home m.line) s fun u => AMap.getD u.coh.waiting line [] = [] ∧ u.coh.net = s.coh.net ∧
        u.serve? line = some { req := x, needData := true } ∧ u = { s with coh := u.coh })

/-- What a home does with the answers that it awaits: the directory follows a snooped agent's answer, a writer's bytes become home
data under their mask and the writer has its Cmp, a CompAck ends the request and returns the credit, and a PErr is counted.
Messages on their way stand in no order (Log 100). -/
def Obligations.HomeAnswers : Prop :=  ∀ (s : State) (m : Msg) (v : Serve), m ∈ s.coh.net → State.reservedAgent m.src.toNat = false → State.reservedAgent m.dst.toNat = false →
    s.routed (State.agentDie m.src.toNat) (State.agentDie m.dst.toNat) = true →
    let line := m.line.toNat
    let x := m.src.toNat
    let d := s.dirOf line
    let reply (k : MsgKind) : Msg := { kind := k, src := v.req.dst, dst := v.req.src, txn := v.req.txn, line := v.req.line }
    let frame (u : State) : Prop := u.mem = s.mem ∧ u = { s with coh := u.coh, tiles := u.tiles, harts := u.harts, flds := u.flds, ec := u.ec }
    (m.kind = .snpRsp → s.serve? line = some v → v.rsp = [x] → v.wb = [] → v.needData = false → v.answered = true → v.acked = false →
      v.req.kind = .rdM → m.st = .i → m.wb = false → m.xb = false → m.unc = false → m.fwd ≠ v.req.src →
      Goes (.snprsp m) s fun u => u.coh.net = s.coh.net.erase m ∧ u.serve? line = some { v with rsp := [] } ∧ frame u ∧
        (u.dirOf line).owner = (if d.owner = some x then none else d.owner) ∧ (u.dirOf line).sharers = d.sharers.filter (· != x)) ∧
    (∀ l dirty, m.kind = .wbData → s.serve? line = some v → v.req.line = m.line → v.rsp = [] → v.wb = [] → v.needData = true →
      v.answered = false → x = v.req.src.toNat → m.txn = v.req.txn → v.req.kind = .wrFull ∨ v.req.kind = .wrPart → m.unc = false →
      s.isLocal v.req = false → s.homeOf line ≠ 4 → s.copy? line = some (l, dirty) → s.coh.badHome.contains line = false →
      (s.coh.early.any fun x => x.line == m.line) = false →
      Goes (.wbdata m) s fun u => u.copy? line = some (lineMerge l m.data m.mask, true) ∧ u.serve? line = none ∧ u.dirOf line = {} ∧
        reply .cmp ∈ u.coh.net) ∧
    (m.kind = .compAck → s.serve? line = some v → v.req.src = m.src → v.req.txn = m.txn → v.rsp = [] → v.wb = [] → v.needData = false →
      v.answered = true → s.isLocal v.req = false →
      Goes (.compack m) s fun u => u.coh.net = s.coh.net.erase m ++ [reply .crdRet] ∧ u.serve? line = none ∧ frame u ∧ u.dirOf line = d) ∧
    (m.kind = .pErr → Goes (.perr m) s fun u => u.coh.net = s.coh.net.erase m ∧ frame u ∧ 67 ∈ u.ec.signals ∧
      u.flag Reg.COH_STAT.PROTERR = true ∧ u.get (Reg.COH_PROTERR_CNT.COUNT (s.homeOf line)) =
        min (2 ^ 48 - 1) (s.get (Reg.COH_PROTERR_CNT.COUNT (s.homeOf line)) + 1))

/-- What a caching agent does with a snoop of a line that it holds: it forwards its bytes to the requester, or writes them back to
the home, and keeps the state that Table 11.6 gives. What a caching agent does with the answer to its request: data and grants
give the state and a CompAck, the end of a write-back drops the line, Cmp and Deny return the credit and settle a check or a
refusal, or answer the access that a unit makes, as Data does; CrdRet returns the credit. Messages on their way stand in no
order (Log 100). -/
def Obligations.CachingAgents : Prop :=
  (∀ (s : State) (m : Msg) (c : CLine), m ∈ s.coh.net → State.reservedAgent m.src.toNat = false → m.dst.toNat < 0x24 →
    s.routed (State.agentDie m.src.toNat) (State.agentDie m.dst.toNat) = true →
    let a := m.dst.toNat
    let line := m.line.toNat
    let rsp (st : LineSt) (wb : Bool) : Msg :=
      { kind := .snpRsp, src := m.dst, dst := m.src, txn := m.txn, ftxn := m.ftxn, line := m.line, st := st, wb := wb, fwd := m.fwd }
    let back : Msg := { kind := .wbData, src := m.dst, dst := m.src, txn := m.ftxn, line := m.line, data := c.data, mask := BitVec.allOnes 128 }
    let fwd (st : LineSt) : Msg :=
      { kind := .data, src := m.dst, dst := m.fwd, txn := m.ftxn, ftxn := m.ftxn, line := m.line, st := st, data := c.data }
    let toHome := m.fwd.toNat = 0x28 + s.homeOf line
    let goes (i : Instr) (out : List Msg) (st : Option CState) : Prop := Goes i s fun u => u.coh.net = s.coh.net.erase m ++ out ∧
      u.cline a line = st.map (fun k => { c with st := k }) ∧ (∀ b n, clineKey b n ≠ clineKey a line → u.cline b n = s.cline b n) ∧
      u = { s with coh := u.coh, tiles := u.tiles, harts := u.harts }
    s.cline a line = some c → c.bad = false →
    (m.kind = .snpS → (c.st = .m ∧ ¬toHome → goes (.snps m) [fwd .s, rsp .o false] (some .o)) ∧
      (c.st = .o ∧ ¬toHome → goes (.snps m) [fwd .s, rsp .o false] (some .o)) ∧
      (c.st = .e ∧ ¬toHome → goes (.snps m) [fwd .s, rsp .s false] (some .s)) ∧
      ((c.st = .m ∨ c.st = .o) ∧ toHome → goes (.snps m) [rsp .s true, back] (some .s)) ∧
      (c.st = .e ∧ toHome → goes (.snps m) [rsp .s false] (some .s))) ∧
    (m.kind = .snpM → c.st = .m ∨ c.st = .o ∨ c.st = .e → goes (.snpm m) [fwd .m, rsp .i false] none) ∧
    (m.kind = .snpI → (c.st = .m ∨ c.st = .o → goes (.snpi m) [rsp .i true, back] none) ∧
      (c.st = .e ∨ c.st = .s → goes (.snpi m) [rsp .i false] none) ∧ (c.st = .smA → goes (.snpi m) [rsp .i false] (some .imD))) ∧
    (m.kind = .snpC → (c.st = .m → goes (.snpc m) [fwd .i, rsp .m false] (some .m)) ∧ (c.st = .o → goes (.snpc m) [fwd .i, rsp .o false] (some .o)) ∧
      (c.st = .e → goes (.snpc m) [fwd .i, rsp .e false] (some .e)))) ∧
  (∀ (s : State) (m : Msg) (c : CLine), m ∈ s.coh.net → State.reservedAgent m.src.toNat = false → m.dst.toNat < 0x24 →
    s.routed (State.agentDie m.src.toNat) (State.agentDie m.dst.toNat) = true →
    let a := m.dst.toNat
    let line := m.line.toNat
    let h := s.homeOf line
    let ack : Msg := { kind := .compAck, src := m.dst, dst := BitVec.ofNat 6 (0x28 + h), txn := m.txn, line := m.line }
    let net (u : State) (out : List Msg) : Prop := u.coh.net = s.coh.net.erase m ++ out
    let frame (u : State) : Prop := (∀ b n, clineKey b n ≠ clineKey a line → u.cline b n = s.cline b n) ∧
      u = { s with coh := u.coh, tiles := u.tiles, harts := u.harts }
    let credit (u : State) : Prop := u.tagsAt a h = (s.tagsAt a h).erase m.txn.toNat
    let mine := s.cline a line = some c ∧ c.txn = m.txn.toNat
    (m.kind = .data → mine → m.unc = false → c.st = .isD → Goes (.data m) s fun u => net u [ack] ∧ frame u ∧
      u.cline a line = some { c with st := if m.st = .e then .e else .s, data := m.data }) ∧
    (m.kind = .data → mine → m.unc = false → c.st = .imD → Goes (.data m) s fun u => net u [ack] ∧ frame u ∧
      u.cline a line = some { c with st := .m, data := m.data }) ∧
    (m.kind = .gntM → mine → c.st = .smA ∨ c.st = .omA → Goes (.gntm m) s fun u => net u [ack] ∧ frame u ∧
      u.cline a line = some { c with st := .m }) ∧
    (m.kind = .relAck → mine → c.st = .miA ∨ c.st = .oiA ∨ c.st = .eiA ∨ c.st = .iiA → Goes (.relack m) s fun u => net u [] ∧ frame u ∧
      u.cline a line = none ∧ credit u) ∧
    (m.kind = .cmp → mine → c.st.stable = true → (s.hart a).unc = [] → s.unitAwaits m = none → Goes (.cmp m) s fun u => net u [] ∧ frame u ∧
      u.cline a line = some { c with ctx := c.chk } ∧ credit u) ∧
    (m.kind = .deny → mine → (s.hart a).unc = [] → s.unitAwaits m = none →
      (c.st = .isD ∨ c.st = .imD → Goes (.deny m) s fun u => net u [] ∧ frame u ∧ u.cline a line = none ∧ credit u ∧
        (a, line, c.ctx) ∈ u.coh.denied) ∧
      (c.st = .smA ∨ c.st = .omA → Goes (.deny m) s fun u => net u [] ∧ frame u ∧
        u.cline a line = some { c with st := if c.st = .smA then .s else .o } ∧ credit u ∧ (a, line, c.ctx) ∈ u.coh.denied) ∧
      (c.st.stable = true → Goes (.deny m) s fun u => net u [] ∧ frame u ∧ u.cline a line = some c ∧ credit u ∧
        (a, line, c.chk) ∈ u.coh.denied)) ∧
    (∀ q k g, (k, g) ∈ [(Instr.data m, Got.data m.data), (.cmp m, .data 0), (.deny m, .refused)] →
      (k, m.kind) ∈ [(Instr.data m, MsgKind.data), (.cmp m, .cmp), (.deny m, .deny)] → s.unitAwaits m = some q → q.got = none →
      s.cline a line = none → 0x20 ≤ a → (s.hart a).unc = [] → (m.kind = .data → q.kind = .rdCur ∧ m.unc = false ∧ 0x28 ≤ m.src.toNat) →
      Goes k s fun u => net u [] ∧ credit u ∧ u.coh.unit = some { q with got := some g } ∧ u = { s with coh := u.coh }) ∧
    (m.kind = .crdRet → Goes (.crdret m) s fun u => net u [] ∧ credit u ∧ u = { s with coh := u.coh }))

/-- Accesses beyond coherent memory that are answered or never answered, where their port's link is up: a completion gives a node
core's load its data, acknowledges the hub's store, or comes late and is counted; the timer's test discards the hub's one
outstanding store, and abandons its one outstanding load, that has reached its timeout; and the notices of discarded stores
reach their core. Which accesses are timed is Log 39. -/
def Obligations.OutstandingAccesses : Prop :=  ∀ s : State,
    let linkUp (x : Access) : Prop := (x.port.map fun p => s.get (Reg.OB_PSTAT.RATE p.1)) ≠ some 0
    (∀ (n : Nat) (bs : List Byte) (x : Access) (h : Nat), s.order.out.find? (fun x => x.id == n && x.got.isNone) = some x → x.host = none →
      linkUp x →
      x.unit = .hart h → x.write = false → bs.length = x.bytes →
      Goes (.pcieCompletionArrival n bs) s fun u => u.order = { s.order with out := s.order.out.erase x } ∧
        (∀ r, r < 32 → r ≠ 0 → AMap.getD (u.hart h).x r 0 =
          if r = x.rd % 32 then extend (leNat bs) x.bytes x.sext else AMap.getD (s.hart h).x r 0) ∧
        (∀ k, k ≠ h → u.hart k = s.hart k) ∧ u = { s with order := u.order, harts := u.harts }) ∧
    (∀ (n : Nat) (bs : List Byte) (x : Access), s.order.out.find? (fun x => x.id == n && x.got.isNone) = some x → x.host = none → x.unit = .hubIo →
      linkUp x → x.write = true → exec (.pcieCompletionArrival n bs) s = .next { s with order := { s.order with out := s.order.out.erase x } }) ∧
    (∀ (n : Nat) (bs : List Byte), (s.order.out.find? fun x => x.id == n && x.got.isNone) = none → n ∈ s.order.late →
      Goes (.pcieCompletionArrival n bs) s fun u => u.order = { s.order with late := s.order.late.erase n } ∧
        u.get Reg.MO_LATEACK_CNT.COUNT = min (2 ^ 48 - 1) (s.get Reg.MO_LATEACK_CNT.COUNT + 1) ∧
        u = { s with order := u.order, flds := u.flds } ∧ s.FieldsBut u [Reg.MO_LATEACK_CNT.COUNT]) ∧
    (∀ (n : Nat) (x : Access), n = s.order.timer / 1000 → s.order.tested < n → s.order.out = [x] → s.order.tried = [] → s.harts = [] → x.got = none →
      x.unit = .hubIo → x.issued + x.tout * 1000 ≤ n * 1000 → x.desc = none → s.power.sleep = .run →
      (x.write = true → Goes .accessTimerTest s fun u => u.order.out = [] ∧ x.id ∈ u.order.late ∧ u.order.tested = n ∧
        u.flag Reg.MO_STAT.DISCARD = true ∧ u.get Reg.MO_DISC_CNT.COUNT = min (2 ^ 48 - 1) (s.get Reg.MO_DISC_CNT.COUNT + 1)) ∧
      (x.write = false → Goes .accessTimerTest s fun u => u.order.out = [{ x with got := some (List.replicate x.bytes none) }] ∧
        x.id ∈ u.order.late ∧ u.order.tested = n ∧ u.get Reg.MO_LOADTO_CNT.COUNT = min (2 ^ 48 - 1) (s.get Reg.MO_LOADTO_CNT.COUNT + 1))) ∧
    (s.order.timer / 1000 ≤ s.order.tested → exec .accessTimerTest s = .next s) ∧
    (∀ t : Fin 256, (s.tile t).core.notices ≠ 0 → (s.tile t).core.wait = .none →
      Goes (.fenceNotice t) s fun u => u.tile t = { s.tile t with core := { (s.tile t).core with notices := 0 } } ∧
        (∀ m, m ≠ t.val → u.tile m = s.tile m) ∧ u = { s with tiles := u.tiles })

/-- The accesses of a node core to a write-back line that its cache holds in M: a load reads the bytes, a store and an atomic change
them, LR reserves the line, and SC writes only under the reservation; an atomic with the release bit has no store before it to
wait for. A FENCE with nothing outstanding is complete. mflsctx is written in M-mode only. The L2's replacement is that of Log
21; traps of a hart are outside the manual (Log 23). -/
def Obligations.NodeCores : Prop :=  ∀ (s : State) (h : Fin 32) (a : BitVec 52) (pbmt : BitVec 2) (c : CLine) (rd : BitVec 5) (v : W64), s.hartRuns h = true →
    let x := s.hart h
    let line := a.toNat / 128
    let i := a.toNat % 128
    let reg (u : State) (r : Nat) : W64 := AMap.getD (u.hart h).x r 0
    let regs (u : State) (w : W64) : Prop := ∀ r, 0 < r → r < 32 → reg u r = if r = rd.toNat then w else reg s r
    let stored (n : Nat) (w : W64) : Line := lineMerge c.data (lineWith i n w).1 (lineWith i n w).2
    let line' (u : State) (l : Line) : Prop := u.cline h line = some { c with data := l } ∧
      (∀ b k, clineKey b k ≠ clineKey h line → u.cline b k = s.cline b k) ∧ u = { s with coh := u.coh, harts := u.harts, tiles := u.tiles }
    let hit (n : Nat) (w : Bool) : Prop := s.hartTarget x.mflsctx a.toNat pbmt.toNat n w = .memory 0 ∧ x.fences = [] ∧ x.unc = [] ∧
      s.coh.denied = [] ∧ s.coh.spoiled = [] ∧ s.order.tried = [] ∧ s.cline h line = some c ∧ c.st = .m ∧ c.bad = false ∧ c.ctx = x.mflsctx
    let free (aqrl : BitVec 2) : Prop := aqrl.getLsbD 0 = false ∨ s.hartStores h = false
    (∀ size, hit (sizeBytes size) false → Goes (.nodeCoreLoad h rd a pbmt size) s fun u =>
      regs u (extend (lineNat c.data i (sizeBytes size)) (sizeBytes size) true) ∧ (∀ k, k ≠ h.val → u.hart k = s.hart k) ∧
        u = { s with harts := u.harts }) ∧
    (∀ size, hit (sizeBytes size) true → Goes (.nodeCoreStore h a pbmt size v) s fun u => line' u (stored (sizeBytes size) v) ∧
      ∀ r, reg u r = reg s r) ∧
    (∀ op double aqrl, let n := if double then 8 else 4
      hit n true → free aqrl → Goes (.nodeCoreAmo h op rd a pbmt ⟨double, aqrl⟩ v) s fun u => regs u (extend (lineNat c.data i n) n true) ∧
        line' u (stored n (amoResult op double (BitVec.ofNat 64 (lineNat c.data i n)) v))) ∧
    (∀ double aqrl, let n := if double then 8 else 4
      hit n true → free aqrl → Goes (.nodeCoreLr h rd a pbmt ⟨double, aqrl⟩) s fun u => regs u (extend (lineNat c.data i n) n true) ∧
        (u.hart h).resv = some line ∧ line' u c.data) ∧
    (∀ double aqrl, let n := if double then 8 else 4
      hit n true → free aqrl →
        (x.resv = some line → Goes (.nodeCoreSc h rd a pbmt ⟨double, aqrl⟩ v) s fun u => regs u 0 ∧ (u.hart h).resv = none ∧ line' u (stored n v)) ∧
        (x.resv ≠ some line → Goes (.nodeCoreSc h rd a pbmt ⟨double, aqrl⟩ v) s fun u => regs u 1 ∧ (u.hart h).resv = none ∧ line' u c.data)) ∧
    (∀ pred succ, x.unc = [] → s.hartOut h = [] → Goes (.nodeCoreFence h pred succ) s fun u =>
      u.hart h = { x with fences := [] } ∧ (∀ k, k ≠ h.val → u.hart k = s.hart k) ∧ u = { s with harts := u.harts }) ∧
    (x.running = true → Goes (.mflsctxWrite h true v) s fun u => u.hart h = { x with mflsctx := v.toNat % 2 ^ 16, mode := .machine } ∧
      (∀ k, k ≠ h.val → u.hart k = s.hart k) ∧ u = { s with harts := u.harts }) ∧
    exec (.mflsctxWrite h false v) s = .next s

/-- Page faults: a record is written at the fault ring's TAIL, and its store is outstanding; a resume of an outstanding fault whose
accesses have no timeout due removes it and its page's translations, and lets the accesses that joined it, and those beyond a
limit, be made again, or fail; any other is ignored, counted, and sets BADRES; a fault of FTIMEOUT rounds aborts its descriptor
with 0x20. That formed records are written after withdrawal is Log 74. -/
def Obligations.PageFaults : Prop :=  ∀ (s : State) (f : Fin 64),
    (∀ c rest, (s.fring f).en = true → (s.fring f).loc = true → s.flag Reg.HP_STAT.DETACHED = false → (s.fring f).waiting = c :: rest →
      (s.fring f).full = false → (s.fring f).evsrc = 0 → { s.fring f with tail := ((s.fring f).tail + 1) % 2 ^ 32 }.full = false →
      let x := s.fring f
      Goes (.faultRecordWrite f) s fun u => u.fring f = { x with tail := (x.tail + 1) % 2 ^ 32, waiting := rest } ∧
        u.hostMem = (s.hostWrite (x.base + x.tail % 2 ^ x.j * 64) (c.toBytes (phaseOf x.tail x.j))).hostMem ∧
        u.get Reg.TR_FAULT_CNT.COUNT = min (2 ^ 48 - 1) (s.get Reg.TR_FAULT_CNT.COUNT + 1) ∧
        (∀ n, n ≠ f.val → u.fring n = s.fring n) ∧ s.FieldsBut u [Reg.TR_FAULT_CNT.COUNT] ∧
        u = { s with hostMem := u.hostMem, xlat := u.xlat, flds := u.flds
                     order := { s.order with out := u.order.out, nextId := s.order.nextId + 1 } } ∧
        ∃ a, u.order.out = s.order.out ++ [a] ∧ a.write = true ∧ a.host = some (x.base + x.tail % 2 ^ x.j * 64) ∧ a.bytes = 64) ∧
    (∀ (r : Requester) (v : W64), s.reaches r (0x300000 + 4096 * f.val) = (true, s) →
      let id := v.toNat % 2 ^ 16
      let action := v.toNat / 2 ^ 16
      ∀ c ∈ [Instr.faultResumeReplay r f v, .faultResumeFail r f v],
        (∀ x, action = 1 ∨ action = 2 → s.xlat.faults.find? (fun x => x.ring == f.val && x.id == id) = some x →
          s.ticksFirst x.joined = s → Goes c s fun u =>
          u.xlat.faults = s.xlat.faults.filter (fun y => !(y.ring == f.val && y.id == id)) ∧
          u.xlat.resumed = s.xlat.resumed ++ x.joined.map (fun j => { by_ := j, page := x.va / 4096, fail := action == 2 }) ++ s.xlat.beyond ∧
          u.xlat.beyond = [] ∧ (∀ e ∈ u.xlat.tlb, e.ctx = x.ctx → ¬(e.page ≤ x.va / 4096 ∧ x.va / 4096 < e.page + e.pages)) ∧
          u = { s with xlat := u.xlat }) ∧
        ((action ≠ 1 ∧ action ≠ 2) ∨ s.xlat.faults.find? (fun x => x.ring == f.val && x.id == id) = none → Goes c s fun u =>
          u.flag Reg.TR_STAT.BADRES = true ∧ u.get Reg.TR_BADRES_CNT.COUNT = min (2 ^ 48 - 1) (s.get Reg.TR_BADRES_CNT.COUNT + 1) ∧
          u = { s with flds := u.flds } ∧ s.FieldsBut u [Reg.TR_STAT.BADRES, Reg.TR_BADRES_CNT.COUNT])) ∧
    (∀ (q : Fin 16384) (seq : W32) (g : Flight), s.flight? q seq.toNat = some g → g.abort = 0 → s.faultAged q seq.toNat g.snap.ftimeout = true →
      classOf (opOf g.desc) = some .tile → g.parts = [] → s.movers = [] →
      Goes (.faultTimeout q seq) s fun u => u.flight? q seq.toNat = some { g with abort := 0x20 } ∧
        u.faultAged q seq.toNat g.snap.ftimeout = false ∧
        u.get Reg.TR_TIMEOUT_CNT.COUNT = min (2 ^ 48 - 1) (s.get Reg.TR_TIMEOUT_CNT.COUNT + 1) ∧ s.FieldsBut u [Reg.TR_TIMEOUT_CNT.COUNT])

/-- Flits that their transmitter can have sent, on a trained direction out of recalibration: a bad one is discarded and counted; a
good one's ACK, NAK and CRD reach the transmitter of the other direction, whose replay buffer, flits to send again and credits
follow, and its slots are accepted only in sequence. The end of a recalibration brings the link back into service with the wires
that failed, its stored flits to be sent again. A machine check of a node core counts, and is taken in M-mode. The transient
rule is not applied to links (Log 56). -/
def Obligations.Links : Prop :=  ∀ s : State,
    (∀ (d : Fin 16) (f : BitVec 2048), (s.link d).trained = true → s.repair.recal.contains (d.val / 2) = false →
      (s.link d).canSend f = true →
      let x := s.link d
      let e := if d.val % 2 = 0 then d.val + 1 else d.val - 1
      let y := s.link e
      let only (t : State) (l : List Nat) : Prop := (∀ k, k ∉ l → t.link k = s.link k) ∧
        t = { s with repair := { s.repair with links := t.repair.links }, flds := t.flds } ∧
        ∀ k, k ∈ l → t.get (Reg.LR_LSTAT.BUNDLES k) = workingBundles (t.link k) ∧ t.get (Reg.LR_LSTAT.WIDTH k) = linkWidth (t.link k)
      let shown (l : List Nat) : List Fld := l.flatMap fun k => [Reg.LR_LSTAT.BUNDLES k, Reg.LR_LSTAT.WIDTH k]
      (flitCrcGood f = false → Goes (.flitReceive d f) s fun t => t.link d = { x with nak := true, errored := true } ∧ only t [d.val] ∧
        t.get (Reg.LR_CRC_CNT.COUNT d) = min (2 ^ 48 - 1) (s.get (Reg.LR_CRC_CNT.COUNT d) + 1) ∧
        s.FieldsBut t (Reg.LR_CRC_CNT.COUNT d :: shown [d.val])) ∧
      (flitCrcGood f = true → Goes (.flitReceive d f) s fun t =>
        let l := if flitSlots f = 0 then [e] else [e, d.val]
        let left := y.replay.filter fun g => decide (64 ≤ (flitAck f + 128 - flitSeq g) % 128)
        let z : LinkDir := { x with
          replay := if x.replay.any fun g => flitSeq g == flitSeq f then x.replay else x.replay ++ [f]
          again := x.again.filter fun g => flitSeq g != flitSeq f }
        t.link e = { y with
          replay := left, again := if flitNak f then left else y.again.filter fun g => left.contains g
          credits := (t.link e).credits } ∧
        (∀ vc, vc < 5 → AMap.getD (t.link e).credits vc 0 = AMap.getD y.credits vc 0 + flitCredits f vc) ∧
        (flitSlots f ≠ 0 → t.link d = if flitSeq f = (x.rx + 1) % 128 then
          { z with rx := flitSeq f, nak := false, units := flitUnits f x.units } else { z with nak := true }) ∧ only t l ∧
        t.get (Reg.LR_REPLAY_CNT.COUNT e) = (if flitNak f then min (2 ^ 48 - 1) (s.get (Reg.LR_REPLAY_CNT.COUNT e) + 1)
          else s.get (Reg.LR_REPLAY_CNT.COUNT e)) ∧
        s.FieldsBut t (Reg.LR_REPLAY_CNT.COUNT e :: shown l))) ∧
    (∀ (l : Fin 8) (failed : List UnitRef), s.repair.recal.contains l.val = true → Goes (.recalibrationEnd l failed) s fun t =>
      t.repair.recal = s.repair.recal.erase l.val ∧
      (∀ d, d = 2 * l.val ∨ d = 2 * l.val + 1 → t.link d =
        { failed.foldl (State.wireFails d) (s.link d) with errored := false, again := (s.link d).replay }) ∧
      (∀ d, d ≠ 2 * l.val → d ≠ 2 * l.val + 1 → t.link d = s.link d) ∧
      t = { s with repair := { s.repair with recal := t.repair.recal, links := t.repair.links, maps := t.repair.maps }, flds := t.flds, ec := t.ec }) ∧
    (∀ h : Fin 32, Goes (.nodeCoreMachineCheck h) s fun t => t.hart h =
        { s.hart h with resv := none, mode := .machine, checks := (s.hart h).checks + 1 } ∧
      (∀ k, k ≠ h.val → t.hart k = s.hart k) ∧ t.get Reg.LR_TRANS_CNT.COUNT = min (2 ^ 48 - 1) (s.get Reg.LR_TRANS_CNT.COUNT + 1) ∧
      t = { s with flds := t.flds, harts := t.harts } ∧ s.FieldsBut t [Reg.LR_TRANS_CNT.COUNT])

/-- A due beat is counted, with those that node time has passed. In Run a reading at a trip level switches every rail but VA off;
otherwise a beat that is no maintenance beat and brings no error leaves links, tests, tiles, sorter and memory alone. The test
of a unit ends: it passes as transient, or its failed elements are retired. What a beat reads is its operand (Log 2). -/
def Obligations.BeatsAndTests : Prop :=  ∀ s : State,
    (∀ r : BeatReadings, s.beatDue = true →
      (s.power.sleep = .nap ∨ s.power.sleep = .night →
        exec (.beatStart r) s = .next { s with time := { s.time with beats := s.beatNow + 1 }, repair := { s.repair with moved := [] } }) ∧
      (s.power.sleep = .run → State.tripOf r ≠ none → Goes (.beatStart r) s fun t =>
        t.start.off = some .trip ∧ t.start.begun = false ∧ t.get Reg.ST_STAT.STATE = 8 ∧ t.now = s.now ∧
          t.power.trip.map (·.1) = (State.tripOf r).map (·.1)) ∧
      (s.power.sleep = .run → State.tripOf r = none → s.maintBeat = false → r.errors = [] → r.corrections = [] → r.spoilt = [] →
        r.badCopies = [] → r.fenced = [] →
        Goes (.beatStart r) s fun t => t.time = { s.time with beats := s.beatNow + 1 } ∧ t.repair = { s.repair with moved := [] } ∧
          t.tiles = s.tiles ∧ t.sorter = s.sorter ∧ t.mem = s.mem ∧ t.power.sleep = .run ∧
          t.get Reg.PW_SUP.VIN = min 1023 r.inputVolts)) ∧
    (∀ u : UnitRef, s.repair.testing.contains u = true → s.get Reg.LR_CTL.TRTHR = 0 → Goes (.selfTestEnd u []) s fun t =>
      t.repair = { s.repair with testing := s.repair.testing.erase u, transients := t.repair.transients } ∧
        (u, s.round) ∈ t.repair.transients ∧ t.get Reg.LR_TRANS_CNT.COUNT = min (2 ^ 48 - 1) (s.get Reg.LR_TRANS_CNT.COUNT + 1) ∧
        t = { s with repair := t.repair, flds := t.flds } ∧ s.FieldsBut t [Reg.LR_TRANS_CNT.COUNT]) ∧
    (∀ (u v : UnitRef) (p : Nat × Nat), s.repair.testing.contains u = true → p ∈ unitTiles u → p ∈ unitTiles v →
      (∀ p ∈ unitTiles v, s.repair.retired.contains (36 * p.1 + p.2) = false) →
      Goes (.selfTestEnd u [v]) s fun t => v ∈ t.repair.elements ∧ t.repair.testing = s.repair.testing.erase u ∧
        t.flag Reg.LR_STAT.RETIRED = true ∧ 68 ∈ t.ec.signals)

/-- The customs gate: a request that no window lets in is answered as refused and counted; an allowed read brings its bytes; one
that exceeds its window's allowance waits, and later ones wait behind it; the refill adds RATE × 64 bytes a microsecond up to 16
times that. The link of the guest die goes down and comes up. Several whole microseconds are refilled at once (Log 60); the byte
mask is Log 42. -/
def Obligations.CustomsGate : Prop :=  ∀ s : State,
    (∀ (hdr : BitVec 128) (bs : List Byte) (m : BitVec 128) (c : Instr) (r : GuestReq),
      (c, r) ∈ [(Instr.guestRead hdr, { hdr := hdr, bad := State.guestOp hdr != 1 }),
        (.guestWrite hdr bs, { hdr := hdr, bytes := bs, bad := State.guestOp hdr != 2 }),
        (.guestMaskedWrite hdr bs m, { hdr := hdr, bytes := bs, mask := m, bad := State.guestOp hdr != 3 }),
        (.malformedGuestMessage hdr, { hdr := hdr, bad := true })] →
      s.flag Reg.CG_STAT.LINKUP = true →
      let len := State.guestLen r.hdr
      let addr := State.guestAddr r.hdr
      (s.gate.waiting = [] → (s.flag Reg.CG_CTL.EN = false ∨ State.guestFormed r = false ∨ s.guestWindow r.hdr = none) →
        Goes c s fun t => t.gate.answers.length = s.gate.answers.length + 1 ∧
          (∃ a, t.gate.answers.head? = some (a, []) ∧ State.guestOp a = 6 ∧ a.extractLsb' 4 87 = r.hdr.extractLsb' 4 87) ∧
          t.get Reg.CG_REFUSE_CNT.COUNT = min (2 ^ 48 - 1) (s.get Reg.CG_REFUSE_CNT.COUNT + 1) ∧ t.mem = s.mem ∧ t.hostMem = s.hostMem ∧
          t.gate.allowance = s.gate.allowance ∧ t.gate.waiting = []) ∧
      (s.gate.waiting ≠ [] → exec c s = .next { s with gate := { s.gate with waiting := s.gate.waiting ++ [r] } }) ∧
      (∀ w, s.gate.waiting = [] → s.flag Reg.CG_CTL.EN = true → State.guestFormed r = true → s.guestWindow r.hdr = some w →
        (s.get (Reg.CG_WCTL.RATE w) ≠ 0 → AMap.getD s.gate.allowance w 0 < len →
          exec c s = .next { s with gate := { s.gate with waiting := [r] } }) ∧
        (∀ bs l u, s.get (Reg.CG_WCTL.RATE w) = 0 → s.granuleHeld addr len = false → State.guestOp r.hdr = 1 →
          s.readBytes 1 (State.guestCtx r.hdr) addr len = (bs.map some, l, u) → u.flag Reg.CG_STAT.LINKUP = true →
          Goes c s fun t => (∃ a, t.gate.answers = (a, bs) :: u.gate.answers ∧ State.guestOp a = 4 ∧
            a.extractLsb' 4 87 = r.hdr.extractLsb' 4 87) ∧ t = { u with gate := t.gate }) ∧
        (∀ l u, s.get (Reg.CG_WCTL.RATE w) = 0 → s.granuleHeld addr len = false → State.guestOp r.hdr ≠ 1 →
          s.writeBytes (State.guestCtx r.hdr) addr (r.bytes.zipIdx.map fun p =>
            if State.guestOp r.hdr = 2 || r.mask.getLsbD p.2 then some p.1 else none) = (l, u) → u.flag Reg.CG_STAT.LINKUP = true →
          Goes c s fun t => (∃ a, t.gate.answers = (a, []) :: u.gate.answers ∧ State.guestOp a = (if l.dropped = 0 then 5 else 6)) ∧
            t = { u with gate := t.gate }))) ∧
    (s.gate.waiting = [] → s.gate.refilled < s.now / 1000 → Goes .allowanceRefill s fun t => t.gate.refilled = s.now / 1000 ∧
      (∀ w, w < 16 → AMap.getD t.gate.allowance w 0 =
        let r := 64 * s.get (Reg.CG_WCTL.RATE w)
        if r = 0 then AMap.getD s.gate.allowance w 0
        else min (16 * r) (AMap.getD s.gate.allowance w 0 + (s.now / 1000 - s.gate.refilled) * r)) ∧ t = { s with gate := t.gate }) ∧
    (s.flag Reg.CG_STAT.LINKUP = true → s.power.sleep = .run → Goes .ucieLinkDown s fun t => t.flag Reg.CG_STAT.LINKUP = false ∧
      (t.source 8).pend = true ∧ t = { s with flds := t.flds, ec := t.ec } ∧ s.FieldsBut t [Reg.CG_STAT.LINKUP]) ∧
    (s.ident.guest = true → s.flag Reg.CG_CTL.EN = true → s.power.sleep = .run → Goes .ucieLinkUp s fun t =>
      t.flag Reg.CG_STAT.LINKUP = true ∧ t = { s with flds := t.flds } ∧ s.FieldsBut t [Reg.CG_STAT.LINKUP])

/-- The event controller: an assertion in Run makes a source pending; a claim returns the lowest claimable source of its target and
makes it active; the target then claims nothing until the completion; and what the pend, mask and window writes do. The table's
layout of MSI-X is Log 20. -/
def Obligations.EventController : Prop :=  ∀ s : State,
    (∀ n : BitVec 10, reservedSource n.toNat = false → s.power.sleep = .run →
      let asserted (t : State) : Prop := (t.source n.toNat).pend = true ∧ (t.source n.toNat).active = (s.source n.toNat).active ∧
        (t.source n.toNat).masked = (s.source n.toNat).masked ∧ (∀ m, m ≠ n.toNat → t.source m = s.source m) ∧ t = { s with ec := t.ec }
      Goes (.sourceAssert n) s asserted ∧
      (n.toNat ∈ s.ec.signals → Goes (.eventSignal n) s fun t => asserted t ∧ t.ec.signals = s.ec.signals.erase n.toNat)) ∧
    (∀ v : Fin 256, s.ec.pba.contains v.val = true → s.msixReady v.val = true → s.presenting (65 + v.val) = true →
      Goes (.msixPbaSend v) s fun t => t = { s with ec := { s.ec with pba := s.ec.pba.erase v.val, sent := t.ec.sent } } ∧
        t.ec.sent = (v.val, s.msixWord (4 * v.val) + 2 ^ 32 * s.msixWord (4 * v.val + 1), s.msixWord (4 * v.val + 2)) :: s.ec.sent) ∧
    (∀ (r : Requester) (t : Fin 321), s.reaches r (0x410000 + 4096 * t.val) = (true, s) →
      (∀ n, s.activeAt t = none → s.bestSettled t = some n → Goes (.ecClaim r t) s fun u => u.answer = leBytes 4 n ∧
        u.source n = { s.source n with pend := false, active := true } ∧ (∀ m, m ≠ n → u.source m = s.source m) ∧
        u = { s with ec := u.ec, answer := u.answer }) ∧
      ((s.activeAt t).isSome = true ∨ s.bestSettled t = none → exec (.ecClaim r t) s = .next { s with answer := leBytes 4 0 })) ∧
    (∀ (r : Requester) (t : Fin 321) (v : W32), s.reaches r (0x410008 + 4096 * t.val) = (true, s) →
      ((s.source v.toNat).active = true → (s.source v.toNat).target = t.val → v.toNat ≠ 0 → Goes (.ecComplete r t v) s fun u =>
        u.source v.toNat = { s.source v.toNat with active := false } ∧ (∀ m, m ≠ v.toNat → u.source m = s.source m) ∧
        u = { s with ec := u.ec }) ∧
      ((s.source v.toNat).active = false → Goes (.ecComplete r t v) s fun u => u.flag Reg.EC_STAT.BADCMPL = true ∧
        u.get Reg.EC_BADCMPL_CNT.COUNT = min (2 ^ 48 - 1) (s.get Reg.EC_BADCMPL_CNT.COUNT + 1) ∧ u = { s with flds := u.flds } ∧
        s.FieldsBut u [Reg.EC_STAT.BADCMPL, Reg.EC_BADCMPL_CNT.COUNT])) ∧
    (∀ (r : Requester) (v : W32), let n := v.toNat % 1024
      (s.reaches r 0x400010 = (true, s) → reservedSource n = false → 8 < n → s.power.sleep = .run → Goes (.ecPend r v) s fun t =>
        (t.source n).pend = true ∧ (∀ m, m ≠ n → t.source m = s.source m) ∧ t = { s with ec := t.ec }) ∧
      (s.reaches r 0x400010 = (true, s) → n ≠ 0 → n ≤ 8 → s.flag Reg.EC_CTL.MAINT = false → Goes (.ecPend r v) s fun t =>
        t.flag Reg.EC_STAT.CFGERR = true ∧ t = { s with flds := t.flds } ∧ s.FieldsBut t [Reg.EC_STAT.CFGERR]) ∧
      (∀ c m, (c = Instr.ecMask r v ∧ m = true ∧ s.reaches r 0x400018 = (true, s)) ∨
          (c = .ecUnmask r v ∧ m = false ∧ s.reaches r 0x400020 = (true, s)) → n ≠ 0 →
        Goes c s fun t => t.source n = { s.source n with masked := m } ∧ (∀ k, k ≠ n → t.source k = s.source k) ∧ t = { s with ec := t.ec })) ∧
    (∀ (r : Requester) (w : Fin 32) (v : W32) (c : Instr) (f : Src → Src),
      (c = .ecPendSet r w v ∧ s.reaches r (0x404000 + 4 * w.val) = (true, s) ∧ s.power.sleep = .run ∧
          (f = fun x => if x.pend then x else { x with pend := true, since := s.time.cycle }) ∧
          ∀ i, i < 32 → v.getLsbD i = true → 32 * w.val + i ≠ 0 → reservedSource (32 * w.val + i) = false) ∨
        (c = .ecPendClr r w v ∧ s.reaches r (0x404080 + 4 * w.val) = (true, s) ∧ f = fun x => { x with pend := false }) ∨
        (c = .ecMaskSet r w v ∧ s.reaches r (0x404100 + 4 * w.val) = (true, s) ∧ f = fun x => { x with masked := true }) ∨
        (c = .ecMaskClr r w v ∧ s.reaches r (0x404180 + 4 * w.val) = (true, s) ∧ f = fun x => { x with masked := false }) →
      (s.flag Reg.EC_CTL.MAINT = true → Goes c s fun t => t = { s with ec := t.ec } ∧
        ∀ n, t.source n = if n ≠ 0 ∧ n / 32 = w.val ∧ v.getLsbD (n % 32) = true then f (s.source n) else s.source n) ∧
      (s.flag Reg.EC_CTL.MAINT = false → Goes c s fun t => t.flag Reg.EC_STAT.CFGERR = true ∧ t = { s with flds := t.flds } ∧
        s.FieldsBut t [Reg.EC_STAT.CFGERR]))

/-- A sample of the limiter of a rail that the device has: above LIMIT × 1.10 the fraction drops to at most 8/16; between, it
follows the window's average by one sixteenth. A droop stretches its domain's clock and counts; a supply below the warning level
pauses every tile until it recovers. An idle tile enters Doze. The uncore current is opaque (Log 14). -/
def Obligations.PowerLimits : Prop :=  ∀ s : State,
    (∀ (r : Fin 16) (counts : List Nat) (temp : Int),
      let i := s.railCurrent r counts temp
      let x := s.rail r
      let lim := s.get (Reg.PW_RLIM.LIMIT r) * 1000
      let win := ((i :: x.samples).take 200).take (4 * s.get (Reg.PW_RLIM.WIN r))
      (r.val = 14 → s.ident.g = false → exec (.railSample r counts temp) s = .next s) ∧ (r.val ≠ 14 ∨ s.ident.g = true → Goes (.railSample r counts temp) s fun t =>
        (t.rail r).samples = (i :: x.samples).take 200 ∧
        (t.rail r).paused = (if x.paused then decide (lim * win.length * 95 ≤ sumNat win * 100) else decide (lim * win.length < sumNat win)) ∧
        (lim * 110 < i * 100 → (t.rail r).frac ≤ 8) ∧ (x.paused = true → (t.rail r).paused = false → (t.rail r).frac ≤ 8) ∧
        (x.paused = false → i * 100 ≤ lim * 110 → (t.rail r).frac =
          if lim * win.length * 95 < sumNat win * 100 then max 1 (x.frac - 1)
          else if sumNat win * 100 < lim * win.length * 85 then min 16 (x.frac + 1) else x.frac) ∧
        t.flag Reg.PW_STAT.THROT = t.anyThrottle ∧ (∀ q, q ≠ r.val → t.rail q = s.rail q) ∧
        t = { s with power := { s.power with rails := t.power.rails }, flds := t.flds, ec := t.ec } ∧
        s.FieldsBut t [Reg.PW_RSTAT.FRAC r, Reg.PW_RSTAT.EST r, Reg.PW_ROVER_CNT.COUNT r, Reg.PW_STAT.OVER, Reg.PW_STAT.THROT])) ∧
    (∀ r d : Fin 16, let only (t : State) : Prop := (∀ q, q ≠ r.val → t.rail q = s.rail q) ∧
        t = { s with power := { s.power with rails := t.power.rails }, flds := t.flds }
      (d.val < State.droopDomains r → d.val ∉ (s.rail r).stretched → Goes (.droopDetect r d) s fun t =>
        t.rail r = { s.rail r with stretched := d.val :: (s.rail r).stretched } ∧ only t ∧
        t.get (Reg.PW_DROOP_CNT.COUNT r) = min (2 ^ 48 - 1) (s.get (Reg.PW_DROOP_CNT.COUNT r) + 1) ∧
        s.FieldsBut t [Reg.PW_RSTAT.FRAC r, Reg.PW_DROOP_CNT.COUNT r]) ∧
      (State.droopDomains r ≤ d.val ∨ d.val ∈ (s.rail r).stretched → exec (.droopDetect r d) s = .next s) ∧
      Goes (.droopRecover r d) s fun t => t.rail r = { s.rail r with stretched := (s.rail r).stretched.filter (· != d.val) } ∧ only t ∧
        s.FieldsBut t [Reg.PW_RSTAT.FRAC r]) ∧
    (s.power.sleep = .run →
      (s.flag Reg.PW_STAT.BROWN = false → Goes .supplyWarning s fun t => (t.source 1).pend = true ∧ t.flag Reg.PW_STAT.BROWN = true ∧
        t.flag Reg.PW_STAT.THROT = true ∧ (∀ n, t.tilePaused n = true ∧ t.effFrac n ≤ 8) ∧ t = { s with flds := t.flds, ec := t.ec } ∧
        s.FieldsBut t [Reg.PW_STAT.BROWN, Reg.PW_STAT.THROT]) ∧
      (s.flag Reg.PW_STAT.BROWN = true → Goes .supplyRecovery s fun t => (t.source 11).pend = true ∧ t.flag Reg.PW_STAT.BROWN = false ∧
        t.get Reg.PW_BROWN_CNT.COUNT = min (2 ^ 48 - 1) (s.get Reg.PW_BROWN_CNT.COUNT + 1) ∧ t.flag Reg.PW_STAT.THROT = t.anyThrottle ∧
        t = { s with flds := t.flds, ec := t.ec } ∧
        s.FieldsBut t [Reg.PW_BROWN_CNT.COUNT, Reg.PW_STAT.BROWN, Reg.PW_STAT.THROT])) ∧
    (∀ n : Fin 256, s.flag Reg.PW_CTL.DOZEEN = true → (s.tile n).idle = true →
      (s.tile n).idleSince + s.get Reg.PW_CTL.DOZEIDLE ≤ s.time.cycle → Goes (.dozeEntry n) s fun t =>
        t.tile n = { s.tile n with doze := true } ∧ (∀ m, m ≠ n.val → t.tile m = s.tile m) ∧ t = { s with tiles := t.tiles })

/-- Nap, Night and the rails: an entry whose wait has ended puts the device to sleep, keeping the scratchpads in Nap only; one past
its limit is abandoned; a wake makes the mail pending and brings the sorter and the harts back. The loss of the supply, and the
release of MATE_N, switch the rails off. That every hart waits is for the sender to say (Log 28); the directories at Nap are Log
81, the link of the guest die Log 82. -/
def Obligations.SleepAndWake : Prop :=  ∀ s : State,
    (∀ night a limit, s.power.sleep = .entering night a limit →
      (s.workDrained = true → Goes .powerStateEntry s fun t => t.power.sleep = (if night then .night else .nap) ∧ t.sorter.halted = true ∧
        t.posts = [] ∧ t.flag Reg.CG_STAT.LINKUP = false ∧ t.now = s.now ∧
        (night = false → (∀ n, (t.tile n).sp = (s.tile n).sp ∧ (t.tile n).slots = []) ∧
          (∀ h, (t.hart h).resv = none ∧ (t.hart h).running = (s.hart h).running) ∧ t.ec.src = s.ec.src) ∧
        (night = true → (∀ n, (t.tile n).sp = []) ∧ t.harts = [] ∧ t.flag Reg.HP_STAT.LINKUP = false ∧
          t.flag Reg.HP_STAT.DETACHED = true ∧ t.tarle.sessions = [] ∧ ∀ n, (t.source n).pend = false ∧ (t.source n).active = false)) ∧
      (a + limit ≤ s.round → Goes .powerEntryAbandon s fun t => t.power.sleep = .run ∧ t.sorter = { s.sorter with halted := false } ∧
        t.flag Reg.PW_STAT.ENTFAIL = true ∧ t.power.asker = none ∧ t.tiles = s.tiles ∧ t.mem = s.mem ∧ t.harts = s.harts ∧
        (s.power.asker = none → s.FieldsBut t [Reg.PW_STAT.ENTFAIL]))) ∧
    (∀ n rest, s.ec.wake = n :: rest → s.power.after = none →
      let up (t : State) : Prop := t.power.sleep = .run ∧ t.power.fresh = true ∧ t.sorter.halted = false ∧
        t.flag Reg.EC_WAKESRC.VALID = true ∧ t.get Reg.EC_WAKESRC.SRC = rest.foldl min n % 2 ^ 10 ∧ t.ec.wake = [] ∧ t.ec.latches = [] ∧
        t.ec.recorded = [] ∧ ∀ k, k ∈ s.ec.latches ∨ k ∈ s.ec.recorded → (t.source k).pend = true
      (s.power.sleep = .nap → Goes .wakeComplete s fun t => up t ∧ (∀ h, t.hart h = { s.hart h with wfi := (t.hart h).wfi }) ∧
        (∀ p ∈ t.harts, p.2.wfi = false) ∧ t.tiles = s.tiles ∧ t.mem = s.mem) ∧
      (s.power.sleep = .night → s.savedImageBad = false → s.bootCodeOk = true → Goes .wakeComplete s fun t => up t ∧
        (∀ h, h < 32 → t.hart h = { running := true }) ∧ t.tiles = s.tiles ∧ t.mem = s.mem)) ∧
    (∀ c cause, (c = .supplyLoss ∧ s.start.off = none ∧ cause = .supply) ∨
        (c = .mateRelease ∧ (s.start.begun = true ∨ s.start.off ≠ none) ∧ cause = .mate) →
      Goes c s fun t => t.start.off = some cause ∧ t.start.begun = false ∧ t.start.mated = (c != .mateRelease && s.start.mated) ∧
        t.get Reg.ST_STAT.STATE = 8 ∧ t.now = s.now ∧ t.sorter = {} ∧ t.harts = [] ∧ t.movers = [] ∧ t.letters = [])

/-- The host port's and the root ports' requests: a read that passes brings its bytes, one that is refused none; a refusal is
counted; a write's bytes go as its lines allow; a request to a granule that changes hands is not made here; an address outside
both tiers is an Unsupported Request. How uncorrectable and retired reads end is Log 43. -/
def Obligations.InboundRequests : Prop :=  ∀ s : State,
    (∀ (o : BitVec 28) (len : BitVec 13), s.awake .host = s → s.bar4Up = true → o.toNat + len.toNat ≤ 2 ^ 28 →
      let a := s.bar4Addr o.toNat
      let v := (s.readBytes 1 2 a len.toNat).2.2
      s.granuleHeld a len.toNat = false →
      (s.inboundRefused 2 a len.toNat false = true → Goes (.bar4Read o len) s fun t => t.answer = [] ∧
        t.get Reg.HP_REFUSE_CNT.COUNT = min (2 ^ 48 - 1) (v.get Reg.HP_REFUSE_CNT.COUNT + 1) ∧
        t = { v with flds := t.flds, answer := [] } ∧ v.FieldsBut t [Reg.HP_REFUSE_CNT.COUNT]) ∧
      (∀ bs l u, s.inboundRefused 2 a len.toNat false = false → s.readBytes 1 2 a len.toNat = (bs.map some, l, u) →
        exec (.bar4Read o len) s = .next { u with answer := bs })) ∧
    (∀ (o : BitVec 28) (bs : List Byte), s.awake .host = s → s.bar4Up = true → o.toNat + bs.length ≤ 2 ^ 28 →
      let a := s.bar4Addr o.toNat
      let u := (s.writeBytes 2 a (bs.map some)).2
      s.granuleHeld a bs.length = false →
      Goes (.bar4Write o bs) s fun t => t = { u with flds := t.flds } ∧ u.FieldsBut t [Reg.HP_REFUSE_CNT.COUNT] ∧
        t.get Reg.HP_REFUSE_CNT.COUNT = (if s.inboundRefused 2 a bs.length true then min (2 ^ 48 - 1) (u.get Reg.HP_REFUSE_CNT.COUNT + 1)
          else u.get Reg.HP_REFUSE_CNT.COUNT)) ∧
    (∀ (p : Fin 4) (pasid : Option (BitVec 20)) (write : Bool) (a : W64) (len : BitVec 13) (bs : List Byte) (c : Nat),
      s.hubOn = true → s.get (Reg.OB_PSTAT.RATE p) ≠ 0 → s.memoryUp = true →
      let go := Instr.rootPortInboundRequest p pasid write a len bs
      let n := if write then bs.length else len.toNat
      let v := (s.readBytes 1 c a.toNat n).2.2
      (s.inboundCtx p pasid = none → exec go s = .next { s with answer := [] }) ∧
      (s.inboundCtx p pasid = some c → s.coherent a.toNat = false → Goes go s fun t => t.answer = [] ∧
        t.get (Reg.OB_UR_CNT.COUNT p) = min (2 ^ 48 - 1) (s.get (Reg.OB_UR_CNT.COUNT p) + 1) ∧ t = { s with flds := t.flds, answer := [] } ∧
        s.FieldsBut t [Reg.OB_UR_CNT.COUNT p, Reg.PM_REFUSE_CNT.COUNT]) ∧
      (s.inboundCtx p pasid = some c → s.coherent a.toNat = true → s.coherent (a.toNat + n - 1) = true →
        s.granuleHeld a.toNat n = false → s.inboundRefused c a.toNat n write = true → write = false → Goes go s fun t => t.answer = [] ∧
          t.get (Reg.OB_REFUSE_CNT.COUNT p) = min (2 ^ 48 - 1) (v.get (Reg.OB_REFUSE_CNT.COUNT p) + 1) ∧
          t = { v with flds := t.flds, answer := [] } ∧ v.FieldsBut t [Reg.OB_REFUSE_CNT.COUNT p]) ∧
      (∀ xs l u, s.inboundCtx p pasid = some c → s.coherent a.toNat = true → s.coherent (a.toNat + n - 1) = true → write = false →
        s.granuleHeld a.toNat n = false → s.inboundRefused c a.toNat n false = false → s.readBytes 1 c a.toNat n = (xs.map some, l, u) →
        exec go s = .next { u with answer := xs }) ∧
      (s.inboundCtx p pasid = some c → s.coherent a.toNat = true → s.coherent (a.toNat + n - 1) = true → write = true →
        s.granuleHeld a.toNat n = false → s.inboundRefused c a.toNat n true = false → exec go s = .next (s.writeBytes c a.toNat (bs.map some)).2))

/-- The links of the host port and of the root ports, PERST#, attach, and IDE streams. PERST outside READY is Log 44, IDE_KM Log 46. -/
def Obligations.HostLinks : Prop :=  ∀ s : State, s.power.sleep = .run →
    (s.flag Reg.HP_STAT.LINKUP = true → s.order.out = [] → Goes .hostLinkDown s fun t => t.flag Reg.HP_STAT.LINKUP = false ∧
      t.flag Reg.HP_STAT.DETACHED = true ∧ t.flag Reg.HP_STAT.SESSION = false ∧ t.host.cause = 1 ∧ t.host.detachPm = s.now ∧
      t.host.gen = (s.host.gen + 1) % 2 ^ 32 ∧ (t.source 3).pend = true ∧ t.tarle.spdm = [] ∧ t.host.held = s.host.held ∧
      (∀ n, 65 ≤ (t.source n).target → (t.source n).active = false) ∧ (t.tiles = s.tiles ∧ t.mem = s.mem) ∧
      s.FieldsBut t [Reg.HP_STAT.LINKUP, Reg.HP_STAT.DETACHED, Reg.HP_STAT.SESSION]) ∧
    (s.hubOn = true → s.host.perst = false → s.flag Reg.HP_STAT.LINKUP = false → Goes .hostLinkUp s fun t =>
      t.flag Reg.HP_STAT.LINKUP = true ∧ (t.source 3).pend = true ∧ t.ec.vectors ≤ 256 ∧
      t.ec.msixOn = decide (t.ec.vectors ≠ 0) ∧ t = { s with flds := t.flds, ec := t.ec, free := s.free + 1 } ∧
      s.FieldsBut t [Reg.HP_STAT.LINKUP]) ∧
    (s.host.perst = false → s.start.begun = true → Goes .hostPerst s fun t => t.host.perst = true ∧
      (s.flag Reg.HP_CTL.PERSTRST = true → s.get Reg.ST_STAT.STATE = 5 → t.start.kind = 2 ∧ t.start.gen = s.start.gen + 1 ∧
        t.harts = [] ∧ t.sorter = {} ∧ t.now = s.now) ∧
      (s.flag Reg.HP_CTL.PERSTRST = false → s.order.out = [] → t.flag Reg.HP_STAT.DETACHED = true ∧ t.host.cause = 2 ∧ t.flag Reg.HP_STAT.LINKUP = false ∧
        (t.source 3).pend = true)) ∧
    (s.host.perst = true → Goes .hostPerstRelease s fun t => t.host = { s.host with perst := false } ∧
      (s.start.begun = true → (t.source 3).pend = true) ∧ t = { s with host := t.host, ec := t.ec }) ∧
    (s.hubOn = true → Goes .hostPortError s fun t => (t.source 772).pend = true ∧ t = { s with ec := t.ec }) ∧
    (∀ (r : Requester) (v : W32), s.reaches r 0xc0018 = (true, s) →
      (v.getLsbD 0 = true → s.flag Reg.HP_STAT.DETACHED = true → s.flag Reg.HP_STAT.SESSION = true → s.host.held = [] →
        exec (.attach r v) s = .next { s with host := { s.host with attaching := true } }) ∧
      (v.getLsbD 0 = false ∨ s.flag Reg.HP_STAT.DETACHED = false ∨ s.flag Reg.HP_STAT.SESSION = false → Goes (.attach r v) s fun t =>
        t.flag Reg.HP_STAT.CFGERR = true ∧ t = { s with flds := t.flds } ∧ s.FieldsBut t [Reg.HP_STAT.CFGERR])) ∧
    (s.host.attaching = true → s.host.held = [] → Goes .attachComplete s fun t => t.flag Reg.HP_STAT.DETACHED = false ∧
      t.host = { s.host with attaching := false } ∧ t = { s with flds := t.flds, host := t.host } ∧ s.FieldsBut t [Reg.HP_STAT.DETACHED]) ∧
    (∀ (p : Fin 4) (rate : BitVec 4) (width : BitVec 3), s.hubOn = true →
      rate = 0 ∨ width = 0 ∨ (s.perstN p = true ∧ rate.toNat ≤ 7 ∧ width.toNat ≤ 5) →
      let down := rate = 0 ∨ width = 0
      Goes (.rootPortLinkChange p rate width) s fun t => (down → t.get (Reg.OB_PSTAT.RATE p) = 0 ∧ t.get (Reg.OB_PSTAT.WIDTH p) = 0) ∧
        (¬ down → t.get (Reg.OB_PSTAT.RATE p) = rate.toNat ∧ t.get (Reg.OB_PSTAT.WIDTH p) = width.toNat) ∧
        (t.source (768 + p.val)).pend = true ∧ t = { s with flds := t.flds, ec := t.ec } ∧
        s.FieldsBut t [Reg.OB_PSTAT.RATE p, Reg.OB_PSTAT.WIDTH p]) ∧
    (∀ (p : Fin 5) (k : Fin 4), let i := p.val * 4 + k.val
      let others (t : State) : Prop := ∀ j, j ≠ i → AMap.get? t.tarle.ide j = AMap.get? s.tarle.ide j
      (AMap.get? s.tarle.ide i ≠ none → Goes (.ideIntegrityFailure p k) s fun t => AMap.get? t.tarle.ide i = some .insecure ∧ others t ∧
        (t.source (if p.val = 4 then 772 else 768 + p.val)).pend = true ∧ t = { s with ec := t.ec, tarle := { s.tarle with ide := t.tarle.ide } }) ∧
      (∀ (n : Fin 4) (req : List Byte), s.tarleRuns = true → k.val < State.ideStreams p.val →
        (p.val = 4 ∧ AMap.getD s.tarle.spdm n.val false = true ∧ Config.spdmAccepts req = true ∨
          p.val ≠ 4 ∧ AMap.get? s.tarle.portDigest p.val = some (Config.sm3 req)) →
        Goes (.ideKm p k n req) s fun t => others t ∧ t = { s with tarle := { s.tarle with ide := t.tarle.ide } } ∧
          AMap.get? t.tarle.ide i = if AMap.get? s.tarle.ide i = some .keyed ∨ AMap.get? s.tarle.ide i = some .secure then some .secure
            else some .keyed))

/-- A letter goes through as it is while the bypass is closed. Otherwise a bad one is dropped and counted, one of the module's own
ends, and one for another module is forwarded with TTL one less, or dropped and counted where its TTL is 0 or four wait. Of the
letters for this module alone: a STATUS or EVIDENCE request is queued, a wake letter asserts source 4 or starts the module, boot
data out of its state changes nothing, and boot data with a nonzero reserved byte or a letter of a reserved TYPE is dropped and
counted. The bypass closes and opens. The TTL at each hop is Log 93. -/
def Obligations.Letters : Prop :=  ∀ (s : State) (l : List Byte),
    (∀ c ∈ [Instr.wakeLetter l, .bootDataLetter l, .letterForward l, .badLetter l],
      let u : State := { s with host := { s.host with chainIdle := s.time.cycle } }
      let me := s.get Reg.TC_STAT.ADDR
      let counted (f : Fld) : Prop := Goes c s fun t => t.get f = min (2 ^ 48 - 1) (s.get f + 1) ∧ t = { u with flds := t.flds } ∧ s.FieldsBut t [f]
      (s.relays = false → exec c s = .next { u with host := { u.host with chainOut := l :: s.host.chainOut } }) ∧
      (s.relays = true → letterOk l = false → counted Reg.TC_CRC_CNT.COUNT) ∧
      (s.relays = true → letterOk l = true → letterSrc l = me → exec c s = .next u) ∧
      (s.relays = true → letterOk l = true → letterSrc l ≠ me → letterDst l ≠ me → letterDst l ≠ 0xFF →
        (letterTtl l = 0 → counted Reg.TC_TTLDROP_CNT.COUNT) ∧
        (letterTtl l ≠ 0 → 4 ≤ s.host.forward.length → counted Reg.TC_FWDDROP_CNT.COUNT) ∧
        (letterTtl l ≠ 0 → s.host.forward.length < 4 →
          exec c s = .next { u with host := { u.host with forward := s.host.forward ++ [letterHop l] } })) ∧
      (s.relays = true → letterOk l = true → letterSrc l ≠ me → letterDst l = me →
        (letterType l = 1 → fileNat (letterPayload l) 0 1 = 1 ∨ fileNat (letterPayload l) 0 1 = 2 →
          exec c s = .next { u with tarle := { u.tarle with letters := s.tarle.letters ++ [l] } }) ∧
        (letterType l = 2 → s.start.off ≠ some .stop → s.start.begun = true → s.power.sleep = .run → Goes c s fun t =>
          (t.source 4).pend = true ∧ t = { u with ec := t.ec }) ∧
        (letterType l = 2 → s.start.off = some .stop → Goes c s fun t => t.start.off = none ∧ t.start.begun = true ∧ t.start.kind = 1 ∧
          t.get Reg.ST_STAT.STATE = 1 ∧ t.now = 0) ∧
        (letterType l = 3 → allZero (fileBytes (letterPayload l) 6 2) = true → ¬ (fileNat (letterPayload l) 0 1 % 4 = 1 ∧ s.get Reg.ST_STAT.STATE = 1) →
          ¬ (fileNat (letterPayload l) 0 1 % 4 = 2 ∧ s.get Reg.ST_STAT.STATE = 3) → exec c s = .next u) ∧
        (letterType l = 3 → 8 ≤ (letterPayload l).length → allZero (fileBytes (letterPayload l) 6 2) = false → counted Reg.TC_CRC_CNT.COUNT) ∧
        (letterType l = 0 ∨ 3 < letterType l → counted Reg.TC_CRC_CNT.COUNT))) ∧
    (s.tarleRuns = false → Goes .bypassClose s fun t => t.flag Reg.TC_STAT.BYPASS = true ∧ t = { s with flds := t.flds } ∧
      s.FieldsBut t [Reg.TC_STAT.BYPASS]) ∧
    (s.tarleRuns = true → s.host.chainIdle + 40000 ≤ s.time.cycle → Goes .bypassOpen s fun t => t.flag Reg.TC_STAT.BYPASS = false ∧
      t = { s with flds := t.flds } ∧ s.FieldsBut t [Reg.TC_STAT.BYPASS])

/-- The requests of Tarle's mailboxes: what each answers, and what it leaves. A request from a source that it has not is refused,
and one of a wrong length is malformed. An answer stands in the response page with the request's OPC and TAG. Cryptographic
functions are opaque (Log 5); answers that the manual leaves open are Log 90. -/
def Obligations.TarleRequests : Prop :=  ∀ (s : State) (src : TarleSource) (x : List Byte),
    (s.Asks src 1 x → x.length = 0 → exec (.status src) s = .next (s.answerTo src 0 (leBytes 4
      (boolBit (s.flag Reg.TRL_STAT.CFGERR) 5 + boolBit (s.flag Reg.TRL_STAT.MB2BUSY) 4 + boolBit (s.flag Reg.TRL_STAT.MB1BUSY) 3 +
        boolBit (s.flag Reg.TRL_STAT.TAMPER) 2 + boolBit (s.flag Reg.TRL_STAT.IDOK) 1 + boolBit (s.flag Reg.TRL_STAT.BOOTED) 0) ++
      leBytes 4 (s.get Reg.TRL_BVER.VERSION) ++ leBytes 4 (s.get Reg.TRL_SVN.SVN) ++ leBytes 4 (s.get Reg.TRL_UCREV.UCREV)))) ∧
    (s.Asks src 2 x → x.length = 34 → s.tarle.d ≠ [] →
      exec (.evidence src) s = .next (s.answerTo src 0 (s.evidenceReport (fileNat x 0 2) (fileBytes x 2 32)))) ∧
    (src ≠ .letter →
      (s.Asks src 3 x → x.length = 33 → let n := fileNat x 0 1
        (n / 4 = boxOf src + 1 → exec (.extend src) s =
          .next ((s.extendSlot n (fileBytes x 1 32)).answerTo src 0 (fitBytes 32 ((s.extendSlot n (fileBytes x 1 32)).slotOf n)))) ∧
        (n / 4 ≠ boxOf src + 1 → exec (.extend src) s = .next (s.answerTo src 1 []))) ∧
      (s.Asks src 4 x → x.length = 4 → let v := fileNat x 0 4
        (1000 ≤ v % 2 ^ 13 ∧ v % 2 ^ 13 ≤ 4800 ∧ 1 ≤ v / 2 ^ 24 ∧ v / 2 ^ 24 ≤ 250 →
          let u : State := { s with power := { s.power with capNext := some v } }
          exec (.setcap src) s = .next (u.answerTo src 0 [])) ∧
        (¬ (1000 ≤ v % 2 ^ 13 ∧ v % 2 ^ 13 ≤ 4800 ∧ 1 ≤ v / 2 ^ 24 ∧ v / 2 ^ 24 ≤ 250) → exec (.setcap src) s = .next (s.answerTo src 2 []))) ∧
      (s.Asks src 5 x → x.length = 2 → fileNat x 0 1 = 1 ∨ fileNat x 0 1 = 2 → fileNat x 1 1 ≠ 0 → s.power.sleep = .run →
        s.get Reg.ST_STAT.STATE = 5 → exec (.power src) s = .next { s with
          power := { s.power with sleep := .entering (fileNat x 0 1 == 2) s.round (fileNat x 1 1), asker := some (boxOf src) }
          sorter := { s.sorter with halted := true }
          ec := { s.ec with wake := [] } }) ∧
      (s.Asks src 9 x → x.length = 2 → let n := (Config.entropy s.tarle.draws).take 32
        let nonces := AMap.put s.tarle.dbgNonce (fileNat x 0 2) n
        let u : State := { s with tarle := { s.tarle with draws := s.tarle.draws + 1, dbgNonce := nonces } }
        exec (.dbgnonce src) s = .next (u.answerTo src 0 n)) ∧
      (s.Asks src 10 x → x.length = 128 →
        let whole := fileNat x 2 1 < 8 ∧ fileNat x 3 1 = 0 ∧ allZero (fileBytes x 26 6) = true
        (¬ whole → exec (.dbgopen src) s = .next (s.answerTo src 2 [])) ∧
        (whole → s.tokenOk x = false → exec (.dbgopen src) s = .next ((s.bump Reg.TRL_DBGDENY_CNT.COUNT).answerTo src 3 [])) ∧
        (∀ h, whole → s.tokenOk x = true → h < 8 → AMap.get? s.tarle.sessions h = none → (∀ k, k < h → AMap.get? s.tarle.sessions k ≠ none) →
          Goes (.dbgopen src) s fun t => t.slotOf 7 = Config.sm3 (s.slotOf 7 ++ Config.sm3 x) ∧
            AMap.get? t.tarle.sessions h = some { ctx := fileNat x 0 2, ops := fileNat x 2 1, expiry := fileNat x 20 6 } ∧
            (∀ k, k ≠ h → AMap.get? t.tarle.sessions k = AMap.get? s.tarle.sessions k) ∧
            AMap.get? t.tarle.dbgNonce (fileNat x 0 2) = none ∧ fileNat x 0 2 ∈ t.tarle.debugSeen)) ∧
      (s.Asks src 12 x → x.length = 1 → (AMap.get? s.tarle.sessions (fileNat x 0 1)).isSome = true →
        exec (.dbgclose src) s = .next ((s.endDebug (fileNat x 0 1)).answerTo src 0 []))) ∧
    (s.Asks .mailbox2 6 x → x.length = 2 → let n := (Config.entropy s.tarle.draws).take 32
      let nonces := AMap.put s.tarle.sealNonce (fileNat x 0 2) n
      let u : State := { s with tarle := { s.tarle with draws := s.tarle.draws + 1, sealNonce := nonces } }
      exec (.sealnonce .mailbox2) s = .next (u.answerTo .mailbox2 0 n)) ∧
    (s.Asks .mailbox2 7 x → x.length = 328 → let c := fileNat x 0 2
      let whole := allZero (fileBytes x 2 2) = true ∧ allZero (fileBytes x 261 3) = true
      (¬ whole → exec (.seal .mailbox2) s = .next (s.answerTo .mailbox2 2 [])) ∧
      (whole → AMap.get? s.tarle.sealNonce c ≠ some (fileBytes x 4 32) → exec (.seal .mailbox2) s = .next (s.answerTo .mailbox2 3 [])) ∧
      (∀ ks, whole → s.ctxOpen c = true → (s.ctxOf c).sealing = .unsealed → AMap.get? s.tarle.sealNonce c = some (fileBytes x 4 32) →
        Config.sm2Verify (fileBytes x 36 64) (x.take 264) (fileBytes x 264 64) = true →
        Config.sm2Decrypt s.tarle.d (fileBytes x 100 161) = some ks → Goes (.seal .mailbox2) s fun t =>
          t.ctxOf c = { s.ctxOf c with sealing := .sealed, tkey := fileBytes x 36 64, keys := ks, sealmeas := s.sealMeasure c (fileBytes x 36 64) } ∧
          (∀ k, k ≠ c → t.ctxOf k = s.ctxOf k) ∧ AMap.get? t.tarle.sealNonce c = none)) ∧
    (s.Asks .mailbox2 8 x → x.length = 64 →
      (s.locked = true → exec (.dbgkey .mailbox2) s = .next (s.answerTo .mailbox2 4 [])) ∧
      (s.locked = false → let u : State := { s with tarle := { s.tarle with dbgKey := some x } }
        exec (.dbgkey .mailbox2) s = .next (u.answerTo .mailbox2 0 []))) ∧
    (s.Asks .mailbox2 13 x → x.length = 33 → s.locked = false → fileNat x 0 1 < 4 →
      let u : State := { s with tarle := { s.tarle with portDigest := AMap.put s.tarle.portDigest (fileNat x 0 1) (fileBytes x 1 32) } }
      exec (.portkey .mailbox2) s = .next (u.answerTo .mailbox2 0 [])) ∧
    (∀ e ∈ [(Instr.extend src, 3, 33), (.setcap src, 4, 4), (.dbgnonce src, 9, 2), (.dbgopen src, 10, 128), (.dbgclose src, 12, 1)],
      s.Asks src e.2.1 x → (src = .letter → exec e.1 s = .next (s.answerTo src 1 [])) ∧
        (src ≠ .letter → x.length ≠ e.2.2 → exec e.1 s = .next (s.answerTo src 2 []))) ∧
    (∀ n status, n = 1 ∨ n = 2 → s.tarle.mailboxes.length = 2 → x.length < 4088 → status < 256 → s.power.sleep = .run →
      let t := s.mailAnswer n status x
      let at_ (i : Nat) : Byte := AMap.getD (t.tarle.mailboxes.getD (n - 1) {}).rsp i 0
      let req (i : Nat) : Byte := AMap.getD (s.tarle.mailboxes.getD (n - 1) {}).req i 0
      at_ 0 = req 0 ∧ (at_ 1).toNat = status ∧ (at_ 2).toNat + 256 * (at_ 3).toNat = x.length ∧ (∀ i, 4 ≤ i → i < 8 → at_ i = req i) ∧
        (∀ i, i < x.length → at_ (8 + i) = x.getD i 0) ∧
        t.flag (if n = 1 then Reg.TRL_STAT.MB1BUSY else Reg.TRL_STAT.MB2BUSY) = false ∧ (t.source (if n = 1 then 32 else 34)).pend = true ∧
        t = { s with tarle := { s.tarle with mailboxes := t.tarle.mailboxes }, flds := t.flds, ec := t.ec })

/-- Authorized debug of one group: a halt, a read of one lane, a write of one lane's pc, register or fcsr, a step, and a resumption;
a session whose OPS lets the operation in is needed. A session ends at the tick after its EXPIRY. That the operation is the one
its row names is Log 48. -/
def Obligations.DebugOperations : Prop :=  ∀ (s : State) (src : TarleSource) (x : List Byte), src ≠ .letter →
    (s.Asks src 11 x → 18 ≤ x.length →
      (∀ t b g k y, s.Debugs x 0 t b g k y →
        let u := s.onTile t fun z => { z with doze := false }
        (y.halted = false → exec (.halt src) s = .next ((((u.onGroup t b g fun z => { z with halted := true, stepAt := none }).onHalted
          (fileNat x 0 1) fun l => l ++ [(t, b, g)]).assertSource 36).answerTo src 0 [])) ∧
        (y.halted = true → exec (.halt src) s = .next (u.answerTo src 0 [])) ∧
        (fileNat x 8 1 < 32 → exec (.debugRead src) s = .next (u.answerTo src 0 (State.laneBytes k y (fileNat x 8 1)))) ∧
        (y.halted = false → exec (.step src) s = .next (u.answerTo src 4 [])) ∧
        (y.halted = true → issuing y ≠ [] → exec (.step src) s =
          .next (((u.onGroup t b g fun z => { z with stepAt := some (groupWork z) }).mismatch t b g).answerTo src 0 [])) ∧
        (y.halted = true → exec (.resume src) s =
          .next (((u.onHalted (fileNat x 0 1) fun l => l.filter (· != (t, b, g))).resumeGroup t b g).answerTo src 0 [])) ∧
        (y.halted = false → exec (.resume src) s = .next (u.answerTo src 0 []))) ∧
      (∀ t b g k y, s.Debugs x 1 t b g k y → fileNat x 8 1 < 32 → fileNat x 9 1 ≤ 32 →
        let v := BitVec.ofNat 64 (fileNat x 10 8)
        Goes (.debugWrite src) s fun t' => (∀ z, t'.group? t b g = some z → ∀ i, i < 32 → z.2.lanes.getD i {} =
          if i = fileNat x 8 1 ∧ i < y.lanes.length then State.debugWriteLane (y.lanes.getD i {}) (fileNat x 9 1) v
          else y.lanes.getD i {}) ∧ (t'.group? t b g).isSome = true ∧ (∀ m, m ≠ t → t'.tile m = s.tile m)) ∧
      (AMap.get? s.tarle.sessions (fileNat x 0 1) = none →
        ∀ c ∈ [Instr.halt src, .debugRead src, .debugWrite src, .step src, .resume src], exec c s = .next (s.answerTo src 4 [])) ∧
      (∀ d, AMap.get? s.tarle.sessions (fileNat x 0 1) = some d → d.ops.testBit 0 = false → d.ops.testBit 1 = false →
        ∀ c ∈ [Instr.halt src, .debugRead src, .debugWrite src, .step src, .resume src], exec c s = .next (s.answerTo src 1 []))) ∧
    (∀ (h : Fin 8) (d : DebugSession), AMap.get? s.tarle.sessions h.val = some d →
      (2 ^ 47 ≤ (d.expiry + 2 ^ 48 - s.round) % 2 ^ 48 → exec (.debugSessionExpiry h) s = .next (s.endDebug h.val)) ∧
      ((d.expiry + 2 ^ 48 - s.round) % 2 ^ 48 < 2 ^ 47 → exec (.debugSessionExpiry h) s = .next s) ∧
      (d.halted = [] → s.power.sleep = .run → let t := s.endDebug h.val
        (∀ k, AMap.get? t.tarle.sessions k = if k = h.val then none else AMap.get? s.tarle.sessions k) ∧ (t.source 36).pend = true ∧
          t = { s with tarle := { s.tarle with sessions := t.tarle.sessions }, ec := t.ec }))

/-- SPDM over DOE, Tarle's watchdog and reset, and tamper. SPDM messages are opaque functions (Log 5). -/
def Obligations.SpdmAndTamper : Prop :=  ∀ s : State,
    (∀ (req : List Byte), s.doeUp = true →
      (∀ e ∈ [(Instr.getVersion req, []), (.getCapabilities req, []), (.negotiateAlgorithms req, []),
          (.getDigests req, [s.tarle.cert, s.tarle.vkey]), (.challenge req, [s.tarle.d, s.tarle.cert, s.tarle.vkey]),
          (.getMeasurements req, s.tarle.d :: (List.range 16).map s.slotOf)],
        exec e.1 s = .next (s.doeRespond (Config.spdmAnswer req e.2))) ∧
      exec (.getCertificate req) s = .next (s.doeRespond (if s.flag Reg.TRL_STAT.IDOK
        then Config.spdmAnswer req [s.tarle.cert, s.tarle.vkey] else Config.spdmError req)) ∧
      (∀ n, n < 4 → AMap.get? s.tarle.spdm n = none → (∀ k, k < n → AMap.get? s.tarle.spdm k ≠ none) → Config.spdmAccepts req = true →
        let u : State := { s with tarle := { s.tarle with spdm := AMap.put s.tarle.spdm n false } }
        exec (.keyExchange req) s = .next (u.doeRespond (Config.spdmAnswer req [s.tarle.d, s.tarle.cert]))) ∧
      ((∀ k, k < 4 → AMap.get? s.tarle.spdm k ≠ none) → exec (.keyExchange req) s = .next (s.doeRespond (Config.spdmError req))) ∧
      (∀ n : Fin 4,
        (AMap.get? s.tarle.spdm n.val = some false → Config.spdmAccepts req = true → Goes (.finish n req) s fun t =>
          AMap.get? t.tarle.spdm n.val = some true ∧ (∀ k, k ≠ n.val → AMap.get? t.tarle.spdm k = AMap.get? s.tarle.spdm k) ∧
          t.flag Reg.HP_STAT.SESSION = true ∧ t.tarle.answers = Config.spdmAnswer req [] :: s.tarle.answers ∧
          t = { s with flds := t.flds, tarle := t.tarle } ∧ s.FieldsBut t [Reg.HP_STAT.SESSION]) ∧
        (AMap.getD s.tarle.spdm n.val false = true →
          exec (.keyUpdate n req) s = .next (s.doeRespond (Config.spdmAnswer req [])) ∧
          exec (.heartbeat n req) s = .next (s.doeRespond (Config.spdmAnswer req [])) ∧
          (let u : State := { s with tarle := { s.tarle with spdm := AMap.erase s.tarle.spdm n.val } };
            exec (.endSession n req) s = .next (u.doeRespond (Config.spdmAnswer req [])))) ∧
        (AMap.getD s.tarle.spdm n.val false = false → ∀ c ∈ [Instr.keyUpdate n req, .heartbeat n req, .endSession n req],
          exec c s = .next (s.doeRespond (Config.spdmError req))))) ∧
    (s.tarleRuns = true → s.power.sleep = .run → s.get Reg.ST_STAT.STATE = 5 → Goes .tarleWatchdogExpiry s fun t =>
      (t.source 5).pend = true ∧ t.tarle = { s.tarle with resetting := true, spdm := [], ide := [] } ∧ t.flag Reg.TC_STAT.BYPASS = true ∧
        t = { s with tarle := t.tarle, flds := t.flds, ec := t.ec } ∧ s.FieldsBut t [Reg.TC_STAT.BYPASS]) ∧
    (s.tarle.resetting = true → s.power.sleep = .run → Goes .tarleResetComplete s fun t => t.tarle.resetting = false ∧
      t.flag Reg.TRL_STAT.MB1BUSY = false ∧ t.flag Reg.TRL_STAT.MB2BUSY = false ∧ (t.source 37).pend = true ∧
      t.tarle.slots = s.tarle.slots ∧ t = { s with tarle := t.tarle, flds := t.flds, ec := t.ec } ∧
      s.FieldsBut t [Reg.TRL_STAT.MB1BUSY, Reg.TRL_STAT.MB2BUSY, Reg.TRL_AUTHFAIL_CNT.COUNT]) ∧
    (s.start.begun = true → s.power.sleep = .run → s.tarle.sessions = [] → Goes .tamper s fun t => (t.source 6).pend = true ∧
      t.flag Reg.TRL_STAT.TAMPER = true ∧ t.tarle.spdm = [] ∧ t.tarle.ide = [] ∧ (∀ p ∈ t.xlat.ctxs, p.2.sealing ≠ .sealed) ∧
      (∀ c ∈ t.mem, c.1 < tier1Base ∨ deviceBase ≤ c.1) ∧ t.tiles = s.tiles ∧ t.sorter = s.sorter ∧ t.harts = s.harts ∧
      s.FieldsBut t [Reg.TRL_STAT.TAMPER])

/-- Starts, resets and stops: what each leaves of the start's state, and when it is turned away. LIMIT 0 is refused by Log 97; the
clean mark after LIMIT is Log 84; a module start goes to LOAD by Log 92. -/
def Obligations.StartsAndStops : Prop :=  ∀ s : State,
    (exec .mateAssert s = .next { s with start := { s.start with mated := true } }) ∧
    (s.start.mated = true → s.start.begun = false → s.ident.testEn = false → Goes .powerOnStart s fun t => t.get Reg.ST_STAT.STATE = 1 ∧
      t.start.begun = true ∧ t.start.off = none ∧ t.start.kind = 1 ∧ t.start.gen = 1 ∧ t.now = 0 ∧
      t.get Reg.TC_STAT.ADDR = s.ident.slot.toNat + 1 ∧ t.slotOf 0 = Config.sm3 (zeroSlot ++ Config.sm3 Config.bootRom) ∧
      t.sorter = {} ∧ t.harts = [] ∧ t.letters = []) ∧
    (∀ (r : Requester) (v : W32), s.reaches r 0xf0020 = (true, s) → ∀ c ∈ [Instr.recordDelivery r v, .bundleDelivery r v],
      let kind := v.toNat % 4
      let st := s.get Reg.ST_STAT.STATE
      ((kind = 1 ∧ st = 1) ∨ (kind = 2 ∧ st = 3) → exec c s = .next { s with start := { s.start with fetch := some kind } }) ∧
      (¬ ((kind = 1 ∧ st = 1) ∨ (kind = 2 ∧ st = 3)) → Goes c s fun t => t.flag Reg.ST_STAT.CFGERR = true ∧ t = { s with flds := t.flds } ∧
        s.FieldsBut t [Reg.ST_STAT.CFGERR])) ∧
    (∀ f, s.fetchFile = some f →
      (s.start.fetch = some 1 → s.get Reg.ST_STAT.STATE = 1 → Goes .recordFetchComplete s fun t => t.start.fetch = none ∧
        (recordOk s.ident.serial f = true → t.get Reg.ST_STAT.STATE = 2 ∧ t.start.record = f ∧
          t.slotOf 4 = Config.sm3 (s.slotOf 4 ++ Config.sm3 f) ∧ t.tarle.vkey = fileBytes f 32 64) ∧
        (recordOk s.ident.serial f = false → t.flag Reg.ST_STAT.LOADERR = true ∧ t.get Reg.ST_STAT.STATE = 1 ∧
          t.get Reg.TRL_AUTHFAIL_CNT.COUNT = min (2 ^ 48 - 1) (s.get Reg.TRL_AUTHFAIL_CNT.COUNT + 1) ∧ t.tarle = s.tarle)) ∧
      (s.start.fetch = some 2 → s.get Reg.ST_STAT.STATE = 3 → Goes .bundleFetchComplete s fun t => t.start.fetch = none ∧
        (bundleOk f = true → t.get Reg.ST_STAT.STATE = 5 ∧ t.start.bundle = f ∧ t.flag Reg.TRL_STAT.BOOTED = true ∧
          (∀ h, h < 32 → t.hart h = { running := true }) ∧ t.flag Reg.MO_STAT.UNCLEAN = !s.flash.clean ∧ t.flash.clean = false) ∧
        (bundleOk f = false → t.flag Reg.ST_STAT.LOADERR = true ∧ t.get Reg.ST_STAT.STATE = 3 ∧ t.harts = s.harts))) ∧
    (∀ (failed : List UnitRef) (hbm : Bool) (temps : List Int), s.get Reg.ST_STAT.STATE = 2 →
      let u := s.selfTest failed
      ((∀ x ∈ temps, x ≤ 95) → Goes (.startSelfTestDone failed hbm temps) s fun t =>
        (u.startResult hbm = 0 → t = { u with flds := t.flds } ∧ u.FieldsBut t [Reg.ST_STAT.STATE] ∧
          t.get Reg.ST_STAT.STATE = if s.start.kind = 2 ∨ s.start.kind = 3 then 4 else 3) ∧
        (u.startResult hbm ≠ 0 → t.get Reg.ST_STAT.STATE = 6 ∧ t.harts = s.harts ∧ t.sorter = s.sorter)) ∧
      (∀ x ∈ temps, 95 < x → Goes (.startSelfTestDone failed hbm temps) s fun t => t.get Reg.ST_STAT.STATE = 6 ∧
        s.FieldsBut t [Reg.ST_STAT.STATE] ∧ t = { s with flds := t.flds, start := t.start, power := t.power })) ∧
    (∀ (r : Requester) (v : W32), s.reaches r 0xf0008 = (true, s) → s.reqCtx r = 2 →
      s.get Reg.ST_STAT.STATE = 5 → s.power.sleep = .run → s.power.asker = none →
      ∀ c ∈ [Instr.moduleReset r v, .deviceWarmReset r v, .tarleOnlyReset r v, .fullMaintenanceStop r v, .powerOff r v],
        let kind := v.toNat % 8
        let limit := v.toNat / 2 ^ 8 % 2 ^ 8
        (kind = 1 → Goes c s fun t => t.start.kind = 2 ∧ t.start.gen = s.start.gen + 1 ∧ t.now = s.now ∧ t.harts = [] ∧ t.sorter = {}) ∧
        (kind = 2 → Goes c s fun t => t.start.kind = 3 ∧ t.start.gen = s.start.gen + 1 ∧ t.now = s.now ∧ t.harts = [] ∧ t.sorter = {} ∧
          t.get Reg.ST_STAT.STATE = 2 ∧ t.tarle.slots = s.tarle.slots) ∧
        (kind = 3 → Goes c s fun t => t.tarle = { s.tarle with resetting := true, spdm := [], ide := [] } ∧
          t.flag Reg.TC_STAT.BYPASS = true ∧ t = { s with tarle := t.tarle, flds := t.flds } ∧ s.FieldsBut t [Reg.TC_STAT.BYPASS]) ∧
        (kind = 4 ∨ kind = 5 → limit ≠ 0 → Goes c s fun t => t.get Reg.ST_STAT.STATE = 7 ∧ t.sorter = { s.sorter with halted := true } ∧
          t.start = { s.start with stop := some (kind, (s.get Reg.RND_NUM.NUM + limit) % 2 ^ 48) } ∧
          t = { s with start := t.start, sorter := t.sorter, flds := t.flds } ∧ s.FieldsBut t [Reg.ST_STAT.STATE]) ∧
        (kind = 0 ∨ 5 < kind ∨ (4 ≤ kind ∧ limit = 0) → Goes c s fun t => t.flag Reg.ST_STAT.CFGERR = true ∧ t = { s with flds := t.flds } ∧
          s.FieldsBut t [Reg.ST_STAT.CFGERR])) ∧
    (∀ c kind r forced, s.start.stop = some (kind, r) → (c = Instr.stopDrainEnd ∧ s.workDrained = true ∧ forced = false) ∨
        (c = .stopLimitExpiry ∧ (s.round + 2 ^ 48 - r) % 2 ^ 48 < 2 ^ 47 ∧ forced = true) →
      Goes c s fun t => t.flash.clean = true ∧ t.start.stop = none ∧ t.start.forced = forced ∧ t.now = s.now ∧
        (kind = 4 → t.start.kind = 4 ∧ t.get Reg.ST_STAT.STATE = 1 ∧ t.start.record = [] ∧ t.start.bundle = []) ∧
        (kind ≠ 4 → t.start.off = some .stop ∧ t.start.begun = false ∧ t.get Reg.ST_STAT.STATE = 8))

/-- Register accesses: a 32-bit read of the low word of a 64-bit register latches the high word for the high-word read that follows;
a foreign context reads zero and writes nothing; a write sets its field, and one of a locked field sets CFGERR instead. The
bytes a read returns stand in State.answer (Log 13); a fault of a hart is counted by Log 23. -/
def Obligations.RegisterAccess : Prop :=  ∀ (s : State) (r : Requester) (off : BitVec 25),
    (∀ row i b k, s.reaches r off.toNat = (true, s) → off.toNat % 8 = 0 → findReg off.toNat = some (row, i, b) →
      findReg (off.toNat + 4) = some (row, i, b + 4) → row.bytes = 8 → row.reg ≠ .EC_CLAIM → b = 0 → s.answers (off.toNat + 4) = true → shadowKey r = some k →
      let v := s.regWord (s.reqCtx r) row i 0
      exec (.lowWordRead r off) s =
        .next { s with answer := leBytes 4 (v % 2 ^ 32), shadows := AMap.put s.shadows k (off.toNat, v / 2 ^ 32 % 2 ^ 32) }) ∧
    (∀ row i b k h, s.reaches r off.toNat = (true, s) → off.toNat % 8 = 4 → findReg off.toNat = some (row, i, b) → row.bytes = 8 → row.reg ≠ .EC_CLAIM → b = 4 →
      shadowKey r = some k → AMap.get? s.shadows k = some (off.toNat - 4, h) →
      exec (.highWordRead r off) s = .next { s with answer := leBytes 4 h, shadows := AMap.erase s.shadows k }) ∧
    (s.awake r = s → s.present r = true → 2 < s.reqCtx r → off.toNat % 4 = 0 → s.identity off.toNat = false →
      (∀ c ∈ [Instr.lowWordRead r off, .highWordRead r off, .refusedRegisterRead r off 4], Goes c s fun t => t.answer = leBytes 4 0 ∧
        t.flag Reg.GBL_STAT.FOREIGN = true ∧ t.get Reg.GBL_FOREIGN_CNT.COUNT = min (2 ^ 48 - 1) (s.get Reg.GBL_FOREIGN_CNT.COUNT + 1) ∧
        t = { s with flds := t.flds, answer := t.answer } ∧ s.FieldsBut t [Reg.GBL_STAT.FOREIGN, Reg.GBL_FOREIGN_CNT.COUNT]) ∧
      (∀ v, Goes (.registerWrite r off false v) s fun t => t.flag Reg.GBL_STAT.FOREIGN = true ∧
        t.get Reg.GBL_FOREIGN_CNT.COUNT = min (2 ^ 48 - 1) (s.get Reg.GBL_FOREIGN_CNT.COUNT + 1) ∧ t = { s with flds := t.flds } ∧
        s.FieldsBut t [Reg.GBL_STAT.FOREIGN, Reg.GBL_FOREIGN_CNT.COUNT])) ∧
    (∀ size, s.awake r = s → s.present r = true → (size ≠ 4 ∧ size ≠ 8) ∨ off.toNat % size ≠ 0 → ∀ h : Fin 32, r = .hart h →
      Goes (.refusedRegisterRead r off size) s fun t => t.answer = [] ∧ t.hart h = { s.hart h with faults := (s.hart h).faults + 1, resv := none } ∧
        (∀ k, k ≠ h.val → t.hart k = s.hart k) ∧ t = { s with harts := t.harts, answer := t.answer }) ∧
    (∀ (n : Fin 4) (v : W64), off.toNat = 0x40 + 8 * n.val → s.reaches r off.toNat = (true, s) →
      Goes (.registerWrite r off true v) s fun t => t.get (Reg.GBL_SCRATCH.VALUE n) = v.toNat ∧ t = { s with flds := t.flds } ∧
        s.FieldsBut t [Reg.GBL_SCRATCH.VALUE n]) ∧
    (∀ v : W64, off.toNat = 0x200000 → s.reaches r off.toNat = (true, s) →
      (s.locked = true → Goes (.registerWrite r off false v) s fun t => t.flag Reg.TR_STAT.CFGERR = true ∧ t = { s with flds := t.flds } ∧
        s.FieldsBut t [Reg.TR_STAT.CFGERR]) ∧
      (s.locked = false → v.toNat % 2 ^ 16 = 1 ∨ v.toNat % 2 ^ 16 = 2 → Goes (.registerWrite r off false v) s fun t =>
        t.get Reg.TR_CTL.INITOWN = v.toNat % 2 ^ 16 ∧ t = { s with flds := t.flds } ∧ s.FieldsBut t [Reg.TR_CTL.INITOWN]))
end

