-- ==== Sys2Proof/Laws/Maps.lean ====
section
/-! SUPPORT. Laws of sparse maps and of bytes in canonical form: what is read after a write, and that every operation keeps the
canonical form. -/

namespace Sys2Proof.Machine

/-! ## Sparse maps -/

@[simp] theorem AMap.getD_nil {α : Type} (k : Nat) (d : α) : AMap.getD ([] : AMap α) k d = d := rfl

@[simp] theorem AMap.get?_nil {α : Type} (k : Nat) : AMap.get? ([] : AMap α) k = none := rfl

/-- A key reads as what was put at it, and every other key as before. -/
theorem AMap.getD_put {α : Type} (m : AMap α) (k : Nat) (v : α) (j : Nat) (d : α) :
    AMap.getD (AMap.put m k v) j d = if j = k then v else AMap.getD m j d := by
  induction m with grind [AMap.put, AMap.getD]

@[simp] theorem AMap.getD_put_same {α : Type} (m : AMap α) (k : Nat) (v d : α) : AMap.getD (AMap.put m k v) k d = v := by
  simp [AMap.getD_put]

theorem AMap.getD_put_ne {α : Type} (m : AMap α) {k j : Nat} (v d : α) (h : j ≠ k) :
    AMap.getD (AMap.put m k v) j d = AMap.getD m j d := by
  simp [AMap.getD_put, h]

theorem AMap.get?_put {α : Type} (m : AMap α) (k : Nat) (v : α) (j : Nat) :
    AMap.get? (AMap.put m k v) j = if j = k then some v else AMap.get? m j := by
  induction m with grind [AMap.put, AMap.get?]

theorem AMap.get?_mem {α : Type} {m : AMap α} {k : Nat} {v : α} (h : AMap.get? m k = some v) : (k, v) ∈ m := by
  induction m with grind [AMap.get?]

/-- An entry of a map after a put is at the key put, or an old one. -/
theorem mem_put {α : Type} {m : AMap α} {k : Nat} {v : α} {p : Nat × α} (hp : p ∈ AMap.put m k v) : p.1 = k ∨ p ∈ m := by
  induction m with grind [AMap.put]

/-- Keys strictly rising. -/
def AMap.Rising {α : Type} (m : AMap α) : Prop := m.Pairwise fun a b => a.1 < b.1

theorem AMap.Rising.put {α : Type} {m : AMap α} (h : AMap.Rising m) (k : Nat) (v : α) : AMap.Rising (AMap.put m k v) := by
  unfold AMap.Rising at h ⊢
  induction m with grind [AMap.put, List.pairwise_cons, → mem_put]

theorem AMap.Rising.filter {α : Type} {m : AMap α} (h : AMap.Rising m) (p : Nat × α → Bool) : AMap.Rising (m.filter p) :=
  List.Pairwise.filter _ h

theorem AMap.Rising.erase {α : Type} {m : AMap α} (h : AMap.Rising m) (k : Nat) : AMap.Rising (AMap.erase m k) := h.filter _

/-- A map reads through a filter that keeps every entry of the key. -/
theorem AMap.get?_filter {α : Type} (m : AMap α) (p : Nat × α → Bool) (k : Nat) (h : ∀ v, p (k, v) = true) :
    AMap.get? (m.filter p) k = AMap.get? m k := by
  induction m with grind [AMap.get?]

theorem AMap.getD_filter {α : Type} (m : AMap α) (p : Nat × α → Bool) (k : Nat) (d : α) (h : ∀ v, p (k, v) = true) :
    AMap.getD (m.filter p) k d = AMap.getD m k d := by
  induction m with grind [AMap.getD]

/-! ## Bytes in canonical form -/

/-- The canonical form in words: addresses strictly rise, and no listed byte is the one that an unlisted address reads as. -/
theorem cellsWf_iff (d : Nat → Byte) (m : List Host.Cell) :
    cellsWf d m = true ↔ (m.Pairwise fun a b => a.1 < b.1) ∧ ∀ c ∈ m, c.2 ≠ d c.1 := by
  fun_induction cellsWf with
  | case1 => simp
  | case2 => simp
  | case3 a b a' b' rest ih =>
    simp only [Bool.and_eq_true, ih, List.pairwise_cons, List.forall_mem_cons, bne_iff_ne, decide_eq_true_eq]
    grind

theorem cellsWf_nil (d : Nat → Byte) : cellsWf d [] = true := rfl

/-- A cell of a list after a write is the written one or an old one. -/
theorem mem_cellPut {d : Nat → Byte} {m : List Host.Cell} {a : Nat} {b : Byte} {c : Host.Cell} (h : c ∈ cellPut d m a b) :
    (c = (a, b) ∧ b ≠ d a) ∨ c ∈ m := by
  induction m with grind [cellPut]

/-- A write keeps the canonical form. -/
theorem cellsWf_cellPut {d : Nat → Byte} {m : List Host.Cell} (h : cellsWf d m = true) (a : Nat) (b : Byte) :
    cellsWf d (cellPut d m a b) = true := by
  rw [cellsWf_iff] at h ⊢
  induction m with grind [cellPut, List.pairwise_cons, → mem_cellPut]

theorem cellsWf_filter {d : Nat → Byte} {m : List Host.Cell} (h : cellsWf d m = true) (p : Host.Cell → Bool) :
    cellsWf d (m.filter p) = true := by
  rw [cellsWf_iff] at h ⊢
  exact ⟨h.1.filter _, fun c hc => h.2 c (List.mem_filter.1 hc).1⟩

/-- The form depends on what unlisted addresses read as at the listed ones only. -/
theorem cellsWf_congr {d e : Nat → Byte} {m : List Host.Cell} (h : cellsWf d m = true) (hd : ∀ c ∈ m, e c.1 = d c.1) :
    cellsWf e m = true := by
  rw [cellsWf_iff] at h ⊢
  exact ⟨h.1, fun c hc => by rw [hd c hc]; exact h.2 c hc⟩

/-- A listed address below every key reads as unlisted. -/
theorem cellGet_of_lt {d : Nat → Byte} {m : List Host.Cell} {a : Nat} (h : ∀ c ∈ m, a < c.1) : cellGet d m a = d a := by
  cases m with grind [cellGet]

/-- After a write the address reads as the byte written, and every other address as before. -/
theorem cellGet_cellPut {d : Nat → Byte} {m : List Host.Cell} (h : cellsWf d m = true) (a : Nat) (b : Byte) (x : Nat) :
    cellGet d (cellPut d m a b) x = if x = a then b else cellGet d m x := by
  have hp := ((cellsWf_iff d m).1 h).1
  clear h
  induction m with
  | nil => grind [cellPut, cellGet]
  | cons y rest ih =>
    obtain ⟨h0, h1⟩ := List.pairwise_cons.1 hp
    -- the rest of a rising list lies above its head
    have hr : x < y.1 + 1 → cellGet d rest x = d x := fun hx => cellGet_of_lt fun c hc => by have := h0 c hc; omega
    grind [cellPut, cellGet]

end Sys2Proof.Machine
end

