-- ==== Sys2Proof/Laws/Memory.lean ====
section
/-! SUPPORT. Laws of the memories: the canonical form through every operation that writes them, and what a byte reads as after a
write. -/

namespace Sys2Proof.Machine

theorem fillWf_iff (m : AMap (Option Nat)) : fillWf m = true ↔ ∀ p ∈ m, tier1Base ≤ p.1 * 65536 := by
  simp [fillWf]

theorem fillWf_put {m : AMap (Option Nat)} (h : fillWf m = true) (k : Nat) (v : Option Nat) (hk : tier1Base ≤ k * 65536) :
    fillWf (AMap.put m k v) = true := by
  rw [fillWf_iff] at h ⊢
  intro p hp
  rcases mem_put hp with rfl | hp
  · exact hk
  · exact h p hp

theorem fillWf_filter {m : AMap (Option Nat)} (h : fillWf m = true) (p : Nat × Option Nat → Bool) : fillWf (m.filter p) = true := by
  rw [fillWf_iff] at h ⊢
  exact fun c hc => h c (List.mem_filter.1 hc).1

theorem wf_iff (s : State) :
    Memory.wf s = true ↔ fillWf s.ident.fill = true ∧ cellsWf s.dflt s.mem = true ∧ cellsWf (fun _ => 0) s.hostMem = true := by
  simp [Memory.wf, and_assoc]

/-- The reset state's memories are canonical. -/
theorem wf_reset : Memory.wf State.reset = true := rfl

namespace State

/-! ## Bytes -/

/-- A byte of memory after one is written. -/
theorem memGet_memPut {s : State} (h : Memory.wf s = true) (a : Nat) (b : Byte) (x : Nat) :
    (s.memPut a b).memGet x = if x = a then b else s.memGet x :=
  cellGet_cellPut ((wf_iff s).1 h).2.1 a b x

theorem wf_memPut {s : State} (h : Memory.wf s = true) (a : Nat) (b : Byte) : Memory.wf (s.memPut a b) = true := by
  rw [wf_iff] at h ⊢
  exact ⟨h.1, cellsWf_cellPut h.2.1 a b, h.2.2⟩

theorem wf_memWrite {s : State} (h : Memory.wf s = true) (a : Nat) (bs : List Byte) : Memory.wf (s.memWrite a bs) = true := by
  induction bs generalizing s a with
  | nil => exact h
  | cons b rest ih => exact ih (wf_memPut h a b) (a + 1)

/-- A byte of memory after a run of bytes is written: the byte written to its place, or the byte it held. -/
theorem memGet_memWrite {s : State} (h : Memory.wf s = true) (a : Nat) (bs : List Byte) (x : Nat) :
    (s.memWrite a bs).memGet x = if a ≤ x then bs.getD (x - a) (s.memGet x) else s.memGet x := by
  induction bs generalizing s a with
  | nil => simp [memWrite]
  | cons b rest ih =>
    rw [memWrite, ih (wf_memPut h a b), memGet_memPut h]
    rcases Nat.lt_trichotomy x a with hx | hx | hx
    · have h1 : ¬ a + 1 ≤ x := by omega
      have h2 : ¬ a ≤ x := by omega
      have h3 : ¬ x = a := by omega
      simp only [h1, h2, h3, if_false]
    · subst hx
      have h1 : ¬ x + 1 ≤ x := by omega
      simp [h1]
    · have h1 : a + 1 ≤ x := by omega
      have h2 : a ≤ x := by omega
      have h3 : ¬ x = a := by omega
      obtain ⟨n, hn⟩ : ∃ n, x - a = n + 1 := ⟨x - a - 1, by omega⟩
      simp only [h1, h2, h3, if_true, if_false, hn, show x - (a + 1) = n by omega, List.getD_cons_succ]

theorem wf_hostWrite {s : State} (h : Memory.wf s = true) (a : Nat) (bs : List Byte) : Memory.wf (s.hostWrite a bs) = true := by
  induction bs generalizing s a with
  | nil => exact h
  | cons b rest ih =>
    refine ih ?_ (a + 1)
    rw [wf_iff] at h ⊢
    exact ⟨h.1, h.2.1, cellsWf_cellPut h.2.2 a b⟩

/-! ## Ranges -/

theorem range_key {a k : Nat} (h : a / 65536 = k) : k * 65536 ≤ a ∧ a < k * 65536 + 65536 := by omega

theorem get?_foldl_put {gs : List Nat} {m : AMap (Option Nat)} {k : Nat} {f : Nat → Option Nat} (hk : k ∉ gs) :
    AMap.get? (gs.foldl (fun m g => AMap.put m g (f g)) m) k = AMap.get? m k := by
  induction gs generalizing m with
  | nil => rfl
  | cons g rest ih =>
    rw [List.foldl_cons, ih (fun h => hk (List.mem_cons_of_mem _ h)), AMap.get?_put, if_neg]
    rintro rfl
    exact hk (List.mem_cons_self ..)

theorem fillWf_foldl {gs : List Nat} {m : AMap (Option Nat)} (step : AMap (Option Nat) → Nat → AMap (Option Nat))
    (h : fillWf m = true) (hs : ∀ m, ∀ g ∈ gs, fillWf m = true → fillWf (step m g) = true) : fillWf (gs.foldl step m) = true := by
  induction gs generalizing m with
  | nil => exact h
  | cons g rest ih =>
    exact ih (hs m g (List.mem_cons_self ..) h) fun m x hx => hs m x (List.mem_cons_of_mem _ hx)

theorem wf_loseRanges {s : State} (h : Memory.wf s = true) (gs : List Nat) : Memory.wf (s.loseRanges gs) = true := by
  rw [wf_iff] at h ⊢
  refine ⟨fillWf_foldl _ h.1 fun m g hg hm => fillWf_put hm g _ ?_, ?_, h.2.2⟩
  · simpa using (List.mem_filter.1 hg).2
  · refine cellsWf_congr (cellsWf_filter h.2.1 _) fun c hc => ?_
    have hc := (List.mem_filter.1 hc).2
    have hn : c.1 / 65536 ∉ gs.filter fun g => decide (tier1Base ≤ g * 65536) := by
      intro hm
      rw [List.contains_iff_mem.2 hm] at hc
      cases hc
    simp only [loseRanges, dflt, get?_foldl_put (f := fun _ => some (s.ident.losses + 1)) hn]

theorem wf_loseTier1 {s : State} (h : Memory.wf s = true) : Memory.wf s.loseTier1 = true := by
  rw [wf_iff] at h ⊢
  refine ⟨fillWf_filter h.1 _, ?_, h.2.2⟩
  refine cellsWf_congr (cellsWf_filter h.2.1 _) fun c hc => ?_
  have hc := (List.mem_filter.1 hc).2
  have e : (decide (tier1Base ≤ c.1) && decide (c.1 < deviceBase)) = false := by simpa only [Bool.not_eq_true'] using hc
  have hn : ¬ (tier1Base ≤ c.1 ∧ c.1 < deviceBase) := by
    rintro ⟨h1, h2⟩
    simp [h1, h2] at e
  have hk : ¬ (tier1Base ≤ c.1 / 65536 * 65536 ∧ c.1 / 65536 * 65536 < deviceBase) := by
    have := range_key (a := c.1) rfl
    simp only [tier1Base, deviceBase] at hn ⊢
    omega
  have hg : AMap.get? s.loseTier1.ident.fill (c.1 / 65536) = AMap.get? s.ident.fill (c.1 / 65536) := by
    refine AMap.get?_filter _ _ _ fun v => ?_
    rw [Bool.not_eq_true', Bool.and_eq_false_iff, decide_eq_false_iff_not, decide_eq_false_iff_not]
    exact Decidable.not_and_iff_or_not.1 hk
  simp only [dflt, hg, e, Bool.false_eq_true, if_false]

theorem zeroStep_get? (m : AMap (Option Nat)) {g k : Nat} (hk : k ≠ g) :
    AMap.get? (if tier1Base ≤ g * 65536 && g * 65536 < deviceBase then AMap.put m g none else AMap.erase m g) k = AMap.get? m k := by
  split
  · rw [AMap.get?_put, if_neg hk]
  · exact AMap.get?_filter _ _ _ fun v => by simpa using hk

theorem wf_zeroRanges {s : State} (h : Memory.wf s = true) (gs : List Nat) : Memory.wf (s.zeroRanges gs) = true := by
  rw [wf_iff] at h ⊢
  have step : ∀ (m : AMap (Option Nat)) (g : Nat), fillWf m = true →
      fillWf (if tier1Base ≤ g * 65536 && g * 65536 < deviceBase then AMap.put m g none else AMap.erase m g) = true := by
    intro m g hm
    split
    · rename_i hc
      exact fillWf_put hm g none (by simp at hc; exact hc.1)
    · exact fillWf_filter hm _
  refine ⟨fillWf_foldl _ h.1 fun m g _ hm => step m g hm, ?_, h.2.2⟩
  refine cellsWf_congr (cellsWf_filter h.2.1 _) fun c hc => ?_
  have hc := (List.mem_filter.1 hc).2
  have hn : c.1 / 65536 ∉ gs := by simpa [List.contains_iff_mem] using hc
  have key : ∀ (gs : List Nat) (m : AMap (Option Nat)), fillWf m = true → c.1 / 65536 ∉ gs →
      AMap.get? (gs.foldl (fun m g =>
        if tier1Base ≤ g * 65536 && g * 65536 < deviceBase then AMap.put m g none else AMap.erase m g) m) (c.1 / 65536)
        = AMap.get? m (c.1 / 65536) := by
    intro gs
    induction gs with
    | nil => intros; rfl
    | cons g rest ih =>
      intro m hm hg
      rw [List.foldl_cons, ih _ (step m g hm) fun h => hg (List.mem_cons_of_mem _ h),
        zeroStep_get? _ fun h => hg (by rw [h]; exact List.mem_cons_self ..)]
  simp only [zeroRanges, dflt, key gs s.ident.fill h.1 hn]

end State

end Sys2Proof.Machine
end

