-- ==== Sys2Proof/Laws/State.lean ====
section
/-! SUPPORT. What each named update leaves: one lemma per component and update, and what is read after a write. -/

namespace Sys2Proof.Machine

namespace State

/-! ### `set` -/

@[simp] theorem set_pending (s : State) (f : Fld) (v : Nat) : (s.set f v).pending = s.pending := rfl
@[simp] theorem set_mem (s : State) (f : Fld) (v : Nat) : (s.set f v).mem = s.mem := rfl
@[simp] theorem set_hostMem (s : State) (f : Fld) (v : Nat) : (s.set f v).hostMem = s.hostMem := rfl
@[simp] theorem set_ident (s : State) (f : Fld) (v : Nat) : (s.set f v).ident = s.ident := rfl
@[simp] theorem set_time (s : State) (f : Fld) (v : Nat) : (s.set f v).time = s.time := rfl
@[simp] theorem set_tick (s : State) (f : Fld) (v : Nat) : (s.set f v).tick = s.tick := rfl
@[simp] theorem set_ec (s : State) (f : Fld) (v : Nat) : (s.set f v).ec = s.ec := rfl
@[simp] theorem set_letters (s : State) (f : Fld) (v : Nat) : (s.set f v).letters = s.letters := rfl
@[simp] theorem set_sorter (s : State) (f : Fld) (v : Nat) : (s.set f v).sorter = s.sorter := rfl
@[simp] theorem set_tiles (s : State) (f : Fld) (v : Nat) : (s.set f v).tiles = s.tiles := rfl
@[simp] theorem set_posts (s : State) (f : Fld) (v : Nat) : (s.set f v).posts = s.posts := rfl
@[simp] theorem set_power (s : State) (f : Fld) (v : Nat) : (s.set f v).power = s.power := rfl
@[simp] theorem set_start (s : State) (f : Fld) (v : Nat) : (s.set f v).start = s.start := rfl
@[simp] theorem set_repair (s : State) (f : Fld) (v : Nat) : (s.set f v).repair = s.repair := rfl
@[simp] theorem set_movers (s : State) (f : Fld) (v : Nat) : (s.set f v).movers = s.movers := rfl
@[simp] theorem set_flash (s : State) (f : Fld) (v : Nat) : (s.set f v).flash = s.flash := rfl
@[simp] theorem set_host (s : State) (f : Fld) (v : Nat) : (s.set f v).host = s.host := rfl
@[simp] theorem set_gate (s : State) (f : Fld) (v : Nat) : (s.set f v).gate = s.gate := rfl
@[simp] theorem set_tarle (s : State) (f : Fld) (v : Nat) : (s.set f v).tarle = s.tarle := rfl
@[simp] theorem set_devs (s : State) (f : Fld) (v : Nat) : (s.set f v).devs = s.devs := rfl
@[simp] theorem set_coh (s : State) (f : Fld) (v : Nat) : (s.set f v).coh = s.coh := rfl
@[simp] theorem set_xlat (s : State) (f : Fld) (v : Nat) : (s.set f v).xlat = s.xlat := rfl
@[simp] theorem set_order (s : State) (f : Fld) (v : Nat) : (s.set f v).order = s.order := rfl
@[simp] theorem set_harts (s : State) (f : Fld) (v : Nat) : (s.set f v).harts = s.harts := rfl
@[simp] theorem set_shadows (s : State) (f : Fld) (v : Nat) : (s.set f v).shadows = s.shadows := rfl
@[simp] theorem set_free (s : State) (f : Fld) (v : Nat) : (s.set f v).free = s.free := rfl
@[simp] theorem set_answer (s : State) (f : Fld) (v : Nat) : (s.set f v).answer = s.answer := rfl

/-! ### `bump` -/

@[simp] theorem bump_pending (s : State) (f : Fld) (n : Nat) : (s.bump f n).pending = s.pending := rfl
@[simp] theorem bump_mem (s : State) (f : Fld) (n : Nat) : (s.bump f n).mem = s.mem := rfl
@[simp] theorem bump_hostMem (s : State) (f : Fld) (n : Nat) : (s.bump f n).hostMem = s.hostMem := rfl
@[simp] theorem bump_ident (s : State) (f : Fld) (n : Nat) : (s.bump f n).ident = s.ident := rfl
@[simp] theorem bump_time (s : State) (f : Fld) (n : Nat) : (s.bump f n).time = s.time := rfl
@[simp] theorem bump_tick (s : State) (f : Fld) (n : Nat) : (s.bump f n).tick = s.tick := rfl
@[simp] theorem bump_ec (s : State) (f : Fld) (n : Nat) : (s.bump f n).ec = s.ec := rfl
@[simp] theorem bump_letters (s : State) (f : Fld) (n : Nat) : (s.bump f n).letters = s.letters := rfl
@[simp] theorem bump_sorter (s : State) (f : Fld) (n : Nat) : (s.bump f n).sorter = s.sorter := rfl
@[simp] theorem bump_tiles (s : State) (f : Fld) (n : Nat) : (s.bump f n).tiles = s.tiles := rfl
@[simp] theorem bump_posts (s : State) (f : Fld) (n : Nat) : (s.bump f n).posts = s.posts := rfl
@[simp] theorem bump_power (s : State) (f : Fld) (n : Nat) : (s.bump f n).power = s.power := rfl
@[simp] theorem bump_start (s : State) (f : Fld) (n : Nat) : (s.bump f n).start = s.start := rfl
@[simp] theorem bump_repair (s : State) (f : Fld) (n : Nat) : (s.bump f n).repair = s.repair := rfl
@[simp] theorem bump_movers (s : State) (f : Fld) (n : Nat) : (s.bump f n).movers = s.movers := rfl
@[simp] theorem bump_flash (s : State) (f : Fld) (n : Nat) : (s.bump f n).flash = s.flash := rfl
@[simp] theorem bump_host (s : State) (f : Fld) (n : Nat) : (s.bump f n).host = s.host := rfl
@[simp] theorem bump_gate (s : State) (f : Fld) (n : Nat) : (s.bump f n).gate = s.gate := rfl
@[simp] theorem bump_tarle (s : State) (f : Fld) (n : Nat) : (s.bump f n).tarle = s.tarle := rfl
@[simp] theorem bump_devs (s : State) (f : Fld) (n : Nat) : (s.bump f n).devs = s.devs := rfl
@[simp] theorem bump_coh (s : State) (f : Fld) (n : Nat) : (s.bump f n).coh = s.coh := rfl
@[simp] theorem bump_xlat (s : State) (f : Fld) (n : Nat) : (s.bump f n).xlat = s.xlat := rfl
@[simp] theorem bump_order (s : State) (f : Fld) (n : Nat) : (s.bump f n).order = s.order := rfl
@[simp] theorem bump_harts (s : State) (f : Fld) (n : Nat) : (s.bump f n).harts = s.harts := rfl
@[simp] theorem bump_shadows (s : State) (f : Fld) (n : Nat) : (s.bump f n).shadows = s.shadows := rfl
@[simp] theorem bump_free (s : State) (f : Fld) (n : Nat) : (s.bump f n).free = s.free := rfl
@[simp] theorem bump_answer (s : State) (f : Fld) (n : Nat) : (s.bump f n).answer = s.answer := rfl

/-! ### `raise` -/

@[simp] theorem raise_pending (s : State) (f : Fld) : (s.raise f).pending = s.pending := rfl
@[simp] theorem raise_mem (s : State) (f : Fld) : (s.raise f).mem = s.mem := rfl
@[simp] theorem raise_hostMem (s : State) (f : Fld) : (s.raise f).hostMem = s.hostMem := rfl
@[simp] theorem raise_ident (s : State) (f : Fld) : (s.raise f).ident = s.ident := rfl
@[simp] theorem raise_time (s : State) (f : Fld) : (s.raise f).time = s.time := rfl
@[simp] theorem raise_tick (s : State) (f : Fld) : (s.raise f).tick = s.tick := rfl
@[simp] theorem raise_ec (s : State) (f : Fld) : (s.raise f).ec = s.ec := rfl
@[simp] theorem raise_letters (s : State) (f : Fld) : (s.raise f).letters = s.letters := rfl
@[simp] theorem raise_sorter (s : State) (f : Fld) : (s.raise f).sorter = s.sorter := rfl
@[simp] theorem raise_tiles (s : State) (f : Fld) : (s.raise f).tiles = s.tiles := rfl
@[simp] theorem raise_posts (s : State) (f : Fld) : (s.raise f).posts = s.posts := rfl
@[simp] theorem raise_power (s : State) (f : Fld) : (s.raise f).power = s.power := rfl
@[simp] theorem raise_start (s : State) (f : Fld) : (s.raise f).start = s.start := rfl
@[simp] theorem raise_repair (s : State) (f : Fld) : (s.raise f).repair = s.repair := rfl
@[simp] theorem raise_movers (s : State) (f : Fld) : (s.raise f).movers = s.movers := rfl
@[simp] theorem raise_flash (s : State) (f : Fld) : (s.raise f).flash = s.flash := rfl
@[simp] theorem raise_host (s : State) (f : Fld) : (s.raise f).host = s.host := rfl
@[simp] theorem raise_gate (s : State) (f : Fld) : (s.raise f).gate = s.gate := rfl
@[simp] theorem raise_tarle (s : State) (f : Fld) : (s.raise f).tarle = s.tarle := rfl
@[simp] theorem raise_devs (s : State) (f : Fld) : (s.raise f).devs = s.devs := rfl
@[simp] theorem raise_coh (s : State) (f : Fld) : (s.raise f).coh = s.coh := rfl
@[simp] theorem raise_xlat (s : State) (f : Fld) : (s.raise f).xlat = s.xlat := rfl
@[simp] theorem raise_order (s : State) (f : Fld) : (s.raise f).order = s.order := rfl
@[simp] theorem raise_harts (s : State) (f : Fld) : (s.raise f).harts = s.harts := rfl
@[simp] theorem raise_shadows (s : State) (f : Fld) : (s.raise f).shadows = s.shadows := rfl
@[simp] theorem raise_free (s : State) (f : Fld) : (s.raise f).free = s.free := rfl
@[simp] theorem raise_answer (s : State) (f : Fld) : (s.raise f).answer = s.answer := rfl

/-! ### `setFlag` -/

@[simp] theorem setFlag_pending (s : State) (f : Fld) (b : Bool) : (s.setFlag f b).pending = s.pending := rfl
@[simp] theorem setFlag_mem (s : State) (f : Fld) (b : Bool) : (s.setFlag f b).mem = s.mem := rfl
@[simp] theorem setFlag_hostMem (s : State) (f : Fld) (b : Bool) : (s.setFlag f b).hostMem = s.hostMem := rfl
@[simp] theorem setFlag_ident (s : State) (f : Fld) (b : Bool) : (s.setFlag f b).ident = s.ident := rfl
@[simp] theorem setFlag_time (s : State) (f : Fld) (b : Bool) : (s.setFlag f b).time = s.time := rfl
@[simp] theorem setFlag_tick (s : State) (f : Fld) (b : Bool) : (s.setFlag f b).tick = s.tick := rfl
@[simp] theorem setFlag_ec (s : State) (f : Fld) (b : Bool) : (s.setFlag f b).ec = s.ec := rfl
@[simp] theorem setFlag_letters (s : State) (f : Fld) (b : Bool) : (s.setFlag f b).letters = s.letters := rfl
@[simp] theorem setFlag_sorter (s : State) (f : Fld) (b : Bool) : (s.setFlag f b).sorter = s.sorter := rfl
@[simp] theorem setFlag_tiles (s : State) (f : Fld) (b : Bool) : (s.setFlag f b).tiles = s.tiles := rfl
@[simp] theorem setFlag_posts (s : State) (f : Fld) (b : Bool) : (s.setFlag f b).posts = s.posts := rfl
@[simp] theorem setFlag_power (s : State) (f : Fld) (b : Bool) : (s.setFlag f b).power = s.power := rfl
@[simp] theorem setFlag_start (s : State) (f : Fld) (b : Bool) : (s.setFlag f b).start = s.start := rfl
@[simp] theorem setFlag_repair (s : State) (f : Fld) (b : Bool) : (s.setFlag f b).repair = s.repair := rfl
@[simp] theorem setFlag_movers (s : State) (f : Fld) (b : Bool) : (s.setFlag f b).movers = s.movers := rfl
@[simp] theorem setFlag_flash (s : State) (f : Fld) (b : Bool) : (s.setFlag f b).flash = s.flash := rfl
@[simp] theorem setFlag_host (s : State) (f : Fld) (b : Bool) : (s.setFlag f b).host = s.host := rfl
@[simp] theorem setFlag_gate (s : State) (f : Fld) (b : Bool) : (s.setFlag f b).gate = s.gate := rfl
@[simp] theorem setFlag_tarle (s : State) (f : Fld) (b : Bool) : (s.setFlag f b).tarle = s.tarle := rfl
@[simp] theorem setFlag_devs (s : State) (f : Fld) (b : Bool) : (s.setFlag f b).devs = s.devs := rfl
@[simp] theorem setFlag_coh (s : State) (f : Fld) (b : Bool) : (s.setFlag f b).coh = s.coh := rfl
@[simp] theorem setFlag_xlat (s : State) (f : Fld) (b : Bool) : (s.setFlag f b).xlat = s.xlat := rfl
@[simp] theorem setFlag_order (s : State) (f : Fld) (b : Bool) : (s.setFlag f b).order = s.order := rfl
@[simp] theorem setFlag_harts (s : State) (f : Fld) (b : Bool) : (s.setFlag f b).harts = s.harts := rfl
@[simp] theorem setFlag_shadows (s : State) (f : Fld) (b : Bool) : (s.setFlag f b).shadows = s.shadows := rfl
@[simp] theorem setFlag_free (s : State) (f : Fld) (b : Bool) : (s.setFlag f b).free = s.free := rfl
@[simp] theorem setFlag_answer (s : State) (f : Fld) (b : Bool) : (s.setFlag f b).answer = s.answer := rfl

/-! ### `onTile` -/

@[simp] theorem onTile_pending (s : State) (t : Nat) (f : Tile → Tile) : (s.onTile t f).pending = s.pending := rfl
@[simp] theorem onTile_flds (s : State) (t : Nat) (f : Tile → Tile) : (s.onTile t f).flds = s.flds := rfl
@[simp] theorem onTile_mem (s : State) (t : Nat) (f : Tile → Tile) : (s.onTile t f).mem = s.mem := rfl
@[simp] theorem onTile_hostMem (s : State) (t : Nat) (f : Tile → Tile) : (s.onTile t f).hostMem = s.hostMem := rfl
@[simp] theorem onTile_ident (s : State) (t : Nat) (f : Tile → Tile) : (s.onTile t f).ident = s.ident := rfl
@[simp] theorem onTile_time (s : State) (t : Nat) (f : Tile → Tile) : (s.onTile t f).time = s.time := rfl
@[simp] theorem onTile_tick (s : State) (t : Nat) (f : Tile → Tile) : (s.onTile t f).tick = s.tick := rfl
@[simp] theorem onTile_ec (s : State) (t : Nat) (f : Tile → Tile) : (s.onTile t f).ec = s.ec := rfl
@[simp] theorem onTile_letters (s : State) (t : Nat) (f : Tile → Tile) : (s.onTile t f).letters = s.letters := rfl
@[simp] theorem onTile_sorter (s : State) (t : Nat) (f : Tile → Tile) : (s.onTile t f).sorter = s.sorter := rfl
@[simp] theorem onTile_posts (s : State) (t : Nat) (f : Tile → Tile) : (s.onTile t f).posts = s.posts := rfl
@[simp] theorem onTile_power (s : State) (t : Nat) (f : Tile → Tile) : (s.onTile t f).power = s.power := rfl
@[simp] theorem onTile_start (s : State) (t : Nat) (f : Tile → Tile) : (s.onTile t f).start = s.start := rfl
@[simp] theorem onTile_repair (s : State) (t : Nat) (f : Tile → Tile) : (s.onTile t f).repair = s.repair := rfl
@[simp] theorem onTile_movers (s : State) (t : Nat) (f : Tile → Tile) : (s.onTile t f).movers = s.movers := rfl
@[simp] theorem onTile_flash (s : State) (t : Nat) (f : Tile → Tile) : (s.onTile t f).flash = s.flash := rfl
@[simp] theorem onTile_host (s : State) (t : Nat) (f : Tile → Tile) : (s.onTile t f).host = s.host := rfl
@[simp] theorem onTile_gate (s : State) (t : Nat) (f : Tile → Tile) : (s.onTile t f).gate = s.gate := rfl
@[simp] theorem onTile_tarle (s : State) (t : Nat) (f : Tile → Tile) : (s.onTile t f).tarle = s.tarle := rfl
@[simp] theorem onTile_devs (s : State) (t : Nat) (f : Tile → Tile) : (s.onTile t f).devs = s.devs := rfl
@[simp] theorem onTile_coh (s : State) (t : Nat) (f : Tile → Tile) : (s.onTile t f).coh = s.coh := rfl
@[simp] theorem onTile_xlat (s : State) (t : Nat) (f : Tile → Tile) : (s.onTile t f).xlat = s.xlat := rfl
@[simp] theorem onTile_order (s : State) (t : Nat) (f : Tile → Tile) : (s.onTile t f).order = s.order := rfl
@[simp] theorem onTile_harts (s : State) (t : Nat) (f : Tile → Tile) : (s.onTile t f).harts = s.harts := rfl
@[simp] theorem onTile_shadows (s : State) (t : Nat) (f : Tile → Tile) : (s.onTile t f).shadows = s.shadows := rfl
@[simp] theorem onTile_free (s : State) (t : Nat) (f : Tile → Tile) : (s.onTile t f).free = s.free := rfl
@[simp] theorem onTile_answer (s : State) (t : Nat) (f : Tile → Tile) : (s.onTile t f).answer = s.answer := rfl

/-! ### `onPigeon` -/

@[simp] theorem onPigeon_pending (s : State) (q : Nat) (f : Pigeon → Pigeon) : (s.onPigeon q f).pending = s.pending := rfl
@[simp] theorem onPigeon_flds (s : State) (q : Nat) (f : Pigeon → Pigeon) : (s.onPigeon q f).flds = s.flds := rfl
@[simp] theorem onPigeon_mem (s : State) (q : Nat) (f : Pigeon → Pigeon) : (s.onPigeon q f).mem = s.mem := rfl
@[simp] theorem onPigeon_hostMem (s : State) (q : Nat) (f : Pigeon → Pigeon) : (s.onPigeon q f).hostMem = s.hostMem := rfl
@[simp] theorem onPigeon_ident (s : State) (q : Nat) (f : Pigeon → Pigeon) : (s.onPigeon q f).ident = s.ident := rfl
@[simp] theorem onPigeon_time (s : State) (q : Nat) (f : Pigeon → Pigeon) : (s.onPigeon q f).time = s.time := rfl
@[simp] theorem onPigeon_tick (s : State) (q : Nat) (f : Pigeon → Pigeon) : (s.onPigeon q f).tick = s.tick := rfl
@[simp] theorem onPigeon_ec (s : State) (q : Nat) (f : Pigeon → Pigeon) : (s.onPigeon q f).ec = s.ec := rfl
@[simp] theorem onPigeon_letters (s : State) (q : Nat) (f : Pigeon → Pigeon) : (s.onPigeon q f).letters = s.letters := rfl
@[simp] theorem onPigeon_tiles (s : State) (q : Nat) (f : Pigeon → Pigeon) : (s.onPigeon q f).tiles = s.tiles := rfl
@[simp] theorem onPigeon_posts (s : State) (q : Nat) (f : Pigeon → Pigeon) : (s.onPigeon q f).posts = s.posts := rfl
@[simp] theorem onPigeon_power (s : State) (q : Nat) (f : Pigeon → Pigeon) : (s.onPigeon q f).power = s.power := rfl
@[simp] theorem onPigeon_start (s : State) (q : Nat) (f : Pigeon → Pigeon) : (s.onPigeon q f).start = s.start := rfl
@[simp] theorem onPigeon_repair (s : State) (q : Nat) (f : Pigeon → Pigeon) : (s.onPigeon q f).repair = s.repair := rfl
@[simp] theorem onPigeon_movers (s : State) (q : Nat) (f : Pigeon → Pigeon) : (s.onPigeon q f).movers = s.movers := rfl
@[simp] theorem onPigeon_flash (s : State) (q : Nat) (f : Pigeon → Pigeon) : (s.onPigeon q f).flash = s.flash := rfl
@[simp] theorem onPigeon_host (s : State) (q : Nat) (f : Pigeon → Pigeon) : (s.onPigeon q f).host = s.host := rfl
@[simp] theorem onPigeon_gate (s : State) (q : Nat) (f : Pigeon → Pigeon) : (s.onPigeon q f).gate = s.gate := rfl
@[simp] theorem onPigeon_tarle (s : State) (q : Nat) (f : Pigeon → Pigeon) : (s.onPigeon q f).tarle = s.tarle := rfl
@[simp] theorem onPigeon_devs (s : State) (q : Nat) (f : Pigeon → Pigeon) : (s.onPigeon q f).devs = s.devs := rfl
@[simp] theorem onPigeon_coh (s : State) (q : Nat) (f : Pigeon → Pigeon) : (s.onPigeon q f).coh = s.coh := rfl
@[simp] theorem onPigeon_xlat (s : State) (q : Nat) (f : Pigeon → Pigeon) : (s.onPigeon q f).xlat = s.xlat := rfl
@[simp] theorem onPigeon_order (s : State) (q : Nat) (f : Pigeon → Pigeon) : (s.onPigeon q f).order = s.order := rfl
@[simp] theorem onPigeon_harts (s : State) (q : Nat) (f : Pigeon → Pigeon) : (s.onPigeon q f).harts = s.harts := rfl
@[simp] theorem onPigeon_shadows (s : State) (q : Nat) (f : Pigeon → Pigeon) : (s.onPigeon q f).shadows = s.shadows := rfl
@[simp] theorem onPigeon_free (s : State) (q : Nat) (f : Pigeon → Pigeon) : (s.onPigeon q f).free = s.free := rfl
@[simp] theorem onPigeon_answer (s : State) (q : Nat) (f : Pigeon → Pigeon) : (s.onPigeon q f).answer = s.answer := rfl

/-! ### `onRing` -/

@[simp] theorem onRing_pending (s : State) (r : Nat) (f : Ring → Ring) : (s.onRing r f).pending = s.pending := rfl
@[simp] theorem onRing_flds (s : State) (r : Nat) (f : Ring → Ring) : (s.onRing r f).flds = s.flds := rfl
@[simp] theorem onRing_mem (s : State) (r : Nat) (f : Ring → Ring) : (s.onRing r f).mem = s.mem := rfl
@[simp] theorem onRing_hostMem (s : State) (r : Nat) (f : Ring → Ring) : (s.onRing r f).hostMem = s.hostMem := rfl
@[simp] theorem onRing_ident (s : State) (r : Nat) (f : Ring → Ring) : (s.onRing r f).ident = s.ident := rfl
@[simp] theorem onRing_time (s : State) (r : Nat) (f : Ring → Ring) : (s.onRing r f).time = s.time := rfl
@[simp] theorem onRing_tick (s : State) (r : Nat) (f : Ring → Ring) : (s.onRing r f).tick = s.tick := rfl
@[simp] theorem onRing_ec (s : State) (r : Nat) (f : Ring → Ring) : (s.onRing r f).ec = s.ec := rfl
@[simp] theorem onRing_letters (s : State) (r : Nat) (f : Ring → Ring) : (s.onRing r f).letters = s.letters := rfl
@[simp] theorem onRing_tiles (s : State) (r : Nat) (f : Ring → Ring) : (s.onRing r f).tiles = s.tiles := rfl
@[simp] theorem onRing_posts (s : State) (r : Nat) (f : Ring → Ring) : (s.onRing r f).posts = s.posts := rfl
@[simp] theorem onRing_power (s : State) (r : Nat) (f : Ring → Ring) : (s.onRing r f).power = s.power := rfl
@[simp] theorem onRing_start (s : State) (r : Nat) (f : Ring → Ring) : (s.onRing r f).start = s.start := rfl
@[simp] theorem onRing_repair (s : State) (r : Nat) (f : Ring → Ring) : (s.onRing r f).repair = s.repair := rfl
@[simp] theorem onRing_movers (s : State) (r : Nat) (f : Ring → Ring) : (s.onRing r f).movers = s.movers := rfl
@[simp] theorem onRing_flash (s : State) (r : Nat) (f : Ring → Ring) : (s.onRing r f).flash = s.flash := rfl
@[simp] theorem onRing_host (s : State) (r : Nat) (f : Ring → Ring) : (s.onRing r f).host = s.host := rfl
@[simp] theorem onRing_gate (s : State) (r : Nat) (f : Ring → Ring) : (s.onRing r f).gate = s.gate := rfl
@[simp] theorem onRing_tarle (s : State) (r : Nat) (f : Ring → Ring) : (s.onRing r f).tarle = s.tarle := rfl
@[simp] theorem onRing_devs (s : State) (r : Nat) (f : Ring → Ring) : (s.onRing r f).devs = s.devs := rfl
@[simp] theorem onRing_coh (s : State) (r : Nat) (f : Ring → Ring) : (s.onRing r f).coh = s.coh := rfl
@[simp] theorem onRing_xlat (s : State) (r : Nat) (f : Ring → Ring) : (s.onRing r f).xlat = s.xlat := rfl
@[simp] theorem onRing_order (s : State) (r : Nat) (f : Ring → Ring) : (s.onRing r f).order = s.order := rfl
@[simp] theorem onRing_harts (s : State) (r : Nat) (f : Ring → Ring) : (s.onRing r f).harts = s.harts := rfl
@[simp] theorem onRing_shadows (s : State) (r : Nat) (f : Ring → Ring) : (s.onRing r f).shadows = s.shadows := rfl
@[simp] theorem onRing_free (s : State) (r : Nat) (f : Ring → Ring) : (s.onRing r f).free = s.free := rfl
@[simp] theorem onRing_answer (s : State) (r : Nat) (f : Ring → Ring) : (s.onRing r f).answer = s.answer := rfl

/-! ### `onTset` -/

@[simp] theorem onTset_pending (s : State) (n : Nat) (f : TSet → TSet) : (s.onTset n f).pending = s.pending := rfl
@[simp] theorem onTset_flds (s : State) (n : Nat) (f : TSet → TSet) : (s.onTset n f).flds = s.flds := rfl
@[simp] theorem onTset_mem (s : State) (n : Nat) (f : TSet → TSet) : (s.onTset n f).mem = s.mem := rfl
@[simp] theorem onTset_hostMem (s : State) (n : Nat) (f : TSet → TSet) : (s.onTset n f).hostMem = s.hostMem := rfl
@[simp] theorem onTset_ident (s : State) (n : Nat) (f : TSet → TSet) : (s.onTset n f).ident = s.ident := rfl
@[simp] theorem onTset_time (s : State) (n : Nat) (f : TSet → TSet) : (s.onTset n f).time = s.time := rfl
@[simp] theorem onTset_tick (s : State) (n : Nat) (f : TSet → TSet) : (s.onTset n f).tick = s.tick := rfl
@[simp] theorem onTset_ec (s : State) (n : Nat) (f : TSet → TSet) : (s.onTset n f).ec = s.ec := rfl
@[simp] theorem onTset_letters (s : State) (n : Nat) (f : TSet → TSet) : (s.onTset n f).letters = s.letters := rfl
@[simp] theorem onTset_tiles (s : State) (n : Nat) (f : TSet → TSet) : (s.onTset n f).tiles = s.tiles := rfl
@[simp] theorem onTset_posts (s : State) (n : Nat) (f : TSet → TSet) : (s.onTset n f).posts = s.posts := rfl
@[simp] theorem onTset_power (s : State) (n : Nat) (f : TSet → TSet) : (s.onTset n f).power = s.power := rfl
@[simp] theorem onTset_start (s : State) (n : Nat) (f : TSet → TSet) : (s.onTset n f).start = s.start := rfl
@[simp] theorem onTset_repair (s : State) (n : Nat) (f : TSet → TSet) : (s.onTset n f).repair = s.repair := rfl
@[simp] theorem onTset_movers (s : State) (n : Nat) (f : TSet → TSet) : (s.onTset n f).movers = s.movers := rfl
@[simp] theorem onTset_flash (s : State) (n : Nat) (f : TSet → TSet) : (s.onTset n f).flash = s.flash := rfl
@[simp] theorem onTset_host (s : State) (n : Nat) (f : TSet → TSet) : (s.onTset n f).host = s.host := rfl
@[simp] theorem onTset_gate (s : State) (n : Nat) (f : TSet → TSet) : (s.onTset n f).gate = s.gate := rfl
@[simp] theorem onTset_tarle (s : State) (n : Nat) (f : TSet → TSet) : (s.onTset n f).tarle = s.tarle := rfl
@[simp] theorem onTset_devs (s : State) (n : Nat) (f : TSet → TSet) : (s.onTset n f).devs = s.devs := rfl
@[simp] theorem onTset_coh (s : State) (n : Nat) (f : TSet → TSet) : (s.onTset n f).coh = s.coh := rfl
@[simp] theorem onTset_xlat (s : State) (n : Nat) (f : TSet → TSet) : (s.onTset n f).xlat = s.xlat := rfl
@[simp] theorem onTset_order (s : State) (n : Nat) (f : TSet → TSet) : (s.onTset n f).order = s.order := rfl
@[simp] theorem onTset_harts (s : State) (n : Nat) (f : TSet → TSet) : (s.onTset n f).harts = s.harts := rfl
@[simp] theorem onTset_shadows (s : State) (n : Nat) (f : TSet → TSet) : (s.onTset n f).shadows = s.shadows := rfl
@[simp] theorem onTset_free (s : State) (n : Nat) (f : TSet → TSet) : (s.onTset n f).free = s.free := rfl
@[simp] theorem onTset_answer (s : State) (n : Nat) (f : TSet → TSet) : (s.onTset n f).answer = s.answer := rfl

/-! ### `onFlight` -/

@[simp] theorem onFlight_pending (s : State) (q n : Nat) (f : Flight → Flight) : (s.onFlight q n f).pending = s.pending := rfl
@[simp] theorem onFlight_flds (s : State) (q n : Nat) (f : Flight → Flight) : (s.onFlight q n f).flds = s.flds := rfl
@[simp] theorem onFlight_mem (s : State) (q n : Nat) (f : Flight → Flight) : (s.onFlight q n f).mem = s.mem := rfl
@[simp] theorem onFlight_hostMem (s : State) (q n : Nat) (f : Flight → Flight) : (s.onFlight q n f).hostMem = s.hostMem := rfl
@[simp] theorem onFlight_ident (s : State) (q n : Nat) (f : Flight → Flight) : (s.onFlight q n f).ident = s.ident := rfl
@[simp] theorem onFlight_time (s : State) (q n : Nat) (f : Flight → Flight) : (s.onFlight q n f).time = s.time := rfl
@[simp] theorem onFlight_tick (s : State) (q n : Nat) (f : Flight → Flight) : (s.onFlight q n f).tick = s.tick := rfl
@[simp] theorem onFlight_ec (s : State) (q n : Nat) (f : Flight → Flight) : (s.onFlight q n f).ec = s.ec := rfl
@[simp] theorem onFlight_letters (s : State) (q n : Nat) (f : Flight → Flight) : (s.onFlight q n f).letters = s.letters := rfl
@[simp] theorem onFlight_tiles (s : State) (q n : Nat) (f : Flight → Flight) : (s.onFlight q n f).tiles = s.tiles := rfl
@[simp] theorem onFlight_posts (s : State) (q n : Nat) (f : Flight → Flight) : (s.onFlight q n f).posts = s.posts := rfl
@[simp] theorem onFlight_power (s : State) (q n : Nat) (f : Flight → Flight) : (s.onFlight q n f).power = s.power := rfl
@[simp] theorem onFlight_start (s : State) (q n : Nat) (f : Flight → Flight) : (s.onFlight q n f).start = s.start := rfl
@[simp] theorem onFlight_repair (s : State) (q n : Nat) (f : Flight → Flight) : (s.onFlight q n f).repair = s.repair := rfl
@[simp] theorem onFlight_movers (s : State) (q n : Nat) (f : Flight → Flight) : (s.onFlight q n f).movers = s.movers := rfl
@[simp] theorem onFlight_flash (s : State) (q n : Nat) (f : Flight → Flight) : (s.onFlight q n f).flash = s.flash := rfl
@[simp] theorem onFlight_host (s : State) (q n : Nat) (f : Flight → Flight) : (s.onFlight q n f).host = s.host := rfl
@[simp] theorem onFlight_gate (s : State) (q n : Nat) (f : Flight → Flight) : (s.onFlight q n f).gate = s.gate := rfl
@[simp] theorem onFlight_tarle (s : State) (q n : Nat) (f : Flight → Flight) : (s.onFlight q n f).tarle = s.tarle := rfl
@[simp] theorem onFlight_devs (s : State) (q n : Nat) (f : Flight → Flight) : (s.onFlight q n f).devs = s.devs := rfl
@[simp] theorem onFlight_coh (s : State) (q n : Nat) (f : Flight → Flight) : (s.onFlight q n f).coh = s.coh := rfl
@[simp] theorem onFlight_xlat (s : State) (q n : Nat) (f : Flight → Flight) : (s.onFlight q n f).xlat = s.xlat := rfl
@[simp] theorem onFlight_order (s : State) (q n : Nat) (f : Flight → Flight) : (s.onFlight q n f).order = s.order := rfl
@[simp] theorem onFlight_harts (s : State) (q n : Nat) (f : Flight → Flight) : (s.onFlight q n f).harts = s.harts := rfl
@[simp] theorem onFlight_shadows (s : State) (q n : Nat) (f : Flight → Flight) : (s.onFlight q n f).shadows = s.shadows := rfl
@[simp] theorem onFlight_free (s : State) (q n : Nat) (f : Flight → Flight) : (s.onFlight q n f).free = s.free := rfl
@[simp] theorem onFlight_answer (s : State) (q n : Nat) (f : Flight → Flight) : (s.onFlight q n f).answer = s.answer := rfl

/-! ### `onDev` -/

@[simp] theorem onDev_pending (s : State) (d : Nat) (f : MemDev → MemDev) : (s.onDev d f).pending = s.pending := rfl
@[simp] theorem onDev_flds (s : State) (d : Nat) (f : MemDev → MemDev) : (s.onDev d f).flds = s.flds := rfl
@[simp] theorem onDev_mem (s : State) (d : Nat) (f : MemDev → MemDev) : (s.onDev d f).mem = s.mem := rfl
@[simp] theorem onDev_hostMem (s : State) (d : Nat) (f : MemDev → MemDev) : (s.onDev d f).hostMem = s.hostMem := rfl
@[simp] theorem onDev_ident (s : State) (d : Nat) (f : MemDev → MemDev) : (s.onDev d f).ident = s.ident := rfl
@[simp] theorem onDev_time (s : State) (d : Nat) (f : MemDev → MemDev) : (s.onDev d f).time = s.time := rfl
@[simp] theorem onDev_tick (s : State) (d : Nat) (f : MemDev → MemDev) : (s.onDev d f).tick = s.tick := rfl
@[simp] theorem onDev_ec (s : State) (d : Nat) (f : MemDev → MemDev) : (s.onDev d f).ec = s.ec := rfl
@[simp] theorem onDev_letters (s : State) (d : Nat) (f : MemDev → MemDev) : (s.onDev d f).letters = s.letters := rfl
@[simp] theorem onDev_sorter (s : State) (d : Nat) (f : MemDev → MemDev) : (s.onDev d f).sorter = s.sorter := rfl
@[simp] theorem onDev_tiles (s : State) (d : Nat) (f : MemDev → MemDev) : (s.onDev d f).tiles = s.tiles := rfl
@[simp] theorem onDev_posts (s : State) (d : Nat) (f : MemDev → MemDev) : (s.onDev d f).posts = s.posts := rfl
@[simp] theorem onDev_power (s : State) (d : Nat) (f : MemDev → MemDev) : (s.onDev d f).power = s.power := rfl
@[simp] theorem onDev_start (s : State) (d : Nat) (f : MemDev → MemDev) : (s.onDev d f).start = s.start := rfl
@[simp] theorem onDev_repair (s : State) (d : Nat) (f : MemDev → MemDev) : (s.onDev d f).repair = s.repair := rfl
@[simp] theorem onDev_movers (s : State) (d : Nat) (f : MemDev → MemDev) : (s.onDev d f).movers = s.movers := rfl
@[simp] theorem onDev_flash (s : State) (d : Nat) (f : MemDev → MemDev) : (s.onDev d f).flash = s.flash := rfl
@[simp] theorem onDev_host (s : State) (d : Nat) (f : MemDev → MemDev) : (s.onDev d f).host = s.host := rfl
@[simp] theorem onDev_gate (s : State) (d : Nat) (f : MemDev → MemDev) : (s.onDev d f).gate = s.gate := rfl
@[simp] theorem onDev_tarle (s : State) (d : Nat) (f : MemDev → MemDev) : (s.onDev d f).tarle = s.tarle := rfl
@[simp] theorem onDev_coh (s : State) (d : Nat) (f : MemDev → MemDev) : (s.onDev d f).coh = s.coh := rfl
@[simp] theorem onDev_xlat (s : State) (d : Nat) (f : MemDev → MemDev) : (s.onDev d f).xlat = s.xlat := rfl
@[simp] theorem onDev_order (s : State) (d : Nat) (f : MemDev → MemDev) : (s.onDev d f).order = s.order := rfl
@[simp] theorem onDev_harts (s : State) (d : Nat) (f : MemDev → MemDev) : (s.onDev d f).harts = s.harts := rfl
@[simp] theorem onDev_shadows (s : State) (d : Nat) (f : MemDev → MemDev) : (s.onDev d f).shadows = s.shadows := rfl
@[simp] theorem onDev_free (s : State) (d : Nat) (f : MemDev → MemDev) : (s.onDev d f).free = s.free := rfl
@[simp] theorem onDev_answer (s : State) (d : Nat) (f : MemDev → MemDev) : (s.onDev d f).answer = s.answer := rfl

/-! ### `onHart` -/

@[simp] theorem onHart_pending (s : State) (h : Nat) (f : Hart → Hart) : (s.onHart h f).pending = s.pending := rfl
@[simp] theorem onHart_flds (s : State) (h : Nat) (f : Hart → Hart) : (s.onHart h f).flds = s.flds := rfl
@[simp] theorem onHart_mem (s : State) (h : Nat) (f : Hart → Hart) : (s.onHart h f).mem = s.mem := rfl
@[simp] theorem onHart_hostMem (s : State) (h : Nat) (f : Hart → Hart) : (s.onHart h f).hostMem = s.hostMem := rfl
@[simp] theorem onHart_ident (s : State) (h : Nat) (f : Hart → Hart) : (s.onHart h f).ident = s.ident := rfl
@[simp] theorem onHart_time (s : State) (h : Nat) (f : Hart → Hart) : (s.onHart h f).time = s.time := rfl
@[simp] theorem onHart_tick (s : State) (h : Nat) (f : Hart → Hart) : (s.onHart h f).tick = s.tick := rfl
@[simp] theorem onHart_ec (s : State) (h : Nat) (f : Hart → Hart) : (s.onHart h f).ec = s.ec := rfl
@[simp] theorem onHart_letters (s : State) (h : Nat) (f : Hart → Hart) : (s.onHart h f).letters = s.letters := rfl
@[simp] theorem onHart_sorter (s : State) (h : Nat) (f : Hart → Hart) : (s.onHart h f).sorter = s.sorter := rfl
@[simp] theorem onHart_tiles (s : State) (h : Nat) (f : Hart → Hart) : (s.onHart h f).tiles = s.tiles := rfl
@[simp] theorem onHart_posts (s : State) (h : Nat) (f : Hart → Hart) : (s.onHart h f).posts = s.posts := rfl
@[simp] theorem onHart_power (s : State) (h : Nat) (f : Hart → Hart) : (s.onHart h f).power = s.power := rfl
@[simp] theorem onHart_start (s : State) (h : Nat) (f : Hart → Hart) : (s.onHart h f).start = s.start := rfl
@[simp] theorem onHart_repair (s : State) (h : Nat) (f : Hart → Hart) : (s.onHart h f).repair = s.repair := rfl
@[simp] theorem onHart_movers (s : State) (h : Nat) (f : Hart → Hart) : (s.onHart h f).movers = s.movers := rfl
@[simp] theorem onHart_flash (s : State) (h : Nat) (f : Hart → Hart) : (s.onHart h f).flash = s.flash := rfl
@[simp] theorem onHart_host (s : State) (h : Nat) (f : Hart → Hart) : (s.onHart h f).host = s.host := rfl
@[simp] theorem onHart_gate (s : State) (h : Nat) (f : Hart → Hart) : (s.onHart h f).gate = s.gate := rfl
@[simp] theorem onHart_tarle (s : State) (h : Nat) (f : Hart → Hart) : (s.onHart h f).tarle = s.tarle := rfl
@[simp] theorem onHart_devs (s : State) (h : Nat) (f : Hart → Hart) : (s.onHart h f).devs = s.devs := rfl
@[simp] theorem onHart_coh (s : State) (h : Nat) (f : Hart → Hart) : (s.onHart h f).coh = s.coh := rfl
@[simp] theorem onHart_xlat (s : State) (h : Nat) (f : Hart → Hart) : (s.onHart h f).xlat = s.xlat := rfl
@[simp] theorem onHart_order (s : State) (h : Nat) (f : Hart → Hart) : (s.onHart h f).order = s.order := rfl
@[simp] theorem onHart_shadows (s : State) (h : Nat) (f : Hart → Hart) : (s.onHart h f).shadows = s.shadows := rfl
@[simp] theorem onHart_free (s : State) (h : Nat) (f : Hart → Hart) : (s.onHart h f).free = s.free := rfl
@[simp] theorem onHart_answer (s : State) (h : Nat) (f : Hart → Hart) : (s.onHart h f).answer = s.answer := rfl

/-! ### `onCore` -/

@[simp] theorem onCore_pending (s : State) (t : Nat) (f : CoreSt → CoreSt) : (s.onCore t f).pending = s.pending := rfl
@[simp] theorem onCore_flds (s : State) (t : Nat) (f : CoreSt → CoreSt) : (s.onCore t f).flds = s.flds := rfl
@[simp] theorem onCore_mem (s : State) (t : Nat) (f : CoreSt → CoreSt) : (s.onCore t f).mem = s.mem := rfl
@[simp] theorem onCore_hostMem (s : State) (t : Nat) (f : CoreSt → CoreSt) : (s.onCore t f).hostMem = s.hostMem := rfl
@[simp] theorem onCore_ident (s : State) (t : Nat) (f : CoreSt → CoreSt) : (s.onCore t f).ident = s.ident := rfl
@[simp] theorem onCore_time (s : State) (t : Nat) (f : CoreSt → CoreSt) : (s.onCore t f).time = s.time := rfl
@[simp] theorem onCore_tick (s : State) (t : Nat) (f : CoreSt → CoreSt) : (s.onCore t f).tick = s.tick := rfl
@[simp] theorem onCore_ec (s : State) (t : Nat) (f : CoreSt → CoreSt) : (s.onCore t f).ec = s.ec := rfl
@[simp] theorem onCore_letters (s : State) (t : Nat) (f : CoreSt → CoreSt) : (s.onCore t f).letters = s.letters := rfl
@[simp] theorem onCore_sorter (s : State) (t : Nat) (f : CoreSt → CoreSt) : (s.onCore t f).sorter = s.sorter := rfl
@[simp] theorem onCore_posts (s : State) (t : Nat) (f : CoreSt → CoreSt) : (s.onCore t f).posts = s.posts := rfl
@[simp] theorem onCore_power (s : State) (t : Nat) (f : CoreSt → CoreSt) : (s.onCore t f).power = s.power := rfl
@[simp] theorem onCore_start (s : State) (t : Nat) (f : CoreSt → CoreSt) : (s.onCore t f).start = s.start := rfl
@[simp] theorem onCore_repair (s : State) (t : Nat) (f : CoreSt → CoreSt) : (s.onCore t f).repair = s.repair := rfl
@[simp] theorem onCore_movers (s : State) (t : Nat) (f : CoreSt → CoreSt) : (s.onCore t f).movers = s.movers := rfl
@[simp] theorem onCore_flash (s : State) (t : Nat) (f : CoreSt → CoreSt) : (s.onCore t f).flash = s.flash := rfl
@[simp] theorem onCore_host (s : State) (t : Nat) (f : CoreSt → CoreSt) : (s.onCore t f).host = s.host := rfl
@[simp] theorem onCore_gate (s : State) (t : Nat) (f : CoreSt → CoreSt) : (s.onCore t f).gate = s.gate := rfl
@[simp] theorem onCore_tarle (s : State) (t : Nat) (f : CoreSt → CoreSt) : (s.onCore t f).tarle = s.tarle := rfl
@[simp] theorem onCore_devs (s : State) (t : Nat) (f : CoreSt → CoreSt) : (s.onCore t f).devs = s.devs := rfl
@[simp] theorem onCore_coh (s : State) (t : Nat) (f : CoreSt → CoreSt) : (s.onCore t f).coh = s.coh := rfl
@[simp] theorem onCore_xlat (s : State) (t : Nat) (f : CoreSt → CoreSt) : (s.onCore t f).xlat = s.xlat := rfl
@[simp] theorem onCore_order (s : State) (t : Nat) (f : CoreSt → CoreSt) : (s.onCore t f).order = s.order := rfl
@[simp] theorem onCore_harts (s : State) (t : Nat) (f : CoreSt → CoreSt) : (s.onCore t f).harts = s.harts := rfl
@[simp] theorem onCore_shadows (s : State) (t : Nat) (f : CoreSt → CoreSt) : (s.onCore t f).shadows = s.shadows := rfl
@[simp] theorem onCore_free (s : State) (t : Nat) (f : CoreSt → CoreSt) : (s.onCore t f).free = s.free := rfl
@[simp] theorem onCore_answer (s : State) (t : Nat) (f : CoreSt → CoreSt) : (s.onCore t f).answer = s.answer := rfl

/-! ### `onEngine` -/

@[simp] theorem onEngine_pending (s : State) (t : Nat) (e : Engine) (f : EngineSt → EngineSt) : (s.onEngine t e f).pending = s.pending := rfl
@[simp] theorem onEngine_flds (s : State) (t : Nat) (e : Engine) (f : EngineSt → EngineSt) : (s.onEngine t e f).flds = s.flds := rfl
@[simp] theorem onEngine_mem (s : State) (t : Nat) (e : Engine) (f : EngineSt → EngineSt) : (s.onEngine t e f).mem = s.mem := rfl
@[simp] theorem onEngine_hostMem (s : State) (t : Nat) (e : Engine) (f : EngineSt → EngineSt) : (s.onEngine t e f).hostMem = s.hostMem := rfl
@[simp] theorem onEngine_ident (s : State) (t : Nat) (e : Engine) (f : EngineSt → EngineSt) : (s.onEngine t e f).ident = s.ident := rfl
@[simp] theorem onEngine_time (s : State) (t : Nat) (e : Engine) (f : EngineSt → EngineSt) : (s.onEngine t e f).time = s.time := rfl
@[simp] theorem onEngine_tick (s : State) (t : Nat) (e : Engine) (f : EngineSt → EngineSt) : (s.onEngine t e f).tick = s.tick := rfl
@[simp] theorem onEngine_ec (s : State) (t : Nat) (e : Engine) (f : EngineSt → EngineSt) : (s.onEngine t e f).ec = s.ec := rfl
@[simp] theorem onEngine_letters (s : State) (t : Nat) (e : Engine) (f : EngineSt → EngineSt) : (s.onEngine t e f).letters = s.letters := rfl
@[simp] theorem onEngine_sorter (s : State) (t : Nat) (e : Engine) (f : EngineSt → EngineSt) : (s.onEngine t e f).sorter = s.sorter := rfl
@[simp] theorem onEngine_posts (s : State) (t : Nat) (e : Engine) (f : EngineSt → EngineSt) : (s.onEngine t e f).posts = s.posts := rfl
@[simp] theorem onEngine_power (s : State) (t : Nat) (e : Engine) (f : EngineSt → EngineSt) : (s.onEngine t e f).power = s.power := rfl
@[simp] theorem onEngine_start (s : State) (t : Nat) (e : Engine) (f : EngineSt → EngineSt) : (s.onEngine t e f).start = s.start := rfl
@[simp] theorem onEngine_repair (s : State) (t : Nat) (e : Engine) (f : EngineSt → EngineSt) : (s.onEngine t e f).repair = s.repair := rfl
@[simp] theorem onEngine_movers (s : State) (t : Nat) (e : Engine) (f : EngineSt → EngineSt) : (s.onEngine t e f).movers = s.movers := rfl
@[simp] theorem onEngine_flash (s : State) (t : Nat) (e : Engine) (f : EngineSt → EngineSt) : (s.onEngine t e f).flash = s.flash := rfl
@[simp] theorem onEngine_host (s : State) (t : Nat) (e : Engine) (f : EngineSt → EngineSt) : (s.onEngine t e f).host = s.host := rfl
@[simp] theorem onEngine_gate (s : State) (t : Nat) (e : Engine) (f : EngineSt → EngineSt) : (s.onEngine t e f).gate = s.gate := rfl
@[simp] theorem onEngine_tarle (s : State) (t : Nat) (e : Engine) (f : EngineSt → EngineSt) : (s.onEngine t e f).tarle = s.tarle := rfl
@[simp] theorem onEngine_devs (s : State) (t : Nat) (e : Engine) (f : EngineSt → EngineSt) : (s.onEngine t e f).devs = s.devs := rfl
@[simp] theorem onEngine_coh (s : State) (t : Nat) (e : Engine) (f : EngineSt → EngineSt) : (s.onEngine t e f).coh = s.coh := rfl
@[simp] theorem onEngine_xlat (s : State) (t : Nat) (e : Engine) (f : EngineSt → EngineSt) : (s.onEngine t e f).xlat = s.xlat := rfl
@[simp] theorem onEngine_order (s : State) (t : Nat) (e : Engine) (f : EngineSt → EngineSt) : (s.onEngine t e f).order = s.order := rfl
@[simp] theorem onEngine_harts (s : State) (t : Nat) (e : Engine) (f : EngineSt → EngineSt) : (s.onEngine t e f).harts = s.harts := rfl
@[simp] theorem onEngine_shadows (s : State) (t : Nat) (e : Engine) (f : EngineSt → EngineSt) : (s.onEngine t e f).shadows = s.shadows := rfl
@[simp] theorem onEngine_free (s : State) (t : Nat) (e : Engine) (f : EngineSt → EngineSt) : (s.onEngine t e f).free = s.free := rfl
@[simp] theorem onEngine_answer (s : State) (t : Nat) (e : Engine) (f : EngineSt → EngineSt) : (s.onEngine t e f).answer = s.answer := rfl

/-! ### `onKernel` -/

@[simp] theorem onKernel_pending (s : State) (t : Nat) (f : Kernel → Kernel) : (s.onKernel t f).pending = s.pending := rfl
@[simp] theorem onKernel_flds (s : State) (t : Nat) (f : Kernel → Kernel) : (s.onKernel t f).flds = s.flds := rfl
@[simp] theorem onKernel_mem (s : State) (t : Nat) (f : Kernel → Kernel) : (s.onKernel t f).mem = s.mem := rfl
@[simp] theorem onKernel_hostMem (s : State) (t : Nat) (f : Kernel → Kernel) : (s.onKernel t f).hostMem = s.hostMem := rfl
@[simp] theorem onKernel_ident (s : State) (t : Nat) (f : Kernel → Kernel) : (s.onKernel t f).ident = s.ident := rfl
@[simp] theorem onKernel_time (s : State) (t : Nat) (f : Kernel → Kernel) : (s.onKernel t f).time = s.time := rfl
@[simp] theorem onKernel_tick (s : State) (t : Nat) (f : Kernel → Kernel) : (s.onKernel t f).tick = s.tick := rfl
@[simp] theorem onKernel_ec (s : State) (t : Nat) (f : Kernel → Kernel) : (s.onKernel t f).ec = s.ec := rfl
@[simp] theorem onKernel_letters (s : State) (t : Nat) (f : Kernel → Kernel) : (s.onKernel t f).letters = s.letters := rfl
@[simp] theorem onKernel_sorter (s : State) (t : Nat) (f : Kernel → Kernel) : (s.onKernel t f).sorter = s.sorter := rfl
@[simp] theorem onKernel_posts (s : State) (t : Nat) (f : Kernel → Kernel) : (s.onKernel t f).posts = s.posts := rfl
@[simp] theorem onKernel_power (s : State) (t : Nat) (f : Kernel → Kernel) : (s.onKernel t f).power = s.power := rfl
@[simp] theorem onKernel_start (s : State) (t : Nat) (f : Kernel → Kernel) : (s.onKernel t f).start = s.start := rfl
@[simp] theorem onKernel_repair (s : State) (t : Nat) (f : Kernel → Kernel) : (s.onKernel t f).repair = s.repair := rfl
@[simp] theorem onKernel_movers (s : State) (t : Nat) (f : Kernel → Kernel) : (s.onKernel t f).movers = s.movers := rfl
@[simp] theorem onKernel_flash (s : State) (t : Nat) (f : Kernel → Kernel) : (s.onKernel t f).flash = s.flash := rfl
@[simp] theorem onKernel_host (s : State) (t : Nat) (f : Kernel → Kernel) : (s.onKernel t f).host = s.host := rfl
@[simp] theorem onKernel_gate (s : State) (t : Nat) (f : Kernel → Kernel) : (s.onKernel t f).gate = s.gate := rfl
@[simp] theorem onKernel_tarle (s : State) (t : Nat) (f : Kernel → Kernel) : (s.onKernel t f).tarle = s.tarle := rfl
@[simp] theorem onKernel_devs (s : State) (t : Nat) (f : Kernel → Kernel) : (s.onKernel t f).devs = s.devs := rfl
@[simp] theorem onKernel_coh (s : State) (t : Nat) (f : Kernel → Kernel) : (s.onKernel t f).coh = s.coh := rfl
@[simp] theorem onKernel_xlat (s : State) (t : Nat) (f : Kernel → Kernel) : (s.onKernel t f).xlat = s.xlat := rfl
@[simp] theorem onKernel_order (s : State) (t : Nat) (f : Kernel → Kernel) : (s.onKernel t f).order = s.order := rfl
@[simp] theorem onKernel_harts (s : State) (t : Nat) (f : Kernel → Kernel) : (s.onKernel t f).harts = s.harts := rfl
@[simp] theorem onKernel_shadows (s : State) (t : Nat) (f : Kernel → Kernel) : (s.onKernel t f).shadows = s.shadows := rfl
@[simp] theorem onKernel_free (s : State) (t : Nat) (f : Kernel → Kernel) : (s.onKernel t f).free = s.free := rfl
@[simp] theorem onKernel_answer (s : State) (t : Nat) (f : Kernel → Kernel) : (s.onKernel t f).answer = s.answer := rfl

/-! ### `onGroup` -/

@[simp] theorem onGroup_pending (s : State) (t b g : Nat) (f : Group → Group) : (s.onGroup t b g f).pending = s.pending := rfl
@[simp] theorem onGroup_flds (s : State) (t b g : Nat) (f : Group → Group) : (s.onGroup t b g f).flds = s.flds := rfl
@[simp] theorem onGroup_mem (s : State) (t b g : Nat) (f : Group → Group) : (s.onGroup t b g f).mem = s.mem := rfl
@[simp] theorem onGroup_hostMem (s : State) (t b g : Nat) (f : Group → Group) : (s.onGroup t b g f).hostMem = s.hostMem := rfl
@[simp] theorem onGroup_ident (s : State) (t b g : Nat) (f : Group → Group) : (s.onGroup t b g f).ident = s.ident := rfl
@[simp] theorem onGroup_time (s : State) (t b g : Nat) (f : Group → Group) : (s.onGroup t b g f).time = s.time := rfl
@[simp] theorem onGroup_tick (s : State) (t b g : Nat) (f : Group → Group) : (s.onGroup t b g f).tick = s.tick := rfl
@[simp] theorem onGroup_ec (s : State) (t b g : Nat) (f : Group → Group) : (s.onGroup t b g f).ec = s.ec := rfl
@[simp] theorem onGroup_letters (s : State) (t b g : Nat) (f : Group → Group) : (s.onGroup t b g f).letters = s.letters := rfl
@[simp] theorem onGroup_sorter (s : State) (t b g : Nat) (f : Group → Group) : (s.onGroup t b g f).sorter = s.sorter := rfl
@[simp] theorem onGroup_posts (s : State) (t b g : Nat) (f : Group → Group) : (s.onGroup t b g f).posts = s.posts := rfl
@[simp] theorem onGroup_power (s : State) (t b g : Nat) (f : Group → Group) : (s.onGroup t b g f).power = s.power := rfl
@[simp] theorem onGroup_start (s : State) (t b g : Nat) (f : Group → Group) : (s.onGroup t b g f).start = s.start := rfl
@[simp] theorem onGroup_repair (s : State) (t b g : Nat) (f : Group → Group) : (s.onGroup t b g f).repair = s.repair := rfl
@[simp] theorem onGroup_movers (s : State) (t b g : Nat) (f : Group → Group) : (s.onGroup t b g f).movers = s.movers := rfl
@[simp] theorem onGroup_flash (s : State) (t b g : Nat) (f : Group → Group) : (s.onGroup t b g f).flash = s.flash := rfl
@[simp] theorem onGroup_host (s : State) (t b g : Nat) (f : Group → Group) : (s.onGroup t b g f).host = s.host := rfl
@[simp] theorem onGroup_gate (s : State) (t b g : Nat) (f : Group → Group) : (s.onGroup t b g f).gate = s.gate := rfl
@[simp] theorem onGroup_tarle (s : State) (t b g : Nat) (f : Group → Group) : (s.onGroup t b g f).tarle = s.tarle := rfl
@[simp] theorem onGroup_devs (s : State) (t b g : Nat) (f : Group → Group) : (s.onGroup t b g f).devs = s.devs := rfl
@[simp] theorem onGroup_coh (s : State) (t b g : Nat) (f : Group → Group) : (s.onGroup t b g f).coh = s.coh := rfl
@[simp] theorem onGroup_xlat (s : State) (t b g : Nat) (f : Group → Group) : (s.onGroup t b g f).xlat = s.xlat := rfl
@[simp] theorem onGroup_order (s : State) (t b g : Nat) (f : Group → Group) : (s.onGroup t b g f).order = s.order := rfl
@[simp] theorem onGroup_harts (s : State) (t b g : Nat) (f : Group → Group) : (s.onGroup t b g f).harts = s.harts := rfl
@[simp] theorem onGroup_shadows (s : State) (t b g : Nat) (f : Group → Group) : (s.onGroup t b g f).shadows = s.shadows := rfl
@[simp] theorem onGroup_free (s : State) (t b g : Nat) (f : Group → Group) : (s.onGroup t b g f).free = s.free := rfl
@[simp] theorem onGroup_answer (s : State) (t b g : Nat) (f : Group → Group) : (s.onGroup t b g f).answer = s.answer := rfl

/-! ### `onMatrix` -/

@[simp] theorem onMatrix_pending (s : State) (t : Nat) (f : MatrixSt → MatrixSt) : (s.onMatrix t f).pending = s.pending := rfl
@[simp] theorem onMatrix_flds (s : State) (t : Nat) (f : MatrixSt → MatrixSt) : (s.onMatrix t f).flds = s.flds := rfl
@[simp] theorem onMatrix_mem (s : State) (t : Nat) (f : MatrixSt → MatrixSt) : (s.onMatrix t f).mem = s.mem := rfl
@[simp] theorem onMatrix_hostMem (s : State) (t : Nat) (f : MatrixSt → MatrixSt) : (s.onMatrix t f).hostMem = s.hostMem := rfl
@[simp] theorem onMatrix_ident (s : State) (t : Nat) (f : MatrixSt → MatrixSt) : (s.onMatrix t f).ident = s.ident := rfl
@[simp] theorem onMatrix_time (s : State) (t : Nat) (f : MatrixSt → MatrixSt) : (s.onMatrix t f).time = s.time := rfl
@[simp] theorem onMatrix_tick (s : State) (t : Nat) (f : MatrixSt → MatrixSt) : (s.onMatrix t f).tick = s.tick := rfl
@[simp] theorem onMatrix_ec (s : State) (t : Nat) (f : MatrixSt → MatrixSt) : (s.onMatrix t f).ec = s.ec := rfl
@[simp] theorem onMatrix_letters (s : State) (t : Nat) (f : MatrixSt → MatrixSt) : (s.onMatrix t f).letters = s.letters := rfl
@[simp] theorem onMatrix_sorter (s : State) (t : Nat) (f : MatrixSt → MatrixSt) : (s.onMatrix t f).sorter = s.sorter := rfl
@[simp] theorem onMatrix_posts (s : State) (t : Nat) (f : MatrixSt → MatrixSt) : (s.onMatrix t f).posts = s.posts := rfl
@[simp] theorem onMatrix_power (s : State) (t : Nat) (f : MatrixSt → MatrixSt) : (s.onMatrix t f).power = s.power := rfl
@[simp] theorem onMatrix_start (s : State) (t : Nat) (f : MatrixSt → MatrixSt) : (s.onMatrix t f).start = s.start := rfl
@[simp] theorem onMatrix_repair (s : State) (t : Nat) (f : MatrixSt → MatrixSt) : (s.onMatrix t f).repair = s.repair := rfl
@[simp] theorem onMatrix_movers (s : State) (t : Nat) (f : MatrixSt → MatrixSt) : (s.onMatrix t f).movers = s.movers := rfl
@[simp] theorem onMatrix_flash (s : State) (t : Nat) (f : MatrixSt → MatrixSt) : (s.onMatrix t f).flash = s.flash := rfl
@[simp] theorem onMatrix_host (s : State) (t : Nat) (f : MatrixSt → MatrixSt) : (s.onMatrix t f).host = s.host := rfl
@[simp] theorem onMatrix_gate (s : State) (t : Nat) (f : MatrixSt → MatrixSt) : (s.onMatrix t f).gate = s.gate := rfl
@[simp] theorem onMatrix_tarle (s : State) (t : Nat) (f : MatrixSt → MatrixSt) : (s.onMatrix t f).tarle = s.tarle := rfl
@[simp] theorem onMatrix_devs (s : State) (t : Nat) (f : MatrixSt → MatrixSt) : (s.onMatrix t f).devs = s.devs := rfl
@[simp] theorem onMatrix_coh (s : State) (t : Nat) (f : MatrixSt → MatrixSt) : (s.onMatrix t f).coh = s.coh := rfl
@[simp] theorem onMatrix_xlat (s : State) (t : Nat) (f : MatrixSt → MatrixSt) : (s.onMatrix t f).xlat = s.xlat := rfl
@[simp] theorem onMatrix_order (s : State) (t : Nat) (f : MatrixSt → MatrixSt) : (s.onMatrix t f).order = s.order := rfl
@[simp] theorem onMatrix_harts (s : State) (t : Nat) (f : MatrixSt → MatrixSt) : (s.onMatrix t f).harts = s.harts := rfl
@[simp] theorem onMatrix_shadows (s : State) (t : Nat) (f : MatrixSt → MatrixSt) : (s.onMatrix t f).shadows = s.shadows := rfl
@[simp] theorem onMatrix_free (s : State) (t : Nat) (f : MatrixSt → MatrixSt) : (s.onMatrix t f).free = s.free := rfl
@[simp] theorem onMatrix_answer (s : State) (t : Nat) (f : MatrixSt → MatrixSt) : (s.onMatrix t f).answer = s.answer := rfl

/-! ### `onVector` -/

@[simp] theorem onVector_pending (s : State) (t : Nat) (f : VectorSt → VectorSt) : (s.onVector t f).pending = s.pending := rfl
@[simp] theorem onVector_flds (s : State) (t : Nat) (f : VectorSt → VectorSt) : (s.onVector t f).flds = s.flds := rfl
@[simp] theorem onVector_mem (s : State) (t : Nat) (f : VectorSt → VectorSt) : (s.onVector t f).mem = s.mem := rfl
@[simp] theorem onVector_hostMem (s : State) (t : Nat) (f : VectorSt → VectorSt) : (s.onVector t f).hostMem = s.hostMem := rfl
@[simp] theorem onVector_ident (s : State) (t : Nat) (f : VectorSt → VectorSt) : (s.onVector t f).ident = s.ident := rfl
@[simp] theorem onVector_time (s : State) (t : Nat) (f : VectorSt → VectorSt) : (s.onVector t f).time = s.time := rfl
@[simp] theorem onVector_tick (s : State) (t : Nat) (f : VectorSt → VectorSt) : (s.onVector t f).tick = s.tick := rfl
@[simp] theorem onVector_ec (s : State) (t : Nat) (f : VectorSt → VectorSt) : (s.onVector t f).ec = s.ec := rfl
@[simp] theorem onVector_letters (s : State) (t : Nat) (f : VectorSt → VectorSt) : (s.onVector t f).letters = s.letters := rfl
@[simp] theorem onVector_sorter (s : State) (t : Nat) (f : VectorSt → VectorSt) : (s.onVector t f).sorter = s.sorter := rfl
@[simp] theorem onVector_posts (s : State) (t : Nat) (f : VectorSt → VectorSt) : (s.onVector t f).posts = s.posts := rfl
@[simp] theorem onVector_power (s : State) (t : Nat) (f : VectorSt → VectorSt) : (s.onVector t f).power = s.power := rfl
@[simp] theorem onVector_start (s : State) (t : Nat) (f : VectorSt → VectorSt) : (s.onVector t f).start = s.start := rfl
@[simp] theorem onVector_repair (s : State) (t : Nat) (f : VectorSt → VectorSt) : (s.onVector t f).repair = s.repair := rfl
@[simp] theorem onVector_movers (s : State) (t : Nat) (f : VectorSt → VectorSt) : (s.onVector t f).movers = s.movers := rfl
@[simp] theorem onVector_flash (s : State) (t : Nat) (f : VectorSt → VectorSt) : (s.onVector t f).flash = s.flash := rfl
@[simp] theorem onVector_host (s : State) (t : Nat) (f : VectorSt → VectorSt) : (s.onVector t f).host = s.host := rfl
@[simp] theorem onVector_gate (s : State) (t : Nat) (f : VectorSt → VectorSt) : (s.onVector t f).gate = s.gate := rfl
@[simp] theorem onVector_tarle (s : State) (t : Nat) (f : VectorSt → VectorSt) : (s.onVector t f).tarle = s.tarle := rfl
@[simp] theorem onVector_devs (s : State) (t : Nat) (f : VectorSt → VectorSt) : (s.onVector t f).devs = s.devs := rfl
@[simp] theorem onVector_coh (s : State) (t : Nat) (f : VectorSt → VectorSt) : (s.onVector t f).coh = s.coh := rfl
@[simp] theorem onVector_xlat (s : State) (t : Nat) (f : VectorSt → VectorSt) : (s.onVector t f).xlat = s.xlat := rfl
@[simp] theorem onVector_order (s : State) (t : Nat) (f : VectorSt → VectorSt) : (s.onVector t f).order = s.order := rfl
@[simp] theorem onVector_harts (s : State) (t : Nat) (f : VectorSt → VectorSt) : (s.onVector t f).harts = s.harts := rfl
@[simp] theorem onVector_shadows (s : State) (t : Nat) (f : VectorSt → VectorSt) : (s.onVector t f).shadows = s.shadows := rfl
@[simp] theorem onVector_free (s : State) (t : Nat) (f : VectorSt → VectorSt) : (s.onVector t f).free = s.free := rfl
@[simp] theorem onVector_answer (s : State) (t : Nat) (f : VectorSt → VectorSt) : (s.onVector t f).answer = s.answer := rfl

/-! ### `onMover` -/

@[simp] theorem onMover_pending (s : State) (m : Nat) (f : Mover → Mover) : (s.onMover m f).pending = s.pending := rfl
@[simp] theorem onMover_flds (s : State) (m : Nat) (f : Mover → Mover) : (s.onMover m f).flds = s.flds := rfl
@[simp] theorem onMover_mem (s : State) (m : Nat) (f : Mover → Mover) : (s.onMover m f).mem = s.mem := rfl
@[simp] theorem onMover_hostMem (s : State) (m : Nat) (f : Mover → Mover) : (s.onMover m f).hostMem = s.hostMem := rfl
@[simp] theorem onMover_ident (s : State) (m : Nat) (f : Mover → Mover) : (s.onMover m f).ident = s.ident := rfl
@[simp] theorem onMover_time (s : State) (m : Nat) (f : Mover → Mover) : (s.onMover m f).time = s.time := rfl
@[simp] theorem onMover_tick (s : State) (m : Nat) (f : Mover → Mover) : (s.onMover m f).tick = s.tick := rfl
@[simp] theorem onMover_ec (s : State) (m : Nat) (f : Mover → Mover) : (s.onMover m f).ec = s.ec := rfl
@[simp] theorem onMover_letters (s : State) (m : Nat) (f : Mover → Mover) : (s.onMover m f).letters = s.letters := rfl
@[simp] theorem onMover_sorter (s : State) (m : Nat) (f : Mover → Mover) : (s.onMover m f).sorter = s.sorter := rfl
@[simp] theorem onMover_tiles (s : State) (m : Nat) (f : Mover → Mover) : (s.onMover m f).tiles = s.tiles := rfl
@[simp] theorem onMover_posts (s : State) (m : Nat) (f : Mover → Mover) : (s.onMover m f).posts = s.posts := rfl
@[simp] theorem onMover_power (s : State) (m : Nat) (f : Mover → Mover) : (s.onMover m f).power = s.power := rfl
@[simp] theorem onMover_start (s : State) (m : Nat) (f : Mover → Mover) : (s.onMover m f).start = s.start := rfl
@[simp] theorem onMover_repair (s : State) (m : Nat) (f : Mover → Mover) : (s.onMover m f).repair = s.repair := rfl
@[simp] theorem onMover_flash (s : State) (m : Nat) (f : Mover → Mover) : (s.onMover m f).flash = s.flash := rfl
@[simp] theorem onMover_host (s : State) (m : Nat) (f : Mover → Mover) : (s.onMover m f).host = s.host := rfl
@[simp] theorem onMover_gate (s : State) (m : Nat) (f : Mover → Mover) : (s.onMover m f).gate = s.gate := rfl
@[simp] theorem onMover_tarle (s : State) (m : Nat) (f : Mover → Mover) : (s.onMover m f).tarle = s.tarle := rfl
@[simp] theorem onMover_devs (s : State) (m : Nat) (f : Mover → Mover) : (s.onMover m f).devs = s.devs := rfl
@[simp] theorem onMover_coh (s : State) (m : Nat) (f : Mover → Mover) : (s.onMover m f).coh = s.coh := rfl
@[simp] theorem onMover_xlat (s : State) (m : Nat) (f : Mover → Mover) : (s.onMover m f).xlat = s.xlat := rfl
@[simp] theorem onMover_order (s : State) (m : Nat) (f : Mover → Mover) : (s.onMover m f).order = s.order := rfl
@[simp] theorem onMover_harts (s : State) (m : Nat) (f : Mover → Mover) : (s.onMover m f).harts = s.harts := rfl
@[simp] theorem onMover_shadows (s : State) (m : Nat) (f : Mover → Mover) : (s.onMover m f).shadows = s.shadows := rfl
@[simp] theorem onMover_free (s : State) (m : Nat) (f : Mover → Mover) : (s.onMover m f).free = s.free := rfl
@[simp] theorem onMover_answer (s : State) (m : Nat) (f : Mover → Mover) : (s.onMover m f).answer = s.answer := rfl

/-! ### `onChannel` -/

@[simp] theorem onChannel_pending (s : State) (c : Nat) (f : Channel → Channel) : (s.onChannel c f).pending = s.pending := rfl
@[simp] theorem onChannel_flds (s : State) (c : Nat) (f : Channel → Channel) : (s.onChannel c f).flds = s.flds := rfl
@[simp] theorem onChannel_mem (s : State) (c : Nat) (f : Channel → Channel) : (s.onChannel c f).mem = s.mem := rfl
@[simp] theorem onChannel_hostMem (s : State) (c : Nat) (f : Channel → Channel) : (s.onChannel c f).hostMem = s.hostMem := rfl
@[simp] theorem onChannel_ident (s : State) (c : Nat) (f : Channel → Channel) : (s.onChannel c f).ident = s.ident := rfl
@[simp] theorem onChannel_time (s : State) (c : Nat) (f : Channel → Channel) : (s.onChannel c f).time = s.time := rfl
@[simp] theorem onChannel_tick (s : State) (c : Nat) (f : Channel → Channel) : (s.onChannel c f).tick = s.tick := rfl
@[simp] theorem onChannel_ec (s : State) (c : Nat) (f : Channel → Channel) : (s.onChannel c f).ec = s.ec := rfl
@[simp] theorem onChannel_letters (s : State) (c : Nat) (f : Channel → Channel) : (s.onChannel c f).letters = s.letters := rfl
@[simp] theorem onChannel_sorter (s : State) (c : Nat) (f : Channel → Channel) : (s.onChannel c f).sorter = s.sorter := rfl
@[simp] theorem onChannel_tiles (s : State) (c : Nat) (f : Channel → Channel) : (s.onChannel c f).tiles = s.tiles := rfl
@[simp] theorem onChannel_posts (s : State) (c : Nat) (f : Channel → Channel) : (s.onChannel c f).posts = s.posts := rfl
@[simp] theorem onChannel_power (s : State) (c : Nat) (f : Channel → Channel) : (s.onChannel c f).power = s.power := rfl
@[simp] theorem onChannel_start (s : State) (c : Nat) (f : Channel → Channel) : (s.onChannel c f).start = s.start := rfl
@[simp] theorem onChannel_repair (s : State) (c : Nat) (f : Channel → Channel) : (s.onChannel c f).repair = s.repair := rfl
@[simp] theorem onChannel_movers (s : State) (c : Nat) (f : Channel → Channel) : (s.onChannel c f).movers = s.movers := rfl
@[simp] theorem onChannel_host (s : State) (c : Nat) (f : Channel → Channel) : (s.onChannel c f).host = s.host := rfl
@[simp] theorem onChannel_gate (s : State) (c : Nat) (f : Channel → Channel) : (s.onChannel c f).gate = s.gate := rfl
@[simp] theorem onChannel_tarle (s : State) (c : Nat) (f : Channel → Channel) : (s.onChannel c f).tarle = s.tarle := rfl
@[simp] theorem onChannel_devs (s : State) (c : Nat) (f : Channel → Channel) : (s.onChannel c f).devs = s.devs := rfl
@[simp] theorem onChannel_coh (s : State) (c : Nat) (f : Channel → Channel) : (s.onChannel c f).coh = s.coh := rfl
@[simp] theorem onChannel_xlat (s : State) (c : Nat) (f : Channel → Channel) : (s.onChannel c f).xlat = s.xlat := rfl
@[simp] theorem onChannel_order (s : State) (c : Nat) (f : Channel → Channel) : (s.onChannel c f).order = s.order := rfl
@[simp] theorem onChannel_harts (s : State) (c : Nat) (f : Channel → Channel) : (s.onChannel c f).harts = s.harts := rfl
@[simp] theorem onChannel_shadows (s : State) (c : Nat) (f : Channel → Channel) : (s.onChannel c f).shadows = s.shadows := rfl
@[simp] theorem onChannel_free (s : State) (c : Nat) (f : Channel → Channel) : (s.onChannel c f).free = s.free := rfl
@[simp] theorem onChannel_answer (s : State) (c : Nat) (f : Channel → Channel) : (s.onChannel c f).answer = s.answer := rfl

/-! ### `onFRing` -/

@[simp] theorem onFRing_pending (s : State) (r : Nat) (f : FRing → FRing) : (s.onFRing r f).pending = s.pending := rfl
@[simp] theorem onFRing_flds (s : State) (r : Nat) (f : FRing → FRing) : (s.onFRing r f).flds = s.flds := rfl
@[simp] theorem onFRing_mem (s : State) (r : Nat) (f : FRing → FRing) : (s.onFRing r f).mem = s.mem := rfl
@[simp] theorem onFRing_hostMem (s : State) (r : Nat) (f : FRing → FRing) : (s.onFRing r f).hostMem = s.hostMem := rfl
@[simp] theorem onFRing_ident (s : State) (r : Nat) (f : FRing → FRing) : (s.onFRing r f).ident = s.ident := rfl
@[simp] theorem onFRing_time (s : State) (r : Nat) (f : FRing → FRing) : (s.onFRing r f).time = s.time := rfl
@[simp] theorem onFRing_tick (s : State) (r : Nat) (f : FRing → FRing) : (s.onFRing r f).tick = s.tick := rfl
@[simp] theorem onFRing_ec (s : State) (r : Nat) (f : FRing → FRing) : (s.onFRing r f).ec = s.ec := rfl
@[simp] theorem onFRing_letters (s : State) (r : Nat) (f : FRing → FRing) : (s.onFRing r f).letters = s.letters := rfl
@[simp] theorem onFRing_sorter (s : State) (r : Nat) (f : FRing → FRing) : (s.onFRing r f).sorter = s.sorter := rfl
@[simp] theorem onFRing_tiles (s : State) (r : Nat) (f : FRing → FRing) : (s.onFRing r f).tiles = s.tiles := rfl
@[simp] theorem onFRing_posts (s : State) (r : Nat) (f : FRing → FRing) : (s.onFRing r f).posts = s.posts := rfl
@[simp] theorem onFRing_power (s : State) (r : Nat) (f : FRing → FRing) : (s.onFRing r f).power = s.power := rfl
@[simp] theorem onFRing_start (s : State) (r : Nat) (f : FRing → FRing) : (s.onFRing r f).start = s.start := rfl
@[simp] theorem onFRing_repair (s : State) (r : Nat) (f : FRing → FRing) : (s.onFRing r f).repair = s.repair := rfl
@[simp] theorem onFRing_movers (s : State) (r : Nat) (f : FRing → FRing) : (s.onFRing r f).movers = s.movers := rfl
@[simp] theorem onFRing_flash (s : State) (r : Nat) (f : FRing → FRing) : (s.onFRing r f).flash = s.flash := rfl
@[simp] theorem onFRing_host (s : State) (r : Nat) (f : FRing → FRing) : (s.onFRing r f).host = s.host := rfl
@[simp] theorem onFRing_gate (s : State) (r : Nat) (f : FRing → FRing) : (s.onFRing r f).gate = s.gate := rfl
@[simp] theorem onFRing_tarle (s : State) (r : Nat) (f : FRing → FRing) : (s.onFRing r f).tarle = s.tarle := rfl
@[simp] theorem onFRing_devs (s : State) (r : Nat) (f : FRing → FRing) : (s.onFRing r f).devs = s.devs := rfl
@[simp] theorem onFRing_coh (s : State) (r : Nat) (f : FRing → FRing) : (s.onFRing r f).coh = s.coh := rfl
@[simp] theorem onFRing_order (s : State) (r : Nat) (f : FRing → FRing) : (s.onFRing r f).order = s.order := rfl
@[simp] theorem onFRing_harts (s : State) (r : Nat) (f : FRing → FRing) : (s.onFRing r f).harts = s.harts := rfl
@[simp] theorem onFRing_shadows (s : State) (r : Nat) (f : FRing → FRing) : (s.onFRing r f).shadows = s.shadows := rfl
@[simp] theorem onFRing_free (s : State) (r : Nat) (f : FRing → FRing) : (s.onFRing r f).free = s.free := rfl
@[simp] theorem onFRing_answer (s : State) (r : Nat) (f : FRing → FRing) : (s.onFRing r f).answer = s.answer := rfl

/-! ### `onCtx` -/

@[simp] theorem onCtx_pending (s : State) (c : Nat) (f : Ctx → Ctx) : (s.onCtx c f).pending = s.pending := rfl
@[simp] theorem onCtx_flds (s : State) (c : Nat) (f : Ctx → Ctx) : (s.onCtx c f).flds = s.flds := rfl
@[simp] theorem onCtx_mem (s : State) (c : Nat) (f : Ctx → Ctx) : (s.onCtx c f).mem = s.mem := rfl
@[simp] theorem onCtx_hostMem (s : State) (c : Nat) (f : Ctx → Ctx) : (s.onCtx c f).hostMem = s.hostMem := rfl
@[simp] theorem onCtx_ident (s : State) (c : Nat) (f : Ctx → Ctx) : (s.onCtx c f).ident = s.ident := rfl
@[simp] theorem onCtx_time (s : State) (c : Nat) (f : Ctx → Ctx) : (s.onCtx c f).time = s.time := rfl
@[simp] theorem onCtx_tick (s : State) (c : Nat) (f : Ctx → Ctx) : (s.onCtx c f).tick = s.tick := rfl
@[simp] theorem onCtx_ec (s : State) (c : Nat) (f : Ctx → Ctx) : (s.onCtx c f).ec = s.ec := rfl
@[simp] theorem onCtx_letters (s : State) (c : Nat) (f : Ctx → Ctx) : (s.onCtx c f).letters = s.letters := rfl
@[simp] theorem onCtx_sorter (s : State) (c : Nat) (f : Ctx → Ctx) : (s.onCtx c f).sorter = s.sorter := rfl
@[simp] theorem onCtx_tiles (s : State) (c : Nat) (f : Ctx → Ctx) : (s.onCtx c f).tiles = s.tiles := rfl
@[simp] theorem onCtx_posts (s : State) (c : Nat) (f : Ctx → Ctx) : (s.onCtx c f).posts = s.posts := rfl
@[simp] theorem onCtx_power (s : State) (c : Nat) (f : Ctx → Ctx) : (s.onCtx c f).power = s.power := rfl
@[simp] theorem onCtx_start (s : State) (c : Nat) (f : Ctx → Ctx) : (s.onCtx c f).start = s.start := rfl
@[simp] theorem onCtx_repair (s : State) (c : Nat) (f : Ctx → Ctx) : (s.onCtx c f).repair = s.repair := rfl
@[simp] theorem onCtx_movers (s : State) (c : Nat) (f : Ctx → Ctx) : (s.onCtx c f).movers = s.movers := rfl
@[simp] theorem onCtx_flash (s : State) (c : Nat) (f : Ctx → Ctx) : (s.onCtx c f).flash = s.flash := rfl
@[simp] theorem onCtx_host (s : State) (c : Nat) (f : Ctx → Ctx) : (s.onCtx c f).host = s.host := rfl
@[simp] theorem onCtx_gate (s : State) (c : Nat) (f : Ctx → Ctx) : (s.onCtx c f).gate = s.gate := rfl
@[simp] theorem onCtx_tarle (s : State) (c : Nat) (f : Ctx → Ctx) : (s.onCtx c f).tarle = s.tarle := rfl
@[simp] theorem onCtx_devs (s : State) (c : Nat) (f : Ctx → Ctx) : (s.onCtx c f).devs = s.devs := rfl
@[simp] theorem onCtx_coh (s : State) (c : Nat) (f : Ctx → Ctx) : (s.onCtx c f).coh = s.coh := rfl
@[simp] theorem onCtx_order (s : State) (c : Nat) (f : Ctx → Ctx) : (s.onCtx c f).order = s.order := rfl
@[simp] theorem onCtx_harts (s : State) (c : Nat) (f : Ctx → Ctx) : (s.onCtx c f).harts = s.harts := rfl
@[simp] theorem onCtx_shadows (s : State) (c : Nat) (f : Ctx → Ctx) : (s.onCtx c f).shadows = s.shadows := rfl
@[simp] theorem onCtx_free (s : State) (c : Nat) (f : Ctx → Ctx) : (s.onCtx c f).free = s.free := rfl
@[simp] theorem onCtx_answer (s : State) (c : Nat) (f : Ctx → Ctx) : (s.onCtx c f).answer = s.answer := rfl

/-! ### `signal` -/

@[simp] theorem signal_pending (s : State) (n : Nat) : (s.signal n).pending = s.pending := rfl
@[simp] theorem signal_flds (s : State) (n : Nat) : (s.signal n).flds = s.flds := rfl
@[simp] theorem signal_mem (s : State) (n : Nat) : (s.signal n).mem = s.mem := rfl
@[simp] theorem signal_hostMem (s : State) (n : Nat) : (s.signal n).hostMem = s.hostMem := rfl
@[simp] theorem signal_ident (s : State) (n : Nat) : (s.signal n).ident = s.ident := rfl
@[simp] theorem signal_time (s : State) (n : Nat) : (s.signal n).time = s.time := rfl
@[simp] theorem signal_tick (s : State) (n : Nat) : (s.signal n).tick = s.tick := rfl
@[simp] theorem signal_letters (s : State) (n : Nat) : (s.signal n).letters = s.letters := rfl
@[simp] theorem signal_sorter (s : State) (n : Nat) : (s.signal n).sorter = s.sorter := rfl
@[simp] theorem signal_tiles (s : State) (n : Nat) : (s.signal n).tiles = s.tiles := rfl
@[simp] theorem signal_posts (s : State) (n : Nat) : (s.signal n).posts = s.posts := rfl
@[simp] theorem signal_power (s : State) (n : Nat) : (s.signal n).power = s.power := rfl
@[simp] theorem signal_start (s : State) (n : Nat) : (s.signal n).start = s.start := rfl
@[simp] theorem signal_repair (s : State) (n : Nat) : (s.signal n).repair = s.repair := rfl
@[simp] theorem signal_movers (s : State) (n : Nat) : (s.signal n).movers = s.movers := rfl
@[simp] theorem signal_flash (s : State) (n : Nat) : (s.signal n).flash = s.flash := rfl
@[simp] theorem signal_host (s : State) (n : Nat) : (s.signal n).host = s.host := rfl
@[simp] theorem signal_gate (s : State) (n : Nat) : (s.signal n).gate = s.gate := rfl
@[simp] theorem signal_tarle (s : State) (n : Nat) : (s.signal n).tarle = s.tarle := rfl
@[simp] theorem signal_devs (s : State) (n : Nat) : (s.signal n).devs = s.devs := rfl
@[simp] theorem signal_coh (s : State) (n : Nat) : (s.signal n).coh = s.coh := rfl
@[simp] theorem signal_xlat (s : State) (n : Nat) : (s.signal n).xlat = s.xlat := rfl
@[simp] theorem signal_order (s : State) (n : Nat) : (s.signal n).order = s.order := rfl
@[simp] theorem signal_harts (s : State) (n : Nat) : (s.signal n).harts = s.harts := rfl
@[simp] theorem signal_shadows (s : State) (n : Nat) : (s.signal n).shadows = s.shadows := rfl
@[simp] theorem signal_free (s : State) (n : Nat) : (s.signal n).free = s.free := rfl
@[simp] theorem signal_answer (s : State) (n : Nat) : (s.signal n).answer = s.answer := rfl

/-! ### `send` -/

@[simp] theorem send_pending (s : State) (m : Msg) : (s.send m).pending = s.pending := rfl
@[simp] theorem send_flds (s : State) (m : Msg) : (s.send m).flds = s.flds := rfl
@[simp] theorem send_mem (s : State) (m : Msg) : (s.send m).mem = s.mem := rfl
@[simp] theorem send_hostMem (s : State) (m : Msg) : (s.send m).hostMem = s.hostMem := rfl
@[simp] theorem send_ident (s : State) (m : Msg) : (s.send m).ident = s.ident := rfl
@[simp] theorem send_time (s : State) (m : Msg) : (s.send m).time = s.time := rfl
@[simp] theorem send_tick (s : State) (m : Msg) : (s.send m).tick = s.tick := rfl
@[simp] theorem send_ec (s : State) (m : Msg) : (s.send m).ec = s.ec := rfl
@[simp] theorem send_letters (s : State) (m : Msg) : (s.send m).letters = s.letters := rfl
@[simp] theorem send_sorter (s : State) (m : Msg) : (s.send m).sorter = s.sorter := rfl
@[simp] theorem send_tiles (s : State) (m : Msg) : (s.send m).tiles = s.tiles := rfl
@[simp] theorem send_posts (s : State) (m : Msg) : (s.send m).posts = s.posts := rfl
@[simp] theorem send_power (s : State) (m : Msg) : (s.send m).power = s.power := rfl
@[simp] theorem send_start (s : State) (m : Msg) : (s.send m).start = s.start := rfl
@[simp] theorem send_repair (s : State) (m : Msg) : (s.send m).repair = s.repair := rfl
@[simp] theorem send_movers (s : State) (m : Msg) : (s.send m).movers = s.movers := rfl
@[simp] theorem send_flash (s : State) (m : Msg) : (s.send m).flash = s.flash := rfl
@[simp] theorem send_host (s : State) (m : Msg) : (s.send m).host = s.host := rfl
@[simp] theorem send_gate (s : State) (m : Msg) : (s.send m).gate = s.gate := rfl
@[simp] theorem send_tarle (s : State) (m : Msg) : (s.send m).tarle = s.tarle := rfl
@[simp] theorem send_devs (s : State) (m : Msg) : (s.send m).devs = s.devs := rfl
@[simp] theorem send_xlat (s : State) (m : Msg) : (s.send m).xlat = s.xlat := rfl
@[simp] theorem send_order (s : State) (m : Msg) : (s.send m).order = s.order := rfl
@[simp] theorem send_harts (s : State) (m : Msg) : (s.send m).harts = s.harts := rfl
@[simp] theorem send_shadows (s : State) (m : Msg) : (s.send m).shadows = s.shadows := rfl
@[simp] theorem send_free (s : State) (m : Msg) : (s.send m).free = s.free := rfl
@[simp] theorem send_answer (s : State) (m : Msg) : (s.send m).answer = s.answer := rfl

/-! ### `unsend` -/

@[simp] theorem unsend_pending (s : State) (m : Msg) : (s.unsend m).pending = s.pending := rfl
@[simp] theorem unsend_flds (s : State) (m : Msg) : (s.unsend m).flds = s.flds := rfl
@[simp] theorem unsend_mem (s : State) (m : Msg) : (s.unsend m).mem = s.mem := rfl
@[simp] theorem unsend_hostMem (s : State) (m : Msg) : (s.unsend m).hostMem = s.hostMem := rfl
@[simp] theorem unsend_ident (s : State) (m : Msg) : (s.unsend m).ident = s.ident := rfl
@[simp] theorem unsend_time (s : State) (m : Msg) : (s.unsend m).time = s.time := rfl
@[simp] theorem unsend_tick (s : State) (m : Msg) : (s.unsend m).tick = s.tick := rfl
@[simp] theorem unsend_ec (s : State) (m : Msg) : (s.unsend m).ec = s.ec := rfl
@[simp] theorem unsend_letters (s : State) (m : Msg) : (s.unsend m).letters = s.letters := rfl
@[simp] theorem unsend_sorter (s : State) (m : Msg) : (s.unsend m).sorter = s.sorter := rfl
@[simp] theorem unsend_tiles (s : State) (m : Msg) : (s.unsend m).tiles = s.tiles := rfl
@[simp] theorem unsend_posts (s : State) (m : Msg) : (s.unsend m).posts = s.posts := rfl
@[simp] theorem unsend_power (s : State) (m : Msg) : (s.unsend m).power = s.power := rfl
@[simp] theorem unsend_start (s : State) (m : Msg) : (s.unsend m).start = s.start := rfl
@[simp] theorem unsend_repair (s : State) (m : Msg) : (s.unsend m).repair = s.repair := rfl
@[simp] theorem unsend_movers (s : State) (m : Msg) : (s.unsend m).movers = s.movers := rfl
@[simp] theorem unsend_flash (s : State) (m : Msg) : (s.unsend m).flash = s.flash := rfl
@[simp] theorem unsend_host (s : State) (m : Msg) : (s.unsend m).host = s.host := rfl
@[simp] theorem unsend_gate (s : State) (m : Msg) : (s.unsend m).gate = s.gate := rfl
@[simp] theorem unsend_tarle (s : State) (m : Msg) : (s.unsend m).tarle = s.tarle := rfl
@[simp] theorem unsend_devs (s : State) (m : Msg) : (s.unsend m).devs = s.devs := rfl
@[simp] theorem unsend_xlat (s : State) (m : Msg) : (s.unsend m).xlat = s.xlat := rfl
@[simp] theorem unsend_order (s : State) (m : Msg) : (s.unsend m).order = s.order := rfl
@[simp] theorem unsend_harts (s : State) (m : Msg) : (s.unsend m).harts = s.harts := rfl
@[simp] theorem unsend_shadows (s : State) (m : Msg) : (s.unsend m).shadows = s.shadows := rfl
@[simp] theorem unsend_free (s : State) (m : Msg) : (s.unsend m).free = s.free := rfl
@[simp] theorem unsend_answer (s : State) (m : Msg) : (s.unsend m).answer = s.answer := rfl

/-! ### `setCline` -/

@[simp] theorem setCline_pending (s : State) (a l : Nat) (c : CLine) : (s.setCline a l c).pending = s.pending := rfl
@[simp] theorem setCline_flds (s : State) (a l : Nat) (c : CLine) : (s.setCline a l c).flds = s.flds := rfl
@[simp] theorem setCline_mem (s : State) (a l : Nat) (c : CLine) : (s.setCline a l c).mem = s.mem := rfl
@[simp] theorem setCline_hostMem (s : State) (a l : Nat) (c : CLine) : (s.setCline a l c).hostMem = s.hostMem := rfl
@[simp] theorem setCline_ident (s : State) (a l : Nat) (c : CLine) : (s.setCline a l c).ident = s.ident := rfl
@[simp] theorem setCline_time (s : State) (a l : Nat) (c : CLine) : (s.setCline a l c).time = s.time := rfl
@[simp] theorem setCline_tick (s : State) (a l : Nat) (c : CLine) : (s.setCline a l c).tick = s.tick := rfl
@[simp] theorem setCline_ec (s : State) (a l : Nat) (c : CLine) : (s.setCline a l c).ec = s.ec := rfl
@[simp] theorem setCline_letters (s : State) (a l : Nat) (c : CLine) : (s.setCline a l c).letters = s.letters := rfl
@[simp] theorem setCline_sorter (s : State) (a l : Nat) (c : CLine) : (s.setCline a l c).sorter = s.sorter := rfl
@[simp] theorem setCline_tiles (s : State) (a l : Nat) (c : CLine) : (s.setCline a l c).tiles = s.tiles := rfl
@[simp] theorem setCline_posts (s : State) (a l : Nat) (c : CLine) : (s.setCline a l c).posts = s.posts := rfl
@[simp] theorem setCline_power (s : State) (a l : Nat) (c : CLine) : (s.setCline a l c).power = s.power := rfl
@[simp] theorem setCline_start (s : State) (a l : Nat) (c : CLine) : (s.setCline a l c).start = s.start := rfl
@[simp] theorem setCline_repair (s : State) (a l : Nat) (c : CLine) : (s.setCline a l c).repair = s.repair := rfl
@[simp] theorem setCline_movers (s : State) (a l : Nat) (c : CLine) : (s.setCline a l c).movers = s.movers := rfl
@[simp] theorem setCline_flash (s : State) (a l : Nat) (c : CLine) : (s.setCline a l c).flash = s.flash := rfl
@[simp] theorem setCline_host (s : State) (a l : Nat) (c : CLine) : (s.setCline a l c).host = s.host := rfl
@[simp] theorem setCline_gate (s : State) (a l : Nat) (c : CLine) : (s.setCline a l c).gate = s.gate := rfl
@[simp] theorem setCline_tarle (s : State) (a l : Nat) (c : CLine) : (s.setCline a l c).tarle = s.tarle := rfl
@[simp] theorem setCline_devs (s : State) (a l : Nat) (c : CLine) : (s.setCline a l c).devs = s.devs := rfl
@[simp] theorem setCline_xlat (s : State) (a l : Nat) (c : CLine) : (s.setCline a l c).xlat = s.xlat := rfl
@[simp] theorem setCline_order (s : State) (a l : Nat) (c : CLine) : (s.setCline a l c).order = s.order := rfl
@[simp] theorem setCline_harts (s : State) (a l : Nat) (c : CLine) : (s.setCline a l c).harts = s.harts := rfl
@[simp] theorem setCline_shadows (s : State) (a l : Nat) (c : CLine) : (s.setCline a l c).shadows = s.shadows := rfl
@[simp] theorem setCline_free (s : State) (a l : Nat) (c : CLine) : (s.setCline a l c).free = s.free := rfl
@[simp] theorem setCline_answer (s : State) (a l : Nat) (c : CLine) : (s.setCline a l c).answer = s.answer := rfl

/-! ### `dropCline` -/

@[simp] theorem dropCline_pending (s : State) (a l : Nat) : (s.dropCline a l).pending = s.pending := rfl
@[simp] theorem dropCline_flds (s : State) (a l : Nat) : (s.dropCline a l).flds = s.flds := rfl
@[simp] theorem dropCline_mem (s : State) (a l : Nat) : (s.dropCline a l).mem = s.mem := rfl
@[simp] theorem dropCline_hostMem (s : State) (a l : Nat) : (s.dropCline a l).hostMem = s.hostMem := rfl
@[simp] theorem dropCline_ident (s : State) (a l : Nat) : (s.dropCline a l).ident = s.ident := rfl
@[simp] theorem dropCline_time (s : State) (a l : Nat) : (s.dropCline a l).time = s.time := rfl
@[simp] theorem dropCline_tick (s : State) (a l : Nat) : (s.dropCline a l).tick = s.tick := rfl
@[simp] theorem dropCline_ec (s : State) (a l : Nat) : (s.dropCline a l).ec = s.ec := rfl
@[simp] theorem dropCline_letters (s : State) (a l : Nat) : (s.dropCline a l).letters = s.letters := rfl
@[simp] theorem dropCline_sorter (s : State) (a l : Nat) : (s.dropCline a l).sorter = s.sorter := rfl
@[simp] theorem dropCline_tiles (s : State) (a l : Nat) : (s.dropCline a l).tiles = s.tiles := rfl
@[simp] theorem dropCline_posts (s : State) (a l : Nat) : (s.dropCline a l).posts = s.posts := rfl
@[simp] theorem dropCline_power (s : State) (a l : Nat) : (s.dropCline a l).power = s.power := rfl
@[simp] theorem dropCline_start (s : State) (a l : Nat) : (s.dropCline a l).start = s.start := rfl
@[simp] theorem dropCline_repair (s : State) (a l : Nat) : (s.dropCline a l).repair = s.repair := rfl
@[simp] theorem dropCline_movers (s : State) (a l : Nat) : (s.dropCline a l).movers = s.movers := rfl
@[simp] theorem dropCline_flash (s : State) (a l : Nat) : (s.dropCline a l).flash = s.flash := rfl
@[simp] theorem dropCline_host (s : State) (a l : Nat) : (s.dropCline a l).host = s.host := rfl
@[simp] theorem dropCline_gate (s : State) (a l : Nat) : (s.dropCline a l).gate = s.gate := rfl
@[simp] theorem dropCline_tarle (s : State) (a l : Nat) : (s.dropCline a l).tarle = s.tarle := rfl
@[simp] theorem dropCline_devs (s : State) (a l : Nat) : (s.dropCline a l).devs = s.devs := rfl
@[simp] theorem dropCline_xlat (s : State) (a l : Nat) : (s.dropCline a l).xlat = s.xlat := rfl
@[simp] theorem dropCline_order (s : State) (a l : Nat) : (s.dropCline a l).order = s.order := rfl
@[simp] theorem dropCline_harts (s : State) (a l : Nat) : (s.dropCline a l).harts = s.harts := rfl
@[simp] theorem dropCline_shadows (s : State) (a l : Nat) : (s.dropCline a l).shadows = s.shadows := rfl
@[simp] theorem dropCline_free (s : State) (a l : Nat) : (s.dropCline a l).free = s.free := rfl
@[simp] theorem dropCline_answer (s : State) (a l : Nat) : (s.dropCline a l).answer = s.answer := rfl

/-! ### `setServe` -/

@[simp] theorem setServe_pending (s : State) (l : Nat) (v : Serve) : (s.setServe l v).pending = s.pending := rfl
@[simp] theorem setServe_flds (s : State) (l : Nat) (v : Serve) : (s.setServe l v).flds = s.flds := rfl
@[simp] theorem setServe_mem (s : State) (l : Nat) (v : Serve) : (s.setServe l v).mem = s.mem := rfl
@[simp] theorem setServe_hostMem (s : State) (l : Nat) (v : Serve) : (s.setServe l v).hostMem = s.hostMem := rfl
@[simp] theorem setServe_ident (s : State) (l : Nat) (v : Serve) : (s.setServe l v).ident = s.ident := rfl
@[simp] theorem setServe_time (s : State) (l : Nat) (v : Serve) : (s.setServe l v).time = s.time := rfl
@[simp] theorem setServe_tick (s : State) (l : Nat) (v : Serve) : (s.setServe l v).tick = s.tick := rfl
@[simp] theorem setServe_ec (s : State) (l : Nat) (v : Serve) : (s.setServe l v).ec = s.ec := rfl
@[simp] theorem setServe_letters (s : State) (l : Nat) (v : Serve) : (s.setServe l v).letters = s.letters := rfl
@[simp] theorem setServe_sorter (s : State) (l : Nat) (v : Serve) : (s.setServe l v).sorter = s.sorter := rfl
@[simp] theorem setServe_tiles (s : State) (l : Nat) (v : Serve) : (s.setServe l v).tiles = s.tiles := rfl
@[simp] theorem setServe_posts (s : State) (l : Nat) (v : Serve) : (s.setServe l v).posts = s.posts := rfl
@[simp] theorem setServe_power (s : State) (l : Nat) (v : Serve) : (s.setServe l v).power = s.power := rfl
@[simp] theorem setServe_start (s : State) (l : Nat) (v : Serve) : (s.setServe l v).start = s.start := rfl
@[simp] theorem setServe_repair (s : State) (l : Nat) (v : Serve) : (s.setServe l v).repair = s.repair := rfl
@[simp] theorem setServe_movers (s : State) (l : Nat) (v : Serve) : (s.setServe l v).movers = s.movers := rfl
@[simp] theorem setServe_flash (s : State) (l : Nat) (v : Serve) : (s.setServe l v).flash = s.flash := rfl
@[simp] theorem setServe_host (s : State) (l : Nat) (v : Serve) : (s.setServe l v).host = s.host := rfl
@[simp] theorem setServe_gate (s : State) (l : Nat) (v : Serve) : (s.setServe l v).gate = s.gate := rfl
@[simp] theorem setServe_tarle (s : State) (l : Nat) (v : Serve) : (s.setServe l v).tarle = s.tarle := rfl
@[simp] theorem setServe_devs (s : State) (l : Nat) (v : Serve) : (s.setServe l v).devs = s.devs := rfl
@[simp] theorem setServe_xlat (s : State) (l : Nat) (v : Serve) : (s.setServe l v).xlat = s.xlat := rfl
@[simp] theorem setServe_order (s : State) (l : Nat) (v : Serve) : (s.setServe l v).order = s.order := rfl
@[simp] theorem setServe_harts (s : State) (l : Nat) (v : Serve) : (s.setServe l v).harts = s.harts := rfl
@[simp] theorem setServe_shadows (s : State) (l : Nat) (v : Serve) : (s.setServe l v).shadows = s.shadows := rfl
@[simp] theorem setServe_free (s : State) (l : Nat) (v : Serve) : (s.setServe l v).free = s.free := rfl
@[simp] theorem setServe_answer (s : State) (l : Nat) (v : Serve) : (s.setServe l v).answer = s.answer := rfl

/-! ### `endServe` -/

@[simp] theorem endServe_pending (s : State) (l : Nat) : (s.endServe l).pending = s.pending := rfl
@[simp] theorem endServe_flds (s : State) (l : Nat) : (s.endServe l).flds = s.flds := rfl
@[simp] theorem endServe_mem (s : State) (l : Nat) : (s.endServe l).mem = s.mem := rfl
@[simp] theorem endServe_hostMem (s : State) (l : Nat) : (s.endServe l).hostMem = s.hostMem := rfl
@[simp] theorem endServe_ident (s : State) (l : Nat) : (s.endServe l).ident = s.ident := rfl
@[simp] theorem endServe_time (s : State) (l : Nat) : (s.endServe l).time = s.time := rfl
@[simp] theorem endServe_tick (s : State) (l : Nat) : (s.endServe l).tick = s.tick := rfl
@[simp] theorem endServe_ec (s : State) (l : Nat) : (s.endServe l).ec = s.ec := rfl
@[simp] theorem endServe_letters (s : State) (l : Nat) : (s.endServe l).letters = s.letters := rfl
@[simp] theorem endServe_sorter (s : State) (l : Nat) : (s.endServe l).sorter = s.sorter := rfl
@[simp] theorem endServe_tiles (s : State) (l : Nat) : (s.endServe l).tiles = s.tiles := rfl
@[simp] theorem endServe_posts (s : State) (l : Nat) : (s.endServe l).posts = s.posts := rfl
@[simp] theorem endServe_power (s : State) (l : Nat) : (s.endServe l).power = s.power := rfl
@[simp] theorem endServe_start (s : State) (l : Nat) : (s.endServe l).start = s.start := rfl
@[simp] theorem endServe_repair (s : State) (l : Nat) : (s.endServe l).repair = s.repair := rfl
@[simp] theorem endServe_movers (s : State) (l : Nat) : (s.endServe l).movers = s.movers := rfl
@[simp] theorem endServe_flash (s : State) (l : Nat) : (s.endServe l).flash = s.flash := rfl
@[simp] theorem endServe_host (s : State) (l : Nat) : (s.endServe l).host = s.host := rfl
@[simp] theorem endServe_gate (s : State) (l : Nat) : (s.endServe l).gate = s.gate := rfl
@[simp] theorem endServe_tarle (s : State) (l : Nat) : (s.endServe l).tarle = s.tarle := rfl
@[simp] theorem endServe_devs (s : State) (l : Nat) : (s.endServe l).devs = s.devs := rfl
@[simp] theorem endServe_xlat (s : State) (l : Nat) : (s.endServe l).xlat = s.xlat := rfl
@[simp] theorem endServe_order (s : State) (l : Nat) : (s.endServe l).order = s.order := rfl
@[simp] theorem endServe_harts (s : State) (l : Nat) : (s.endServe l).harts = s.harts := rfl
@[simp] theorem endServe_shadows (s : State) (l : Nat) : (s.endServe l).shadows = s.shadows := rfl
@[simp] theorem endServe_free (s : State) (l : Nat) : (s.endServe l).free = s.free := rfl
@[simp] theorem endServe_answer (s : State) (l : Nat) : (s.endServe l).answer = s.answer := rfl

/-! ### `journal` -/

@[simp] theorem journal_pending (s : State) : (s.journal).pending = s.pending := rfl
@[simp] theorem journal_flds (s : State) : (s.journal).flds = s.flds := rfl
@[simp] theorem journal_mem (s : State) : (s.journal).mem = s.mem := rfl
@[simp] theorem journal_hostMem (s : State) : (s.journal).hostMem = s.hostMem := rfl
@[simp] theorem journal_ident (s : State) : (s.journal).ident = s.ident := rfl
@[simp] theorem journal_time (s : State) : (s.journal).time = s.time := rfl
@[simp] theorem journal_tick (s : State) : (s.journal).tick = s.tick := rfl
@[simp] theorem journal_ec (s : State) : (s.journal).ec = s.ec := rfl
@[simp] theorem journal_letters (s : State) : (s.journal).letters = s.letters := rfl
@[simp] theorem journal_sorter (s : State) : (s.journal).sorter = s.sorter := rfl
@[simp] theorem journal_tiles (s : State) : (s.journal).tiles = s.tiles := rfl
@[simp] theorem journal_posts (s : State) : (s.journal).posts = s.posts := rfl
@[simp] theorem journal_power (s : State) : (s.journal).power = s.power := rfl
@[simp] theorem journal_start (s : State) : (s.journal).start = s.start := rfl
@[simp] theorem journal_repair (s : State) : (s.journal).repair = s.repair := rfl
@[simp] theorem journal_movers (s : State) : (s.journal).movers = s.movers := rfl
@[simp] theorem journal_host (s : State) : (s.journal).host = s.host := rfl
@[simp] theorem journal_gate (s : State) : (s.journal).gate = s.gate := rfl
@[simp] theorem journal_tarle (s : State) : (s.journal).tarle = s.tarle := rfl
@[simp] theorem journal_coh (s : State) : (s.journal).coh = s.coh := rfl
@[simp] theorem journal_xlat (s : State) : (s.journal).xlat = s.xlat := rfl
@[simp] theorem journal_order (s : State) : (s.journal).order = s.order := rfl
@[simp] theorem journal_harts (s : State) : (s.journal).harts = s.harts := rfl
@[simp] theorem journal_shadows (s : State) : (s.journal).shadows = s.shadows := rfl
@[simp] theorem journal_free (s : State) : (s.journal).free = s.free := rfl
@[simp] theorem journal_answer (s : State) : (s.journal).answer = s.answer := rfl

/-! ### `retire` -/

@[simp] theorem retire_pending (s : State) (t : Nat) : (s.retire t).pending = s.pending := rfl
@[simp] theorem retire_flds (s : State) (t : Nat) : (s.retire t).flds = s.flds := rfl
@[simp] theorem retire_mem (s : State) (t : Nat) : (s.retire t).mem = s.mem := rfl
@[simp] theorem retire_hostMem (s : State) (t : Nat) : (s.retire t).hostMem = s.hostMem := rfl
@[simp] theorem retire_ident (s : State) (t : Nat) : (s.retire t).ident = s.ident := rfl
@[simp] theorem retire_time (s : State) (t : Nat) : (s.retire t).time = s.time := rfl
@[simp] theorem retire_tick (s : State) (t : Nat) : (s.retire t).tick = s.tick := rfl
@[simp] theorem retire_ec (s : State) (t : Nat) : (s.retire t).ec = s.ec := rfl
@[simp] theorem retire_letters (s : State) (t : Nat) : (s.retire t).letters = s.letters := rfl
@[simp] theorem retire_sorter (s : State) (t : Nat) : (s.retire t).sorter = s.sorter := rfl
@[simp] theorem retire_posts (s : State) (t : Nat) : (s.retire t).posts = s.posts := rfl
@[simp] theorem retire_power (s : State) (t : Nat) : (s.retire t).power = s.power := rfl
@[simp] theorem retire_start (s : State) (t : Nat) : (s.retire t).start = s.start := rfl
@[simp] theorem retire_repair (s : State) (t : Nat) : (s.retire t).repair = s.repair := rfl
@[simp] theorem retire_movers (s : State) (t : Nat) : (s.retire t).movers = s.movers := rfl
@[simp] theorem retire_flash (s : State) (t : Nat) : (s.retire t).flash = s.flash := rfl
@[simp] theorem retire_host (s : State) (t : Nat) : (s.retire t).host = s.host := rfl
@[simp] theorem retire_gate (s : State) (t : Nat) : (s.retire t).gate = s.gate := rfl
@[simp] theorem retire_tarle (s : State) (t : Nat) : (s.retire t).tarle = s.tarle := rfl
@[simp] theorem retire_devs (s : State) (t : Nat) : (s.retire t).devs = s.devs := rfl
@[simp] theorem retire_coh (s : State) (t : Nat) : (s.retire t).coh = s.coh := rfl
@[simp] theorem retire_xlat (s : State) (t : Nat) : (s.retire t).xlat = s.xlat := rfl
@[simp] theorem retire_order (s : State) (t : Nat) : (s.retire t).order = s.order := rfl
@[simp] theorem retire_harts (s : State) (t : Nat) : (s.retire t).harts = s.harts := rfl
@[simp] theorem retire_shadows (s : State) (t : Nat) : (s.retire t).shadows = s.shadows := rfl
@[simp] theorem retire_free (s : State) (t : Nat) : (s.retire t).free = s.free := rfl
@[simp] theorem retire_answer (s : State) (t : Nat) : (s.retire t).answer = s.answer := rfl

/-! ### `draw` -/

@[simp] theorem draw_pending (s : State) (n : Nat) : (s.draw n).2.pending = s.pending := rfl
@[simp] theorem draw_flds (s : State) (n : Nat) : (s.draw n).2.flds = s.flds := rfl
@[simp] theorem draw_mem (s : State) (n : Nat) : (s.draw n).2.mem = s.mem := rfl
@[simp] theorem draw_hostMem (s : State) (n : Nat) : (s.draw n).2.hostMem = s.hostMem := rfl
@[simp] theorem draw_ident (s : State) (n : Nat) : (s.draw n).2.ident = s.ident := rfl
@[simp] theorem draw_time (s : State) (n : Nat) : (s.draw n).2.time = s.time := rfl
@[simp] theorem draw_tick (s : State) (n : Nat) : (s.draw n).2.tick = s.tick := rfl
@[simp] theorem draw_ec (s : State) (n : Nat) : (s.draw n).2.ec = s.ec := rfl
@[simp] theorem draw_letters (s : State) (n : Nat) : (s.draw n).2.letters = s.letters := rfl
@[simp] theorem draw_sorter (s : State) (n : Nat) : (s.draw n).2.sorter = s.sorter := rfl
@[simp] theorem draw_tiles (s : State) (n : Nat) : (s.draw n).2.tiles = s.tiles := rfl
@[simp] theorem draw_posts (s : State) (n : Nat) : (s.draw n).2.posts = s.posts := rfl
@[simp] theorem draw_power (s : State) (n : Nat) : (s.draw n).2.power = s.power := rfl
@[simp] theorem draw_start (s : State) (n : Nat) : (s.draw n).2.start = s.start := rfl
@[simp] theorem draw_repair (s : State) (n : Nat) : (s.draw n).2.repair = s.repair := rfl
@[simp] theorem draw_movers (s : State) (n : Nat) : (s.draw n).2.movers = s.movers := rfl
@[simp] theorem draw_flash (s : State) (n : Nat) : (s.draw n).2.flash = s.flash := rfl
@[simp] theorem draw_host (s : State) (n : Nat) : (s.draw n).2.host = s.host := rfl
@[simp] theorem draw_gate (s : State) (n : Nat) : (s.draw n).2.gate = s.gate := rfl
@[simp] theorem draw_tarle (s : State) (n : Nat) : (s.draw n).2.tarle = s.tarle := rfl
@[simp] theorem draw_devs (s : State) (n : Nat) : (s.draw n).2.devs = s.devs := rfl
@[simp] theorem draw_coh (s : State) (n : Nat) : (s.draw n).2.coh = s.coh := rfl
@[simp] theorem draw_xlat (s : State) (n : Nat) : (s.draw n).2.xlat = s.xlat := rfl
@[simp] theorem draw_order (s : State) (n : Nat) : (s.draw n).2.order = s.order := rfl
@[simp] theorem draw_harts (s : State) (n : Nat) : (s.draw n).2.harts = s.harts := rfl
@[simp] theorem draw_shadows (s : State) (n : Nat) : (s.draw n).2.shadows = s.shadows := rfl
@[simp] theorem draw_answer (s : State) (n : Nat) : (s.draw n).2.answer = s.answer := rfl
@[simp] theorem draw_free (s : State) (n : Nat) : (s.draw n).2.free = s.free + 1 := rfl

/-- A free value is below two to its width; nothing else is known of it. -/
theorem draw_lt (s : State) (n : Nat) : (s.draw n).1 < 2 ^ n := Nat.mod_lt _ (Nat.two_pow_pos n)

/-! ### Reads after writes -/

/-- A field reads as the value written to it, cut to its width; every other field reads as before. -/
theorem get_set (s : State) (f g : Fld) (v : Nat) : (s.set f v).get g = if g.key = f.key then v % 2 ^ f.len else s.get g :=
  AMap.getD_put _ _ _ _ _

@[simp] theorem get_set_self (s : State) (f : Fld) (v : Nat) : (s.set f v).get f = v % 2 ^ f.len := by simp [get_set]

theorem get_set_ne (s : State) {f g : Fld} (v : Nat) (h : g.key ≠ f.key) : (s.set f v).get g = s.get g := by simp [get_set, h]

theorem get_raise_ne (s : State) {f g : Fld} (h : g.key ≠ f.key) : (s.raise f).get g = s.get g := get_set_ne s 1 h

theorem get_bump_ne (s : State) {f g : Fld} (n : Nat) (h : g.key ≠ f.key) : (s.bump f n).get g = s.get g := get_set_ne s _ h

theorem get_setFlag_ne (s : State) {f g : Fld} (b : Bool) (h : g.key ≠ f.key) : (s.setFlag f b).get g = s.get g := get_set_ne s _ h

/-- Fields depend on `flds` alone. -/
theorem get_congr {s t : State} (h : t.flds = s.flds) (f : Fld) : t.get f = s.get f := by simp [get, h]

theorem tile_onTile (s : State) (t u : Nat) (f : Tile → Tile) : (s.onTile t f).tile u = if u = t then f (s.tile t) else s.tile u :=
  AMap.getD_put _ _ _ _ _

@[simp] theorem tile_onTile_self (s : State) (t : Nat) (f : Tile → Tile) : (s.onTile t f).tile t = f (s.tile t) := by
  simp [tile_onTile]

theorem pigeon_onPigeon (s : State) (q r : Nat) (f : Pigeon → Pigeon) :
    (s.onPigeon q f).pigeon r = if r = q then f (s.pigeon q) else s.pigeon r := AMap.getD_put _ _ _ _ _

@[simp] theorem pigeon_onPigeon_self (s : State) (q : Nat) (f : Pigeon → Pigeon) : (s.onPigeon q f).pigeon q = f (s.pigeon q) := by
  simp [pigeon_onPigeon]

theorem ring_onRing (s : State) (q r : Nat) (f : Ring → Ring) :
    (s.onRing q f).ring r = if r = q then f (s.ring q) else s.ring r := AMap.getD_put _ _ _ _ _

@[simp] theorem ring_onRing_self (s : State) (q : Nat) (f : Ring → Ring) : (s.onRing q f).ring q = f (s.ring q) := by
  simp [ring_onRing]

theorem tset_onTset (s : State) (q r : Nat) (f : TSet → TSet) :
    (s.onTset q f).tset r = if r = q then f (s.tset q) else s.tset r := AMap.getD_put _ _ _ _ _

@[simp] theorem tset_onTset_self (s : State) (q : Nat) (f : TSet → TSet) : (s.onTset q f).tset q = f (s.tset q) := by
  simp [tset_onTset]

theorem hart_onHart (s : State) (h k : Nat) (f : Hart → Hart) :
    (s.onHart h f).hart k = if k = h then f (s.hart h) else s.hart k := AMap.getD_put _ _ _ _ _

@[simp] theorem hart_onHart_self (s : State) (h : Nat) (f : Hart → Hart) : (s.onHart h f).hart h = f (s.hart h) := by
  simp [hart_onHart]

theorem dev_onDev (s : State) (d e : Nat) (f : MemDev → MemDev) :
    (s.onDev d f).dev e = if e = d then f (s.dev d) else s.dev e := AMap.getD_put _ _ _ _ _

theorem channel_onChannel (s : State) (d e : Nat) (f : Channel → Channel) :
    (s.onChannel d f).channel e = if e = d then f (s.channel d) else s.channel e := AMap.getD_put _ _ _ _ _

theorem fring_onFRing (s : State) (d e : Nat) (f : FRing → FRing) :
    (s.onFRing d f).fring e = if e = d then f (s.fring d) else s.fring e := AMap.getD_put _ _ _ _ _

end State

end Sys2Proof.Machine
end

