-- ==== Sys2Proof/Tests/States.lean ====
section
/-! SUPPORT. Small states for tests and witnesses, and lemmas that decide the premises that are no plain equations. -/

set_option Elab.async false
set_option linter.all false
set_option maxRecDepth 20000
set_option exponentiation.threshold 1100
set_option synthInstance.maxSize 2000
set_option synthInstance.maxHeartbeats 400000

namespace Sys2Proof.Machine.Tests

open Sys2Proof Sys2Proof.Machine

theorem some_of_any {α : Type} {o : Option α} {p : α → Prop} [DecidablePred p] (h : (o.any fun x => decide (p x)) = true) :
    ∃ x, o = some x ∧ p x := by
  cases o with
  | none => cases h
  | some x => exact ⟨x, rfl, of_decide_eq_true h⟩

theorem asks_of {s : State} {src : TarleSource} {opc : Nat} {x : List Byte}
    (h : ((s.requestPage src).any fun p => decide (s.tarleRuns = true ∧ fileNat p 0 1 = opc ∧ 8 + fileNat p 2 2 ≤ p.length ∧
      x = fileBytes p 8 (fileNat p 2 2) ∧ (src = .letter → s.host.sendQ.length ≤ 4))) = true) : s.Asks src opc x :=
  some_of_any h

theorem debugs_of {s : State} {x : List Byte} {i t b g : Nat} {k : Kernel} {y : Group}
    (h : t = fileNat x 2 1 ∧ g = fileNat x 3 1 ∧ b = fileNat x 4 4 ∧ s.group? t b g = some (k, y))
    (h' : ((AMap.get? s.tarle.sessions (fileNat x 0 1)).any fun d => (s.running t).any fun f =>
      decide (d.ops.testBit i = true ∧ ctxidOf f.desc = d.ctx)) = true) : s.Debugs x i t b g k y := by
  refine ⟨h.1, h.2.1, h.2.2.1, h.2.2.2, ?_⟩
  cases hd : AMap.get? s.tarle.sessions (fileNat x 0 1) with
  | none => rw [hd] at h'; cases h'
  | some d =>
    rw [hd] at h'
    cases hf : s.running t with
    | none => rw [hf] at h'; cases h'
    | some f => rw [hf] at h'; exact ⟨d, f, rfl, (of_decide_eq_true h').1, rfl, (of_decide_eq_true h').2⟩

theorem head_of {s : State} {t : Nat} {e : Engine} {op : Nat} {d : BitVec 128} {rest : List (BitVec 128)}
    (h : s.engineRuns t e = true ∧ (s.engine t e).queue = d :: rest ∧ s.commandBad t e d = false ∧ s.lateBad t e d = false ∧ cmdOp d = op ∧
      headWants (s.engine t e) = none ∧ (d.getLsbD 23 = false ∨ (s.engine t e).started = []) ∧ (s.tile t).core.wait = .none) :
    s.Head t e op d rest := h

theorem all_mem {ps : List Piece} (h : (ps.all fun p => match p with | .mem _ _ => true | _ => false) = true) :
    ∀ p ∈ ps, ∃ a n, p = .mem a n := by
  intro p hp
  have h := List.all_eq_true.mp h p hp
  cases p <;> simp_all

theorem pair_of {α β : Type} {p : α × β} {a : α} (h : p.1 = a) : p = (a, p.2) := by rw [← h]

theorem triple_of {α β γ : Type} {p : α × β × γ} {a : α} {b : β} (h : p.1 = a ∧ p.2.1 = b) : p = (a, b, p.2.2) := by rw [← h.1, ← h.2]

/-- The device in Run, READY, its host link up, in round 7 of 100 µs, past its maintenance beat, admission open. -/
def up : State :=
  let s := ((((((State.reset.set Reg.ST_STAT.STATE 5).set Reg.HP_STAT.LINKUP 1).set Reg.RND_CTL.EN 1).set Reg.SORT_CTL.EN 1).set
    Reg.NT_NOW.NOW 750000).set Reg.RND_NUM.NUM 7).set Reg.PW_CTL.DOZEIDLE 16
  { s with start := { begun := true }, time := { ticked := true, tickBase := 700000, beats := 20, cycle := 3000000 } }

/-- A descriptor: opcode, envelope bits 8 to 15, context, budget, tile set, SEQ, and its body as byte offsets and values. -/
def mkDesc (op flags ctx budget tset seq : Nat) (b : List (Nat × Nat)) : BitVec 512 :=
  BitVec.ofNat 512 (op + 2 ^ 8 * flags + 2 ^ 16 * ctx + 2 ^ 32 * budget + 2 ^ 48 * tset + 2 ^ 64 * seq
    + sumNat (b.map fun p => p.2 * 2 ^ (128 + 8 * p.1)))

/-- Queue 0, enabled, of context 1, with its completion ring 0 in service-host memory; tile set 0 of tiles 0 and 1 with 30 beats. -/
def upQ : State :=
  { up with sorter := {
      pigeons := [(0, { en := true, k := 4, ctx := 1, loc := true, rbase := 0x10000, tail := 1, nextSeq := 1 })]
      rings := [(0, { en := true, loc := true, base := 0x2000, j := 4, headAddr := 0x100, ctx := 1 })]
      tsets := [(0, { mask := 3, owner := 1, en := true, balance := 30 })] } }

def withFlight (s : State) (f : Flight) : State := { s with sorter := { s.sorter with flights := s.sorter.flights ++ [f] } }

/-- Flight 1 of queue 0 with a descriptor. -/
def fl (d : BitVec 512) : Flight := { queue := 0, seq := 1, desc := d }

def flAct (d : BitVec 512) : Flight := { queue := 0, seq := 1, desc := d, acted := true, waiting := true }

def onQ (d : BitVec 512) : State := withFlight upQ (fl d)

def onQAct (d : BitVec 512) : State := withFlight upQ (flAct d)

/-- Context 1 with segment 0: the first MiB of Tier 0, readable and writable. -/
def seg1 (s : State) : State :=
  s.onCtx 1 fun x => { x with segs := [(0, { base := 0, limit := 0x100000, pbase := 0, tier := 0, paged := false, w := true, r := true })] }

def fOf (s : State) : Flight := s.sorter.flights.headD (fl 0)

def dLaunch : BitVec 512 := mkDesc 0x10 0 1 10 0 1 [(0, 0x1000)]

/-- A leaf of context 1 in translation cache `id`: virtual addresses below 2 MiB are physical ones. -/
def leaf (id : TlbId) : TlbEntry := ⟨id, 1, 0, 512, 7, 1⟩

def withTile (s : State) (t : Tile) : State := { s with tiles := [(0, t)] }

/-- Flight 1 of queue 0 runs on tile 0. -/
def runningFl (d : BitVec 512) : Flight := { fl d with parts := [⟨0, .running⟩, ⟨1, .sent⟩], started := true }

def coreTile : Tile :=
  { slots := [(0, 1)], active := true, spLost := none,
    core := { running := true, pc := 0x1000, x := [(1, 0x1000), (2, 7), (3, 5), (4, 0x8000000000000002), (5, 0x8000000100000002)] } }

/-- The control core of tile 0 runs, with its data leaf cached. -/
def coreUp : State :=
  let s := seg1 (withTile (withFlight upQ (runningFl dLaunch)) coreTile)
  { s with xlat := { s.xlat with tlb := [leaf (.dtlb 0)] } }

def onT (s : State) (f : Tile → Tile) : State := s.onTile 0 f

/-- A line that the L2 of base die `a - 0x20`, or a node core, holds in M. -/
def withLine (s : State) (a line ctx : Nat) (v : Line) : State := s.setCline a line { st := .m, data := v, ctx := ctx }

end Sys2Proof.Machine.Tests
end

