-- ==== Sys2Proof/Tests/Slice0.lean ====
section
/-! SUPPORT. Tests: an ill-formed term for each check of well-formedness, and worked examples of the manual, whose results stand in its
text. -/

set_option Elab.async false

namespace Sys2Proof.Machine.Tests

open Sys2Proof Sys2Proof.Machine

/-! ## Well-formedness -/

/-- Readings of a beat in which nothing is wrong. -/
def calmReadings : BeatReadings :=
  { sensors := List.replicate 8 (List.replicate 9 50) ++ List.replicate 5 (List.replicate 4 50), memories := List.replicate 24 50
    telemetry := List.replicate 16 0, inputPower := 0, inputVolts := 400 }

theorem test_wf_beat_takes_the_sensors_of_13_dies : (Instr.beatStart calmReadings).wf = true ∧
    (Instr.beatStart { calmReadings with sensors := [] }).wf = false := by decide +kernel
theorem test_wf_rail_sample_takes_16_counts : (Instr.railSample 0 [] 50).wf = false := by decide +kernel
theorem test_wf_bar4_read_of_8191_bytes : (Instr.bar4Read 0 8191).wf = false := by decide +kernel
theorem test_wf_bar4_write_of_4097_bytes : (Instr.bar4Write 0 (List.replicate 4097 0)).wf = false := by decide +kernel
theorem test_wf_root_port_read_with_data :
    (Instr.rootPortInboundRequest 0 none false 0 1 [7]).wf = false ∧ (Instr.rootPortInboundRequest 0 none false 0 8191 []).wf = false := by
  decide +kernel
theorem test_wf_guest_write_of_129_bytes : (Instr.guestWrite 0 (List.replicate 129 0)).wf = false := by decide +kernel
theorem test_wf_guest_masked_write_of_129_bytes : (Instr.guestMaskedWrite 0 (List.replicate 129 0) 0).wf = false := by decide +kernel
theorem test_wf_completion_of_4097_bytes : (Instr.pcieCompletionArrival 0 (List.replicate 4097 0)).wf = false := by decide +kernel
theorem test_wf_letters_of_257_bytes :
    (Instr.wakeLetter (List.replicate 257 0)).wf = false ∧ (Instr.bootDataLetter (List.replicate 257 0)).wf = false ∧
      (Instr.letterForward (List.replicate 257 0)).wf = false ∧ (Instr.badLetter (List.replicate 257 0)).wf = false := by decide +kernel
theorem test_wf_start_takes_13_temperatures : (Instr.startSelfTestDone [] true []).wf = false := by decide +kernel
theorem test_wf_link_rate_8 : (Instr.rootPortLinkChange 0 8 1).wf = false ∧ (Instr.rootPortLinkChange 0 1 6).wf = false := by decide +kernel
theorem test_wf_register_read_of_4097_bytes : (Instr.refusedRegisterRead .host 0 4097).wf = false := by decide +kernel
theorem test_wf_strip_65536 : (Instr.ledgerHomeFold 0 65536).wf = false ∧ (Instr.closingPass 0 65536).wf = false := by decide +kernel
theorem test_no_word_spells_a_command : ∀ n w, decodeTableWord n w = none := fun _ _ => rfl

/-! ## Worked examples -/

/-- Chapter 10's example: 0x1234_5678 lies on stack 6 at offset 0x246_8678. -/
theorem test_place_without_window : State.reset.place 0x12345678 = (6, 0x2468678) := by decide +kernel
/-- The same example: 0x4_8000_1000 lies on stack 1 without the window, and with window 0 on stack 2 at 0x8000_1000. -/
theorem test_place_in_window : (State.reset.place 0x480001000).1 = 1 ∧
    ((((State.reset.set (Reg.MEM_LOCWIN.EN 0) 1).set (Reg.MEM_LOCWIN.BASE 0) 2).set (Reg.MEM_LOCWIN.SIZEM1 0) 0).place 0x480001000) =
      (2, 0x80001000) := by decide +kernel
/-- Chapter 3's example: 360 units on 32 tiles; position 7 takes units 84 to 95. -/
theorem test_share_of_360_units : share 360 32 7 = (84, 12) ∧ (share 360 32 8).2 = 11 ∧ (share 360 32 31).2 = 11 := by decide +kernel
/-- Chapter 9's example: 12 groups a block, LOCAL 96: two blocks with 32 registers, four with 16. -/
theorem test_resident_blocks :
    residentLimit { body := BitVec.ofNat 384 (12 * 2 ^ 160 + 2 ^ 168 + 96 * 2 ^ 176), index := 0, next := 0, stop := 0 } = 2 ∧
    residentLimit { body := BitVec.ofNat 384 (12 * 2 ^ 160 + 96 * 2 ^ 176), index := 0, next := 0, stop := 0 } = 4 := by decide +kernel
/-- Chapter 5's example: 1 + 2^−9 + 2^−11 to BF16 under SR of 8 bits with the draws 0xB3 and 0x2A, and the same for its negative. -/
theorem test_stochastic_rounding :
    (encodeF bf16 { rnd := 5, srbits := 8 } 0xB3 (decodeF fp32 0x3F805000)).1 = 0x3F81 ∧
    (encodeF bf16 { rnd := 5, srbits := 8 } 0x2A (decodeF fp32 0x3F805000)).1 = 0x3F80 ∧
    (encodeF bf16 { rnd := 5, srbits := 8 } 0xB3 (decodeF fp32 0xBF805000)).1 = 0xBF81 ∧
    (encodeF bf16 { rnd := 5, srbits := 8 } 0x2A (decodeF fp32 0xBF805000)).1 = 0xBF80 := by decide +kernel
/-- Chapter 5's example of an MXFP4 block: 13.7, −3.1, 0.6, 0.4, 2.5, 5.0, −0.0 and 0.0 give scale 0x80 and the codes of 0xB7, 0x01, 0x42
and 0x08. -/
theorem test_mxfp4_block : mxBlock (.float e2m1) {} []
    (([0x415B3333, 0xC0466666, 0x3F19999A, 0x3ECCCCCD, 0x40200000, 0x40A00000, 0x80000000, 0] ++ List.replicate 24 0).map (decodeF fp32)) =
    (0x80, [7, 0xB, 1, 0, 2, 4, 8, 0] ++ List.replicate 24 0) := by decide +kernel
/-- Chapter 22's example: the claim register of target 7 lies at 0x41_7000, and CT_TRAP_CNT of tile 0x6B at 0x3_2AE8. -/
theorem test_register_offsets :
    (findReg 0x417000).map (fun x => (x.1.reg == Reg.EC_CLAIM, x.2)) = some (true, (7, 0)) ∧
    (findReg 0x32AE8).map (fun x => (x.1.reg == Reg.CT_TRAP_CNT, x.2)) = some (true, (0x6B, 0)) ∧
    (findReg 0x32AEC).map (fun x => x.2) = some (0x6B, 4) := by decide +kernel
/-- Chapter 14's example: the packed image of 2,560 columns of 7,680 MXFP4 elements has 10,444,800 bytes. -/
theorem test_parcel_image : imageOf (mkDesc 0x30 0 1 0 0 1 [(24, 2560), (28, 7680), (32, 3840), (40, 0x18), (41, 1 + 12)]) = 10444800 := by
  decide +kernel
/-- Chapter 2's example: a ledger of 49 beats that stands at −1 is rebuilt as 48. -/
theorem test_ledger_is_rebuilt_as_48 :
    (((({ upQ with sorter := { upQ.sorter with tsets := [(17, { mask := 3, owner := 1, en := true, live := true, balance := -1 })] } }).rebuildLedgers).tset
      17).balance) = 48 := by decide +kernel
/-- R487's example in chapter 16: a target that holds 200 active claims nothing although 140 is pending; after the completion it claims
140. -/
theorem test_claim_waits_for_completion :
    let src (s : State) (n : Nat) (p a : Bool) : State :=
      s.onSource n fun x => { x with pend := p, active := a, masked := false, target := 7, since := 0 }
    let s := src (src up 200 false true) 140 true false
    s.activeAt 7 = some 200 ∧
      (match execEcClaim .host 7 s with | .next t => t.answer == leBytes 4 0 | _ => false) = true ∧
      (match execEcComplete .host 7 200 s with
        | .next t => match execEcClaim .host 7 t with | .next u => u.answer == leBytes 4 140 | _ => false
        | _ => false) = true := by decide +kernel

end Sys2Proof.Machine.Tests
end

