-- ==== Sys2Proof/Tests/Witness1.lean ====
section
/-! SUPPORT. Witnesses: for each statement with premises, a state and operands that meet them together, for every clause. A premise on an
opaque predicate of Config (a signature, a digest of SPDM, the boot code) is left out: it can be neither proved nor refuted. -/

set_option Elab.async false
set_option linter.all false
set_option maxRecDepth 20000
set_option exponentiation.threshold 1100
set_option synthInstance.maxSize 2000
set_option synthInstance.maxHeartbeats 400000

namespace Sys2Proof.Machine.Tests

open Sys2Proof Sys2Proof.Machine

theorem witness_IdleStepIsACycle :
    (∃ s : State, s.pending = [] ∧ s.vaOn = true ∧ s.time.hold = 0 ∧ s.get Reg.NT_FREQ.FREQ = 0 ∧ s.time.ppsLeft = 0 ∧
      s.now < 2 ^ 64 - 1 ∧ s.time.frac < fracUnit) ∧
    (∃ s : State, s.pending = [] ∧ s.time.hold ≠ 0) :=
  ⟨⟨up, by decide +kernel⟩, ⟨{ up with time := { up.time with hold := 4 } }, by decide +kernel⟩⟩
theorem witness_EveryStepKeeps : ∃ (m : Bool × Bool × BitVec 128 × BitVec 6) (s t : State), s.Kept m ∧ step s = .next t :=
  ⟨State.reset.made, { State.reset with pending := [.mateAssert] }, _, ⟨by decide +kernel, rfl⟩, rfl⟩

namespace IdleStepIsACycle


theorem witness_IdleStepIsACycle :
    ∃ (s : State), s.pending = [] :=
  ⟨up, by decide +kernel⟩

end IdleStepIsACycle

namespace StepOutOfRangeIsIgnored


theorem witness_StepOutOfRangeIsIgnored :
    ∃ (s : State) (r : Requester) (d : BitVec 64), s.reaches r 65560 = (true, s) ∧ (s.flag Reg.NT_STAT.HOLDING = true ∨ d.toInt <
      -1000000000) :=
  ⟨up, Requester.host, BitVec.ofInt 64 (-2000000000), by decide +kernel⟩

end StepOutOfRangeIsIgnored

namespace NodeTimeSteps


theorem witness_NodeTimeSteps :
    (∃ (s : State) (r : Requester) (d : W64), s.reaches r 65560 = (true, s) ∧ s.flag Reg.NT_STAT.HOLDING = false ∧ BitVec.toInt d = 0) ∧
    (∃ (s : State) (r : Requester) (d : BitVec 64), s.reaches r 65560 = (true, s) ∧ s.flag Reg.NT_STAT.HOLDING = false ∧ -1000000000 ≤
      d.toInt ∧ d.toInt < 0) ∧
    (∃ (s : State) (r : Requester) (d : W64), s.reaches r 65560 = (true, s) ∧ s.flag Reg.NT_STAT.HOLDING = false ∧ 0 < BitVec.toInt d
      ∧ s.flag Reg.RND_CTL.EN = false) :=
  ⟨⟨up, Requester.host, 0, by decide +kernel⟩,
   ⟨up, Requester.host, BitVec.ofInt 64 (-1000000000), by decide +kernel⟩,
   ⟨up.set Reg.RND_CTL.EN 0, Requester.host, 1, by decide +kernel⟩⟩

end NodeTimeSteps

namespace ForwardStepTicksOnce


theorem witness_ForwardStepTicksOnce :
    ∃ (s : State) (r : Requester) (d : W64), s.reaches r 65560 = (true, s) ∧ s.flag Reg.NT_STAT.HOLDING = false ∧ s.flag
      Reg.RND_CTL.EN = true ∧ 0 < BitVec.toInt d ∧ s.tickDue = false :=
  ⟨up, Requester.host, 1, by decide +kernel⟩

end ForwardStepTicksOnce

namespace TickSetsRoundNumber


theorem witness_TickSetsRoundNumber :
    ∃ (s : State), s.tickDue = true :=
  ⟨up.set Reg.NT_NOW.NOW 800000, by decide +kernel⟩

end TickSetsRoundNumber

namespace LedgersAtATick

def upT : State := upQ.set Reg.NT_NOW.NOW 1100000

theorem witness_LedgersAtATick :
    (∃ (s : State), s.tickDue = true ∧ s.power.sleep = Sleep.run ∧ s.power.fresh = false ∧ s.sorter.flights = [] ∧ s.sorter.changes =
      [] ∧ s.sorter.written = []) ∧
    (∃ (s : State), s.tickDue = true ∧ s.power.sleep ≠ Sleep.nap ∧ s.power.sleep ≠ Sleep.night) :=
  ⟨⟨upT, by decide +kernel⟩,
   ⟨upT, by decide +kernel⟩⟩

end LedgersAtATick

namespace RoundControl


theorem witness_RoundControl :
    (∃ (s : State) (r : Requester) (v : W32), s.reaches r 65600 = (true, s) ∧ v.toNat / 2 % 4 ≠ 3) ∧
    (∃ (s : State) (r : Requester) (v : W32), s.reaches r 65600 = (true, s) ∧ v.toNat / 2 % 4 = 3) :=
  ⟨⟨up, Requester.host, 0, by decide +kernel⟩,
   ⟨up, Requester.host, 7, by decide +kernel⟩⟩

end RoundControl

namespace PulseAndAlarm

def t1 := up.set Reg.NT_STAT.HOLDING 1
def t2 := (up.set Reg.NT_CTL.PPSEN 1).set Reg.NT_CTL.PPSEDGE 1
def t3 : State := {up.set Reg.NT_ALARM.ALARM 5 with time := {up.time with armed := true}}

theorem witness_PulseAndAlarm :
    (∃ (s : State), s.time.ppsLeft = 0) ∧
    (∃ (s : State) (r : Requester) (v : W64), s.reaches r 65592 = (true, s) ∧ s.now < v.toNat) ∧
    (∃ (s : State), s.flag Reg.NT_STAT.HOLDING = true ∧ s.time.hold = 0) ∧
    (∃ (s : State), s.flag Reg.NT_CTL.PPSEN = true ∧ s.flag Reg.NT_CTL.PPSEDGE = !false ∧ s.flag Reg.NT_CTL.PPSAUTO = false) ∧
    (∃ (s : State), s.time.armed = true ∧ s.get Reg.NT_ALARM.ALARM ≤ s.now ∧ s.power.sleep = Sleep.run) :=
  ⟨⟨up, by decide +kernel⟩,
   ⟨up, Requester.host, 750001, by decide +kernel⟩,
   ⟨t1, by decide +kernel⟩,
   ⟨t2, by decide +kernel⟩,
   ⟨t3, by decide +kernel⟩⟩

end PulseAndAlarm

namespace DeadDoorbell


theorem witness_DeadDoorbell :
    ∃ (s : State) (r : Requester) (q : Fin 16384), s.awake r = s ∧ s.present r = true ∧ s.answers 8388608 = true ∧ ((s.pigeon ↑q).en
      = false ∨ (s.pigeon ↑q).closing = true) :=
  ⟨upQ, Requester.host, 1, by decide +kernel⟩

end DeadDoorbell

namespace Doorbells


theorem witness_Doorbells :
    (∃ (s : State) (r : Requester) (q : Fin 16384) (v : W32), s.awake r = s ∧ s.present r = true ∧ s.answers 8388608 = true ∧
      (s.pigeon ↑q).en = true ∧ (s.pigeon ↑q).closing = false ∧ (v.toNat + 2 ^ 32 - (s.pigeon ↑q).head) % 2 ^ 32 ≤ 2 ^ (s.pigeon
      ↑q).k) ∧
    (∃ (s : State) (r : Requester) (q : Fin 16384) (v : W32), s.awake r = s ∧ s.present r = true ∧ s.answers 8388608 = true ∧
      (s.pigeon ↑q).en = true ∧ (s.pigeon ↑q).closing = false ∧ 2 ^ (s.pigeon ↑q).k < (v.toNat + 2 ^ 32 - (s.pigeon ↑q).head) % 2
      ^ 32 ∧ s.power.sleep = Sleep.run) :=
  ⟨⟨upQ, Requester.host, 0, 1, by decide +kernel⟩,
   ⟨upQ, Requester.host, 0, 17, by decide +kernel⟩⟩

end Doorbells

namespace SelectionOrder


theorem witness_SelectionOrder :
    (∃ (s : State), s.selected = some 0) ∧
    (∃ (s : State), s.selected = some 0 ∧ (0 ∈ List.map (fun x => x.1) s.sorter.pigeons) ∧ s.ready 0 = true ∧ (s.pigeon 0).slotWait =
      false ∧ (s.pigeon 0).fetching = false ∧ (s.pigeon 0).closing = false ∧ s.stepDue 0 = false) :=
  ⟨⟨upQ, by decide +kernel⟩,
   ⟨upQ, by decide +kernel⟩⟩

end SelectionOrder

namespace SelectAndAdmit

def dLa : BitVec 512 := mkDesc 0x10 2 1 10 0 1 [(0, 0x1000)]
def qFetch (d : BitVec 512) : State := upQ.onPigeon 0 fun p => { p with fetching := true, held := [d] }
def dBad := mkDesc 0x10 2 1 10 0 9 [(0, 0x1000)]
def dBig := mkDesc 0x10 2 1 40 0 1 [(0, 0x1000)]
def s1 := qFetch dLa
def s2 := qFetch dBad
def s3 := qFetch dBig

theorem witness_SelectAndAdmit :
    (∃ (s : State), s.admitting = true ∧ s.selected = some 0) ∧
    (∃ (s : State) (q : Fin 16384) (d : BitVec 512) (j : Job), (s.pigeon ↑q).fetching = true ∧ s.ready ↑q = true ∧ (s.pigeon
      ↑q).closing = false ∧ s.stepDue ↑q = false ∧ s.headHeld ↑q = false ∧ s.admitting = true ∧ s.fetchHead ↑q = (d, s) ∧ seqNumOf
      d = (s.pigeon ↑q).nextSeq ∧ s.checkDesc (↑q) d = State.Check.pass j s ∧ classOf (opOf d) = some Cl.tile ∧ s.dueDebits
      (tsetOf d) = s ∧ budgetOf d ≤ s.capacity ∧ 0 < (s.tset (tsetOf d)).balance ∧ ↑(budgetOf d) ≤ (s.tset (tsetOf d)).balance ∧
      Machine.orderOf d = true ∧ (((s.setTiles (tsetOf d)).any fun t => decide (8 ≤ s.slotsUsed t)) = false)) ∧
    (∃ (s : State) (q : Fin 16384) (d : BitVec 512), (s.pigeon ↑q).fetching = true ∧ s.ready ↑q = true ∧ (s.pigeon ↑q).closing = false
      ∧ s.stepDue ↑q = false ∧ s.headHeld ↑q = false ∧ s.admitting = true ∧ s.fetchHead ↑q = (d, s) ∧ seqNumOf d ≠ (s.pigeon
      ↑q).nextSeq) ∧
    (∃ (s : State) (q : Fin 16384) (d : BitVec 512) (j : Job), (s.pigeon ↑q).fetching = true ∧ s.ready ↑q = true ∧ (s.pigeon
      ↑q).closing = false ∧ s.stepDue ↑q = false ∧ s.headHeld ↑q = false ∧ s.admitting = true ∧ s.fetchHead ↑q = (d, s) ∧ seqNumOf
      d = (s.pigeon ↑q).nextSeq ∧ s.checkDesc (↑q) d = State.Check.pass j s ∧ classOf (opOf d) = some Cl.tile ∧ s.dueDebits
      (tsetOf d) = s ∧ budgetOf d ≤ s.capacity ∧ (s.tset (tsetOf d)).balance < ↑(budgetOf d)) :=
  ⟨⟨upQ, by decide +kernel⟩,
   ⟨s1, 0, dLa, { }, by decide +kernel⟩,
   ⟨s2, 0, dBad, by decide +kernel⟩,
   ⟨s3, 0, dBig, { }, by decide +kernel⟩⟩

end SelectAndAdmit

namespace Deliveries

def fo : Flight := { queue := 0, seq := 1, desc := mkDesc 0x10 2 1 10 0 1 [(0, 0x1000)], parts := [⟨0, .sent⟩, ⟨1, .sent⟩], ordered := true }
def fs : Flight := { fo with ordered := false }
def fe : Flight := { fo with ordered := false, parts := [⟨0, .ended⟩, ⟨1, .running⟩] }
def s1 := withFlight upQ fo
def s2 := withFlight upQ fs
def s3 := withFlight (upQ.onPigeon 0 fun p => {p with slotWait := true}) fe

theorem witness_Deliveries :
    (∃ (s : State) (q : Fin 16384) (seq : W32) (f : Flight), s.flight? (↑q) (seq.toNat) = some f ∧ f.ordered = true ∧ s.maintBeat =
      false ∧ (((List.takeWhile (fun x => !(x.queue == ↑q && x.seq == seq.toNat)) s.sorter.flights).all fun x => x.tset != f.tset
      || x.parts.isEmpty) = true)) ∧
    (∃ (s : State) (q : Fin 16384) (seq : W32) (f : Flight) (t : Fin 256), s.flight? (↑q) (seq.toNat) = some f ∧ f.ordered = false ∧
      (∃ p ∈ f.parts, p.tile = ↑t ∧ p.st = PartSt.sent) ∧ (s.tile ↑t).mode = TileMode.normal ∧ (s.tile ↑t).clears = []) ∧
    (∃ (s : State) (q : Fin 16384) (seq : W32) (f : Flight) (t : Fin 256), s.flight? (↑q) (seq.toNat) = some f ∧ (List.find? (fun f =>
      f.parts.any fun p => p.tile == ↑t && p.st == PartSt.ended) s.sorter.flights = some f) ∧ (∃ p ∈ f.parts, p.tile ≠ ↑t ∧ p.st ≠
      PartSt.reported)) :=
  ⟨⟨s1, 0, 1, fo, by decide +kernel⟩,
   ⟨s2, 0, 1, fs, 0, by decide +kernel⟩,
   ⟨s3, 0, 1, fe, 0, by decide +kernel⟩⟩

end Deliveries

namespace RecordsAreWritten

def rec0 : CRecord := { postmark := 7, seq := 1, queue := 0, status := 0 }
def s1 : State := upQ.onRing 0 fun r => { r with waiting := [rec0] }
def s2 : State := upQ.onRing 0 fun r => { r with tail := 16 }
def s3 : State := { upQ with xlat := { upQ.xlat with rings := [(0, { en := true, loc := true, base := 0x8000, j := 2, headAddr := 0x200, ctx := 1, tail := 4 })] } }

theorem witness_RecordsAreWritten :
    (∃ (s : State) (r : Fin 4096) (c : CRecord) (rest : List CRecord), (s.ring ↑r).en = true ∧ (s.ring ↑r).loc = true ∧ s.flag
      Reg.HP_STAT.DETACHED = false ∧ c.regc = false ∧ (s.ring ↑r).waiting = c :: rest ∧ (s.ring ↑r).full = false ∧ (s.ring
      ↑r).evsrc = 0 ∧ { (s.ring ↑r) with tail := ((s.ring ↑r).tail + 1) % 2 ^ 32 }.full = false) ∧
    (∃ (s : State) (n : Fin 4096), (s.ring ↑n).en = true ∧ (s.ring ↑n).full = true ∧ (s.ring ↑n).loc = true ∧ s.hostUp = true) ∧
    (∃ (s : State) (n : Fin 64), (s.fring ↑n).en = true ∧ (s.fring ↑n).full = true ∧ (s.fring ↑n).loc = true ∧ s.hostUp = true) :=
  ⟨⟨s1, 0, rec0, [], by decide +kernel⟩,
   ⟨s2, 0, by decide +kernel⟩,
   ⟨s3, 0, by decide +kernel⟩⟩

end RecordsAreWritten

namespace QueueManagement

def s1 := onQ (mkDesc 0x00 0 1 0 0 1 [])
def b1 := mkDesc 0x01 0 1 0 0 1 [(0, 5), (8, 0x20000 + 8 * 4), (16, 2 ^ 16 * 1 + 2 ^ 13 * 3), (24, 7)]
def s2 := onQ b1
def b2 := mkDesc 0x02 0 1 0 0 1 [(0, 0)]
def s3 := onQ b2
def s4 := (onQAct b2).onPigeon 0 fun p => {p with inflight := 1, closing := true}
def b3 := mkDesc 0x03 0 1 0 0 1 [(0, 0)]
def s5 := (onQ b3)
def b4 := mkDesc 0x04 0 1 0 0 1 [(0, 3), (8, 0x20000 + 8 * 4), (16, 0x400), (24, 2 ^ 16 * 1)]
def s6 := onQ b4
def b5 := mkDesc 0x05 0 1 0 0 1 [(0, 3)]
def s7 := (onQ b5)
def s8 := (onQAct b5)
def b6 := mkDesc 0x06 0 1 0 0 1 [(0, 9), (2, 1), (4, 1), (8, 0xF0)]
def s9 := onQ b6
def b7 := mkDesc 0x07 0 1 0 0 1 [(0, 0)]
def s10 := onQ b7
def f1' := fOf s1
def f2 := fOf s2
def f3 := fOf s3
def f4 := fOf s4
def f5 := fOf s5
def f6 := fOf s6
def f7 := fOf s7
def f8 := fOf s8
def f9 := fOf s9
def f10 := fOf s10

theorem witness_QueueManagement :
    (∃ (s : State) (q : Fin 16384) (seq : W32) (f : Flight), s.flight? (↑q) (seq.toNat) = some f ∧ s.due 0 (↑q) (seq.toNat) = some f) ∧
    (∃ (s : State) (q : Fin 16384) (seq : W32) (f : Flight), s.flight? (↑q) (seq.toNat) = some f ∧ s.due 1 (↑q) (seq.toNat) = some f ∧
      (s.pigeon (body f.desc 0 2)).en = false ∧ s.ctxOpen (body f.desc 16 8 / 2 ^ 16 % 2 ^ 16) = true ∧ (s.ring (body f.desc 16 8
      / 2 ^ 32 % 2 ^ 12)).en = true ∧ (s.ring (body f.desc 16 8 / 2 ^ 32 % 2 ^ 12)).ctx = body f.desc 16 8 / 2 ^ 16 % 2 ^ 16) ∧
    (∃ (s : State) (q : Fin 16384) (seq : W32) (f : Flight), s.flight? (↑q) (seq.toNat) = some f ∧ s.due 2 (↑q) (seq.toNat) = some f ∧
      (s.pigeon (body f.desc 0 2)).en = true ∧ (s.pigeon (body f.desc 0 2)).closing = false ∧ ((s.sorter.flights.any fun x =>
      x.queue == body f.desc 0 2 && classOf (opOf x.desc) == some Cl.sync) = false)) ∧
    (∃ (s : State) (q : Fin 16384) (seq : W32) (f : Flight), s.flight? (↑q) (seq.toNat) = some f ∧ s.acting 2 (↑q) (seq.toNat) = some
      f ∧ ((s.pigeon (body f.desc 0 2)).inflight = if body f.desc 0 2 = ↑q then 1 else 0)) ∧
    (∃ (s : State) (q : Fin 16384) (seq : W32) (f : Flight), s.flight? (↑q) (seq.toNat) = some f ∧ s.due 3 (↑q) (seq.toNat) = some f ∧
      (s.pigeon (body f.desc 0 2)).en = true ∧ stopErrOf f.desc = false) ∧
    (∃ (s : State) (q : Fin 16384) (seq : W32) (f : Flight), s.flight? (↑q) (seq.toNat) = some f ∧ s.due 4 (↑q) (seq.toNat) = some f ∧
      (s.ring (body f.desc 0 2)).en = false ∧ s.ctxOpen (body f.desc 24 8 / 2 ^ 16 % 2 ^ 16) = true) ∧
    (∃ (s : State) (q : Fin 16384) (seq : W32) (f : Flight), s.flight? (↑q) (seq.toNat) = some f ∧ s.due 5 (↑q) (seq.toNat) = some f) ∧
    (∃ (s : State) (q : Fin 16384) (seq : W32) (f : Flight), s.flight? (↑q) (seq.toNat) = some f ∧ s.acting 5 (↑q) (seq.toNat) = some
      f ∧ ((List.any s.sorter.pigeons fun p => p.2.en && p.2.cring == body f.desc 0 2) = false)) ∧
    (∃ (s : State) (q : Fin 16384) (seq : W32) (f : Flight), s.flight? (↑q) (seq.toNat) = some f ∧ s.due 6 (↑q) (seq.toNat) = some f ∧
      s.ctxOpen (body f.desc 2 2) = true ∧ s.sealedCtx (body f.desc 2 2) = false ∧ body f.desc 8 32 ≠ 0 ∧ ((s.knownSets.any fun m
      => m != body f.desc 0 2 && s.nextMask m &&& BitVec.ofNat 256 (body f.desc 8 32) != 0) = false)) ∧
    (∃ (s : State) (q : Fin 16384) (seq : W32) (f : Flight), s.flight? (↑q) (seq.toNat) = some f ∧ s.due 7 (↑q) (seq.toNat) = some f) :=
  ⟨⟨s1, 0, 1, f1', by decide +kernel⟩,
   ⟨s2, 0, 1, f2, by decide +kernel⟩,
   ⟨s3, 0, 1, f3, by decide +kernel⟩,
   ⟨s4, 0, 1, f4, by decide +kernel⟩,
   ⟨s5, 0, 1, f5, by decide +kernel⟩,
   ⟨s6, 0, 1, f6, by decide +kernel⟩,
   ⟨s7, 0, 1, f7, by decide +kernel⟩,
   ⟨s8, 0, 1, f8, by decide +kernel⟩,
   ⟨s9, 0, 1, f9, by decide +kernel⟩,
   ⟨s10, 0, 1, f10, by decide +kernel⟩⟩

end QueueManagement

namespace Synchronization

def bF := mkDesc 0x58 0 1 0 0 1 []
def s1 := onQ bF
def s2 := onQAct bF
def bW := mkDesc 0x59 0 1 0 0 1 [(0, 7)]
def s3 := onQ bW
def bT := mkDesc 0x5A 0 1 0 0 1 [(0, 0),(4,3),(8,1),(16,5)]
def s5 : State := let x := onQ bT; {x with sorter := {x.sorter with flights := x.sorter.flights.map fun f => {f with round := 7}}}
def s6a := (onQAct bT)
def s6 : State := {s6a with sorter := {s6a.sorter with flights := s6a.sorter.flights.map fun f => {f with round := 0}}}
def late : Flight := { queue := 0, seq := 1, desc := mkDesc 0x10 2 1 10 0 1 [(0, 0x1000)], parts := [⟨0, .running⟩], late := true, lateUnheld := 16000, started := true, anyUnheld := true }
def s7 := withFlight upQ late
def f1 := fOf s1
def f2 := fOf s2
def f3 := fOf s3
def f5 := fOf s5
def f6 := fOf s6

theorem witness_Synchronization :
    (∃ (s : State) (q : Fin 16384) (seq : W32) (f : Flight), s.flight? (↑q) (seq.toNat) = some f ∧ s.due 88 (↑q) (seq.toNat) = some f) ∧
    (∃ (s : State) (q : Fin 16384) (seq : W32) (f : Flight), s.flight? (↑q) (seq.toNat) = some f ∧ s.acting 88 (↑q) (seq.toNat) = some
      f ∧ (((List.takeWhile (fun x => !(x.queue == ↑q && x.seq == seq.toNat)) s.sorter.flights).any fun x => x.queue == ↑q) =
      false) ∧ (((s.ring (s.pigeon ↑q).cring).waiting.any fun c => c.queue == ↑q) = false)) ∧
    (∃ (s : State) (q : Fin 16384) (seq : W32) (f : Flight), s.flight? (↑q) (seq.toNat) = some f ∧ s.due 89 (↑q) (seq.toNat) = some f) ∧
    (∃ (s : State) (q : Fin 16384) (seq : W32) (f : Flight), s.flight? (↑q) (seq.toNat) = some f ∧ s.due 90 (↑q) (seq.toNat) = some f
      ∧ s.waitTimedOut f = false) ∧
    (∃ (s : State) (q : Fin 16384) (seq : W32) (f : Flight), s.flight? (↑q) (seq.toNat) = some f ∧ s.acting 90 (↑q) (seq.toNat) = some
      f ∧ s.waitTimedOut f = true ∧ f.abort = 0) ∧
    (∃ (s : State) (q : Fin 16384) (seq : W32) (f : Flight), s.flight? (↑q) (seq.toNat) = some f ∧ f.debits < s.owed f ∧ (s.tset
      f.tset).en = true) :=
  ⟨⟨s1, 0, 1, f1, by decide +kernel⟩,
   ⟨s2, 0, 1, f2, by decide +kernel⟩,
   ⟨s3, 0, 1, f3, by decide +kernel⟩,
   ⟨s5, 0, 1, f5, by decide +kernel⟩,
   ⟨s6, 0, 1, f6, by decide +kernel⟩,
   ⟨s7, 0, 1, late, by decide +kernel⟩⟩

end Synchronization

namespace SortingMode

def sw (d : BitVec 512) : State := let s := seg1 (onQ d); { s with mem := [(0x1000,5),(0x1010,3)], sorter := { s.sorter with sorting := [(0,1)] } }
def d1 := mkDesc 0x50 0 1 0 0 1 [(0, 0x1000), (8, 0x2000), (24, 2), (28, 1)]
def d2 := mkDesc 0x51 0 1 0 0 1 [(0, 0x1010), (8, 0x1000), (16, 0x3000), (24, 1), (32, 1)]
def d3 := mkDesc 0x52 0 1 0 0 1 [(0, 0x1000), (8, 0x2000), (24, 2), (28, 1), (36,1)]
def s1 := sw d1
def s2 := sw d2
def s3 := sw d3
def s4 : State := let s := sw d1; {s with sorter := {s.sorter with sortDone := true}}
def bulkState : State.Bulk → State
  | .done _ v => v
  | _ => State.reset
def bulkBytes : State.Bulk → Option (List (Option Byte))
  | .done bs _ => some bs
  | _ => none
def f1 := fOf s1
def f2 := fOf s2
def f3 := fOf s3
def rd (s : State) (f : Flight) (o n : Nat) : State.Bulk := s.bulkRead 1 (s.microWho f) (body f.desc o 8) n
def wr (s : State) (f : Flight) (o : Nat) (bs : List Byte) : State.Bulk := s.bulkWrite (s.microWho f) (body f.desc o 8) (bs.map some)
def bytesOf (x : State.Bulk) : List Byte := ((bulkBytes x).getD []).map fun b => b.getD 0
def n1 (f : Flight) := body f.desc 24 4 * body f.desc 28 2
def b1 := bytesOf (rd s1 f1 0 (16 * n1 f1))
def v1 := bulkState (rd s1 f1 0 (16 * n1 f1))
def o1 := recBytes (List.flatMap (sortRecs (body f1.desc 30 1)) (rowsOf (body f1.desc 24 4) (recsOf b1 (n1 f1)) (body f1.desc 28 2)))
def l1 := (bulkBytes (wr v1 f1 8 o1)).getD []
def b2 := bytesOf (rd s2 f2 0 (16 * body f2.desc 24 4))
def v2 := bulkState (rd s2 f2 0 (16 * body f2.desc 24 4))
def c2 := bytesOf (rd v2 f2 8 (16 * body f2.desc 32 4))
def b3 := bytesOf (rd s3 f3 0 (16 * n1 f3))
def v3 := bulkState (rd s3 f3 0 (16 * n1 f3))
def o3 := recBytes (List.flatMap (fun r => List.take (body f3.desc 36 2) (sortRecs (body f3.desc 30 1) r)) (rowsOf (body f3.desc 24 4) (recsOf b3 (n1 f3)) (body f3.desc 28 2)))
def l3 := (bulkBytes (wr v3 f3 8 o3)).getD []

theorem bulk_of {x : State.Bulk} {a : List (Option Byte)} (h : bulkBytes x = some a) : x = .done a (bulkState x) := by
  cases x with
  | done b v => exact congrArg (State.Bulk.done · v) (Option.some.inj h)
  | wait v => cases h
  | limit => cases h
theorem witness_SortingMode :
    (∃ (s : State) (v : State) (u : State) (f : Flight) (bs : List Byte) (l : List (Option Byte)), s.sorting? 80 = some f ∧ body
      f.desc 24 4 ≤ 4096 ∧ s.bulkRead 1 (s.microWho f) (body f.desc 0 8) (16 * (body f.desc 24 4 * body f.desc 28 2)) =
      State.Bulk.done (List.map some bs) v ∧ v.bulkWrite (v.microWho f) (body f.desc 8 8) (List.map some (recBytes (List.flatMap
      (sortRecs (body f.desc 30 1)) (rowsOf (body f.desc 24 4) (recsOf bs (body f.desc 24 4 * body f.desc 28 2)) (body f.desc 28
      2))))) = State.Bulk.done l u) ∧
    (∃ (s : State) (v : State) (w : State) (u : State) (f : Flight) (bs : List Byte) (cs : List Byte) (l : List (Option Byte)),
      s.sorting? 81 = some f ∧ sortedRecs (body f.desc 30 1) (recsOf bs (body f.desc 24 4)) = true ∧ sortedRecs (body f.desc 30 1)
      (recsOf cs (body f.desc 32 4)) = true ∧ s.bulkRead 1 (s.microWho f) (body f.desc 0 8) (16 * body f.desc 24 4) =
      State.Bulk.done (List.map some bs) v ∧ v.bulkRead 1 (v.microWho f) (body f.desc 8 8) (16 * body f.desc 32 4) =
      State.Bulk.done (List.map some cs) w ∧ w.bulkWrite (w.microWho f) (body f.desc 16 8) (List.map some (recBytes (mergeRecs
      (body f.desc 30 1) (recsOf bs (body f.desc 24 4)) (recsOf cs (body f.desc 32 4))))) = State.Bulk.done l u) ∧
    (∃ (s : State) (v : State) (u : State) (f : Flight) (bs : List Byte) (l : List (Option Byte)), s.sorting? 82 = some f ∧ s.bulkRead
      1 (s.microWho f) (body f.desc 0 8) (16 * (body f.desc 24 4 * body f.desc 28 2)) = State.Bulk.done (List.map some bs) v ∧
      (v.bulkWrite (v.microWho f) (body f.desc 8 8) (List.map some (recBytes (List.flatMap (fun r => List.take (body f.desc 36 2)
      (sortRecs (body f.desc 30 1) r)) (rowsOf (body f.desc 24 4) (recsOf bs (body f.desc 24 4 * body f.desc 28 2)) (body f.desc
      28 2))))) = State.Bulk.done l u)) ∧
    (∃ (s : State) (rest : List (Nat × Nat)) (f : Flight), s.sorter.sorting = (0, 1) :: rest ∧ s.flight? 0 1 = some f ∧
      s.sorter.sortDone = true) :=
  ⟨⟨s1, _, _, f1, b1, l1,
      (by decide +kernel), (by decide +kernel), (bulk_of (by decide +kernel)), (bulk_of (by decide +kernel))⟩,
   ⟨s2, _, _, _, f2, b2, c2, l1,
      (by decide +kernel), (by decide +kernel), (by decide +kernel), (bulk_of (by decide +kernel)),
      (bulk_of (by decide +kernel)), (bulk_of (by decide +kernel))⟩,
   ⟨s3, _, _, f3, b1, l3,
      (by decide +kernel), (bulk_of (by decide +kernel)), (bulk_of (by decide +kernel))⟩,
   ⟨s4, [], f1,
      (by decide +kernel), (by decide +kernel), (by decide +kernel)⟩⟩

end SortingMode

namespace ContextManagement

def mk (op : Nat) (b : List (Nat × Nat)) : BitVec 512 := mkDesc op 0 1 0 0 1 b
def openC (s : State) : State := s.onCtx 20 fun _ => {}
def s1 := (onQ (mk 0x08 [(0, 20), (2, 1), (3, 9), (4, 1), (6, 3), (16, 77)])).set Reg.MEM_CTL.LOCK 1
def s2a := openC (onQ (mk 0x09 [(0, 20)]))
def s2 : State := { s2a with xlat := { s2a.xlat with tlb := [⟨.hub, 20, 1, 1, 0, 0⟩] } }
def s3 := openC (onQ (mk 0x0A [(0, 20), (2, 0), (8, 0x1001), (16, 0x20000), (24, 0)]))
def s4 := openC (onQAct (mk 0x0A [(0, 20), (2, 1)]))
def s5 := openC (onQ (mk 0x0C [(0, 6), (2, 0), (4, 20)]))
def s6 := openC (onQ (mk 0x0D [(0, 20), (2, 0), (8, 0x5000), (16, 2)]))
def s7a := openC (onQAct (mk 0x0D [(0, 20), (2, 0), (8, 0x5000), (16, 2)]))
def e1 : TlbEntry := ⟨.hub, 20, 5, 1, 0, 0⟩
def e2 : TlbEntry := ⟨.hub, 20, 7, 1, 0, 0⟩
def e3 : TlbEntry := ⟨.hub, 21, 5, 1, 0, 0⟩
def s7 : State := { s7a with xlat := { s7a.xlat with tlb := [e1, e2, e3] } }
def s8 := onQ (mk 0x0E [(0, 3), (8, 0x20000 + 8 * 5 + 4), (16, 0x800), (24, 2 ^ 16 * 1)])
def s9 := onQ (mk 0x0E [(0, 3), (2, 1)])
def s10 := openC (onQ (mk 0x0F [(0, 20), (2, 1), (4, 0xFFFFFFFF), (8, 99)]))
def f1 := fOf s1
def f2 := fOf s2
def f3 := fOf s3
def f4 := fOf s4
def f5 := fOf s5
def f6 := fOf s6
def f7 := fOf s7
def f8 := fOf s8
def f9 := fOf s9
def f10 := fOf s10

theorem witness_ContextManagement :
    (∃ (s : State) (q : Fin 16384) (seq : W32) (f : Flight), s.flight? (↑q) (seq.toNat) = some f ∧ s.due 8 (↑q) (seq.toNat) = some f ∧
      16 ≤ body f.desc 0 2 ∧ s.ctxOpen (body f.desc 0 2) = false ∧ List.length s.xlat.ctxs + 1 < 4096 ∧ s.locked = true ∧ body
      f.desc 8 8 = 0 ∧ body f.desc 2 1 = 1) ∧
    (∃ (s : State) (q : Fin 16384) (seq : W32) (f : Flight), s.flight? (↑q) (seq.toNat) = some f ∧ s.due 9 (↑q) (seq.toNat) = some f ∧
      16 ≤ body f.desc 0 2 ∧ s.ctxOpen (body f.desc 0 2) = true ∧ s.ctxNamed (body f.desc 0 2) = false ∧ ((List.any
      s.tarle.sessions fun p => p.2.ctx == body f.desc 0 2) = false)) ∧
    (∃ (s : State) (q : Fin 16384) (seq : W32) (f : Flight), s.flight? (↑q) (seq.toNat) = some f ∧ s.due 10 (↑q) (seq.toNat) = some f
      ∧ body f.desc 0 2 ≠ 0 ∧ s.ctxOpen (body f.desc 0 2) = true ∧ s.sealedCtx (body f.desc 0 2) = false ∧ (segValid f.desc = true
      → (segOf f.desc).base < (segOf f.desc).limit ∧ (segOf f.desc).limit ≤ 2 ^ 48 ∧ ((segOf f.desc).paged = true ∨ s.segInTier
      (segOf f.desc) = true))) ∧
    (∃ (s : State) (q : Fin 16384) (seq : W32) (f : Flight), s.flight? (↑q) (seq.toNat) = some f ∧ s.acting 10 (↑q) (seq.toNat) = some
      f ∧ s.segHeld (body f.desc 0 2) = false) ∧
    (∃ (s : State) (q : Fin 16384) (seq : W32) (f : Flight), s.flight? (↑q) (seq.toNat) = some f ∧ s.due 12 (↑q) (seq.toNat) = some f
      ∧ s.ctxOpen (body f.desc 4 2) = true ∧ body f.desc 2 1 = 0 ∧ s.sealedCtx (body f.desc 4 2) = false) ∧
    (∃ (s : State) (q : Fin 16384) (seq : W32) (f : Flight), s.flight? (↑q) (seq.toNat) = some f ∧ s.due 13 (↑q) (seq.toNat) = some f
      ∧ (body f.desc 2 1 = 1 ∨ s.ctxOpen (body f.desc 0 2) = true)) ∧
    (∃ (s : State) (q : Fin 16384) (seq : W32) (f : Flight), s.flight? (↑q) (seq.toNat) = some f ∧ s.acting 13 (↑q) (seq.toNat) = some
      f) ∧
    (∃ (s : State) (q : Fin 16384) (seq : W32) (f : Flight), s.flight? (↑q) (seq.toNat) = some f ∧ s.due 14 (↑q) (seq.toNat) = some f
      ∧ body f.desc 2 1 = 0 ∧ (s.fring (body f.desc 0 2)).en = false) ∧
    (∃ (s : State) (q : Fin 16384) (seq : W32) (f : Flight), s.flight? (↑q) (seq.toNat) = some f ∧ s.due 14 (↑q) (seq.toNat) = some f
      ∧ body f.desc 2 1 = 1) ∧
    (∃ (s : State) (q : Fin 16384) (seq : W32) (f : Flight), s.flight? (↑q) (seq.toNat) = some f ∧ s.due 15 (↑q) (seq.toNat) = some f
      ∧ body f.desc 3 1 = 0 ∧ s.ctxOpen (body f.desc 0 2) = true ∧ body f.desc 0 2 ≠ 0) :=
  ⟨⟨s1, 0, 1, f1, by decide +kernel⟩,
   ⟨s2, 0, 1, f2, by decide +kernel⟩,
   ⟨s3, 0, 1, f3, by decide +kernel⟩,
   ⟨s4, 0, 1, f4, by decide +kernel⟩,
   ⟨s5, 0, 1, f5, by decide +kernel⟩,
   ⟨s6, 0, 1, f6, by decide +kernel⟩,
   ⟨s7, 0, 1, f7, by decide +kernel⟩,
   ⟨s8, 0, 1, f8, by decide +kernel⟩,
   ⟨s9, 0, 1, f9, by decide +kernel⟩,
   ⟨s10, 0, 1, f10, by decide +kernel⟩⟩

end ContextManagement

namespace OwnershipJobs

def mk (op : Nat) (b : List (Nat × Nat)) : BitVec 512 := mkDesc op 0 1 0 0 1 b
def d1 := mk 0x0B [(0, 0x400000), (8, 2), (12, 1), (14, 1)]
def s1 := onQ d1
def jb : OwnJob := { queue := 0, seq := 1, granules := 0, first := 2, entry := {owner := 1, mode := 1} }
def jb2 : OwnJob := { queue := 0, seq := 1, granules := 1, first := 2, entry := {owner := 1, mode := 1} }
def s2a := onQAct d1
def s2 : State := { s2a with xlat := { s2a.xlat with jobs := [jb] } }
def s3 : State := { s2a with xlat := { s2a.xlat with jobs := [jb2] }, coh := { s2a.coh with heldGranules := [2] } }
def s4 := seg1 (onQ (mk 0x0F [(0, 1), (2, 1), (3, 1), (16, 0x3000)]))
def s5a := onQ (mk 0x0C [(0, 5), (2, 1), (4, 1)])
def s5 : State := { s5a with xlat := { s5a.xlat with shares := [(5, [1])] } }
def f5 := fOf s5
def f1 := fOf s1
def f2 := fOf s2
def f4 := fOf s4

theorem witness_OwnershipJobs :
    (∃ (s : State) (q : Fin 16384) (seq : W32) (f : Flight), s.flight? (↑q) (seq.toNat) = some f ∧ s.due 11 (↑q) (seq.toNat) = some f
      ∧ s.tierOf (body f.desc 0 8) = some 0 ∧ s.tierOf (body f.desc 0 8 + body f.desc 8 4 * 2 ^ 21 - 1) = some 0 ∧ (0 = 0 → body
      f.desc 0 8 + body f.desc 8 4 * 2 ^ 21 - 1 < reservedBase) ∧ ((List.map (fun x => body f.desc 0 8 / 2 ^ 21 + x) (List.range
      (body f.desc 8 4))).any s.retired = false) ∧ (ownsetEntry f.desc).mode ≠ 3 ∧ s.ctxOpen (ownsetEntry f.desc).owner = true ∧
      ((ownsetEntry f.desc).mode = 2 → (ownsetEntry f.desc).sset ≤ 1023 ∧ s.sealedCtx (ownsetEntry f.desc).owner = false) ∧
      (AMap.getD (s.ctxOf (ownsetEntry f.desc).owner).quotas 0 { }).cap = none) ∧
    (∃ (s : State) (q : Fin 16384) (seq : W32) (f : Flight) (j : OwnJob), s.flight? (↑q) (seq.toNat) = some f ∧ (List.find? (fun j =>
      j.queue == ↑q && j.seq == seq.toNat) s.xlat.jobs = some j) ∧ j.leave = none ∧ s.jobGranules j = []) ∧
    (∃ (s : State) (q : Fin 16384) (seq : W32) (f : Flight) (j : OwnJob), s.flight? (↑q) (seq.toNat) = some f ∧ (List.find? (fun j =>
      j.queue == ↑q && j.seq == seq.toNat) s.xlat.jobs = some j) ∧ j.leave = none ∧ s.jobGranules j = [2] ∧ s.granulesQuiet [2] =
      true) ∧
    (∃ (s : State) (q : Fin 16384) (seq : W32) (f : Flight), s.flight? (↑q) (seq.toNat) = some f ∧ s.due 15 (↑q) (seq.toNat) = some f
      ∧ body f.desc 3 1 = 1 ∧ s.ctxOpen (body f.desc 0 2) = true ∧ (s.writeBytes (ctxidOf f.desc) (body f.desc 16 8) (List.map
      some (leBytes 8 ((AMap.getD (s.ctxOf (body f.desc 0 2)).quotas (body f.desc 2 1) { }).cap.getD 4294967295) ++ leBytes 8
      (s.granulesUsed (body f.desc 0 2) (body f.desc 2 1)) ++ leBytes 8 (AMap.getD (s.ctxOf (body f.desc 0 2)).quotas (body f.desc
      2 1) { }).moveb))).2.flight? (↑q) (seq.toNat) = some f) ∧
    (∃ (s : State) (q : Fin 16384) (seq : W32) (f : Flight), s.flight? (↑q) (seq.toNat) = some f ∧ s.due 12 (↑q) (seq.toNat) = some f
      ∧ s.ctxOpen (body f.desc 4 2) = true ∧ body f.desc 2 1 = 1 ∧ body f.desc 4 2 ∈ s.members (body f.desc 0 2)) :=
  ⟨⟨s1, 0, 1, f1, by decide +kernel⟩,
   ⟨s2, 0, 1, f2, jb, by decide +kernel⟩,
   ⟨s3, 0, 1, f2, jb2, by decide +kernel⟩,
   ⟨s4, 0, 1, f4, by decide +kernel⟩,
   ⟨s5, 0, 1, f5, by decide +kernel⟩⟩

end OwnershipJobs

namespace ControlPrograms

def dL2 : BitVec 512 := mkDesc 0x10 0 1 10 0 1 [(0, 0x1002)]
def fS (d : BitVec 512) : Flight := { fl d with parts := [⟨0, .arrived⟩, ⟨1, .sent⟩], started := true }
def s1 := withTile (withFlight upQ (fS dLaunch)) { slots := [(0,1)], tokens := [(3,4)], fifo := [9] }
def s2 := withTile (withFlight upQ (fS dL2)) { slots := [(0,1)] }
def s3 := onT coreUp fun x => { x with core := { x.core with wait := .ending } }

theorem witness_ControlPrograms :
    (∃ (s : State) (t : Fin 256) (f : Flight), s.partHead (↑t) 16 = some f ∧ f.abort = 0 ∧ body f.desc 0 8 % 4 = 0) ∧
    (∃ (s : State) (t : Fin 256) (f : Flight), s.partHead (↑t) 16 = some f ∧ f.abort = 0 ∧ body f.desc 0 8 % 4 ≠ 0) ∧
    (∃ (s : State) (t : Fin 256), s.coreReady ↑t = true) ∧
    (∃ (s : State) (t : Fin 256) (f : Flight) (rest : List (Nat × Nat)), s.flight? 0 1 = some f ∧ opOf f.desc = 16 ∧ (s.tile
      ↑t).core.wait = CoreWait.ending ∧ (∀ (e : Engine), (s.engine (↑t) e).queue = [] ∧ (s.engine (↑t) e).started = []) ∧
      s.coreDrained ↑t = true ∧ (s.tile ↑t).kernel = none ∧ (s.tile ↑t).slots = (0, 1) :: rest ∧ (s.tile ↑t).clears = []) :=
  ⟨⟨s1, 0, fS dLaunch, by decide +kernel⟩,
   ⟨s2, 0, fS dL2, by decide +kernel⟩,
   ⟨coreUp, 0, by decide +kernel⟩,
   ⟨s3, 0, runningFl dLaunch, [],
      by decide +kernel, by decide +kernel, by decide +kernel, (fun e => by cases e <;> decide +kernel), by decide +kernel⟩⟩

end ControlPrograms

namespace QueueInstructions

def s1 := onT coreUp fun x => { x with ld := { x.ld with queue := List.replicate 64 0 } }
def s2 := onT coreUp fun x => { x with fifo := [7, 8] }

theorem witness_QueueInstructions :
    (∃ (s : State) (t : Fin 256) (rd : BitVec 5) (e : Engine), s.coreReady ↑t = true ∧ (s.engine (↑t) e).queue.length < 64 ∧
      ((s.engine (↑t) e).queue ≠ [] ∨ s.commandBad (↑t) e (s.coreReg (↑t) rd.toNat ++ s.coreReg (↑t) rd.toNat) = false)) ∧
    (∃ (s : State) (t : Fin 256), s.coreReady ↑t = true) ∧
    (∃ (s : State) (t : Fin 256), s.coreReady ↑t = true ∧ (s.tile ↑t).fifo = []) ∧
    (∃ (s : State) (t : Fin 256) (rd : BitVec 5) (rs1 : BitVec 5) (e : Engine), s.coreReady ↑t = true ∧ (s.engine (↑t) e).queue = [] ∧
      s.commandBad (↑t) e (s.coreReg (↑t) rd.toNat ++ s.coreReg (↑t) rs1.toNat) = true) ∧
    (∃ (s : State) (t : Fin 256) (e : Engine), s.coreReady ↑t = true ∧ 64 ≤ (s.engine (↑t) e).queue.length) ∧
    (∃ (s : State) (t : Fin 256) (v : W64) (rest : List W64), s.coreReady ↑t = true ∧ (s.tile ↑t).fifo = v :: rest) :=
  ⟨⟨coreUp, 0, 0, Engine.load, by decide +kernel⟩,
   ⟨coreUp, 0, by decide +kernel⟩,
   ⟨coreUp, 0, by decide +kernel⟩,
   ⟨coreUp, 0, 0, 2, Engine.load, by decide +kernel⟩,
   ⟨s1, 0, Engine.load, by decide +kernel⟩,
   ⟨s2, 0, 7, [8], by decide +kernel⟩⟩

end QueueInstructions

namespace TokenInstructions

def s1 := onT coreUp fun x => { x with tokens := [(1, 9)] }
def s1b := onT s1 fun x => { x with core := { x.core with notices := 1 } }
def p0 : Post := { sender := 0, tile := 1, c := 1, n := 4 }
def s2 : State := { coreUp with posts := [p0] }
def s3 : State := let s := onT s1 fun x => { x with core := { x.core with wait := .take 2 1 5 } }; { s with sorter := { s.sorter with flights := [] } }

theorem witness_TokenInstructions :
    (∃ (s : State) (t : Fin 256), s.coreReady ↑t = true) ∧
    (∃ (s : State) (t : Fin 256) (c : Fin 32) (rd : BitVec 5), s.coreReady ↑t = true ∧ BitVec.toNat (s.coreReg (↑t) rd.toNat) < 2 ^ 32
      ∧ ((s.posts.any fun p => p.sender == ↑t && p.tile == ↑t && p.c == ↑c) = false) ∧ s.counterOf ↑t ↑c + BitVec.toNat (s.coreReg
      (↑t) rd.toNat) % 2 ^ 32 < 2 ^ 32) ∧
    (∃ (s : State) (t : Fin 256) (c : Fin 32) (rd : BitVec 5), s.coreReady ↑t = true ∧ (∀ (e : Engine), headWants (s.engine (↑t) e) ≠
      some ↑c) ∧ BitVec.toNat (s.coreReg (↑t) rd.toNat) % 2 ^ 32 ≤ s.counterOf ↑t ↑c) ∧
    (∃ (s : State) (t : Fin 256) (rs1 : BitVec 5) (f : Flight) (p : Machine.Part), s.coreReady ↑t = true ∧ BitVec.getLsbD (s.coreReg
      (↑t) rs1.toNat) 63 = true ∧ BitVec.toNat (s.coreReg (↑t) rs1.toNat) / 2 ^ 40 % 2 ^ 23 = 0 ∧ s.running ↑t = some f ∧
      f.parts[BitVec.toNat (s.coreReg (↑t) rs1.toNat) / 2 ^ 32 % 256]? = some p) ∧
    (∃ (s : State) (t : Fin 256) (rd : BitVec 5), s.coreReady ↑t = true ∧ BitVec.toNat (s.coreReg (↑t) rd.toNat) < 2 ^ 32 ∧
      s.coreDrained ↑t = false) ∧
    (∃ (s : State) (t : Fin 256) (c : Fin 32) (p : Post), (List.find? (fun p => p.sender == ↑t && p.c == ↑c) s.posts = some p) ∧
      (s.tile p.tile).mode ≠ TileMode.absent) ∧
    (∃ (s : State) (t : Fin 256) (c : Fin 32) (rs1 : BitVec 5), s.coreReady ↑t = true ∧ (∀ (e : Engine), headWants (s.engine (↑t) e) ≠
      some ↑c) ∧ s.counterOf ↑t ↑c < BitVec.toNat (s.coreReg (↑t) rs1.toNat) % 2 ^ 32) ∧
    (∃ (s : State) (t : Fin 256) (c : Fin 32) (rd : BitVec 5), (s.tile ↑t).core.wait = CoreWait.take rd.toNat (↑c) 5 ∧ 5 ≤ s.counterOf
      ↑t ↑c ∧ (s.tile ↑t).mode = TileMode.normal ∧ (∀ (e : Engine), headWants (s.engine (↑t) e) ≠ some ↑c) ∧ s.sorter.flights =
      []) :=
  ⟨⟨s1, 0, by decide +kernel⟩,
   ⟨s1, 0, 1, 0, by decide +kernel⟩,
   ⟨s1, 0, 1, 0,
      by decide +kernel, (fun e => by cases e <;> decide +kernel), by decide +kernel⟩,
   ⟨s1, 0, 4, runningFl dLaunch, { tile := 0, st := PartSt.running }, by decide +kernel⟩,
   ⟨s1b, 0, 0, by decide +kernel⟩,
   ⟨s2, 0, 1, p0, by decide +kernel⟩,
   ⟨s2, 0, 1, 2,
      by decide +kernel, (fun e => by cases e <;> decide +kernel), by decide +kernel⟩,
   ⟨s3, 0, 1, 2,
      by decide +kernel, by decide +kernel, by decide +kernel, (fun e => by cases e <;> decide +kernel), by decide +kernel⟩⟩

end TokenInstructions

namespace CoreAccesses

def l0 : Line := 0x112233445566778899AABBCCDDEEFF
def s1 := onT coreUp fun x => { x with core := { x.core with pocket := [(32, l0)] } }
def s2 := coreUp
def s3 := onT (withLine coreUp 0x20 65 1 l0) fun x => { x with core := { x.core with wait := .fill 6 0x2084 4 true false true 0 } }
def e0 : MergeEntry := { line := 65, data := 5, mask := 15, draining := true, ctx := 1 }
def s4 := onT (withLine coreUp 0x20 65 1 l0) fun x => { x with core := { x.core with merge := [e0] } }
def c0 : CLine := { st := .m, data := l0, ctx := 1 }

theorem witness_CoreAccesses :
    (∃ (s : State) (t : Fin 256) (rd : BitVec 5) (imm : BitVec 12) (size : MemSize) (l : Line), s.coreReady ↑t = true ∧ (false && size
      == MemSize.d) = false ∧ s.target (TlbId.dtlb ↑t) (s.tileWho (↑t) (Waiter.core ↑t)) (BitVec.toNat (s.coreReg (↑t) rd.toNat +
      BitVec.signExtend 64 imm)) (sizeBytes size) accLoad = Target.mem s 4096 0 ∧ (List.find? (fun p => p.1 == 4096 / 128)
      ((s.tile ↑t).core.pocket ++ (s.tile ↑t).core.evict) = some (4096 / 128, l)) ∧ s.resumeDone (Waiter.core ↑t) = s) ∧
    (∃ (s : State) (t : Fin 256) (rs1 : BitVec 5) (imm : BitVec 12) (size : MemSize), s.coreReady ↑t = true ∧ s.target (TlbId.dtlb ↑t)
      (s.tileWho (↑t) (Waiter.core ↑t)) (BitVec.toNat (s.coreReg (↑t) rs1.toNat + BitVec.signExtend 64 imm)) (sizeBytes size)
      accStore = Target.mem s 4096 0 ∧ (s.tile ↑t).core.merge = [] ∧ (s.tile ↑t).core.pocket = [] ∧ (s.tile ↑t).core.evict = [] ∧
      s.resumeDone (Waiter.core ↑t) = s) ∧
    (∃ (s : State) (t : Fin 256) (c : CLine), (s.tile ↑t).core.wait = CoreWait.fill 6 8324 4 true false true 0 ∧ s.merging (↑t) (8324
      / 128) = false ∧ s.l2Avail (s.dieOf ↑t) (8324 / 128) (s.tileWho (↑t) (Waiter.core ↑t)).ctx false = State.Avail.ready c) ∧
    (∃ (s : State) (t : Fin 256) (e : MergeEntry) (rest : List MergeEntry) (c : CLine), s.mergeDue ↑t = true ∧ (s.tile ↑t).core.merge
      = e :: rest ∧ e.host = false ∧ s.coherent (e.line * 128) = true ∧ e.umask = 0 ∧ e.mask ≠ 0 ∧ (s.tile ↑t).core.wait =
      CoreWait.none ∧ s.storeGone (AccUnit.core ↑t) e.line = false ∧ s.l2Avail (s.dieOf ↑t) e.line e.ctx true = State.Avail.ready
      c) :=
  ⟨⟨s1, 0, 1, 0, MemSize.w, l0, by decide +kernel⟩,
   ⟨s2, 0, 1, 0, MemSize.w, by decide +kernel⟩,
   ⟨s3, 0, c0, by decide +kernel⟩,
   ⟨s4, 0, e0, [], c0, by decide +kernel⟩⟩

end CoreAccesses

namespace CoreAtomics

def l0 : Line := 0x112233445566778899AABBCCDDEEFF
def c0 : CLine := { st := .m, data := l0, ctx := 1 }
def s0 := onT (withLine coreUp 0x20 65 1 l0) fun x => { x with core := { x.core with x := [(1, 0x2088), (2, 7)] } }
def s1 := onT s0 fun x => { x with core := { x.core with resv := some 65 } }

theorem witness_CoreAtomics :
    (∃ (s : State) (t : Fin 256) (rd : BitVec 5) (aqrl : BitVec 2) (c : CLine), s.coreReady ↑t = true ∧ (aqrl.getLsbD 0 = false ∨
      s.coreDrained ↑t = true) ∧ (s.target (TlbId.dtlb ↑t) (s.tileWho (↑t) (Waiter.core ↑t)) (BitVec.toNat (s.coreReg (↑t)
      rd.toNat)) (if true = true then 8 else 4) 9 = Target.mem s 8328 0) ∧ 0 ≠ 2 ∧ s.merging (↑t) (8328 / 128) = false ∧
      (s.pocketDrop (↑t) (8328 / 128)).l2Avail (s.dieOf ↑t) (8328 / 128) (s.tileWho (↑t) (Waiter.core ↑t)).ctx true =
      State.Avail.ready c ∧ s.resumeDone (Waiter.core ↑t) = s ∧ 9 = accLr) ∧
    (∃ (s : State) (t : Fin 256) (rd : BitVec 5) (aqrl : BitVec 2) (c : CLine), s.coreReady ↑t = true ∧ (aqrl.getLsbD 0 = false ∨
      s.coreDrained ↑t = true) ∧ (s.target (TlbId.dtlb ↑t) (s.tileWho (↑t) (Waiter.core ↑t)) (BitVec.toNat (s.coreReg (↑t)
      rd.toNat)) (if true = true then 8 else 4) 10 = Target.mem s 8328 0) ∧ 0 ≠ 2 ∧ s.merging (↑t) (8328 / 128) = false ∧
      (s.pocketDrop (↑t) (8328 / 128)).l2Avail (s.dieOf ↑t) (8328 / 128) (s.tileWho (↑t) (Waiter.core ↑t)).ctx true =
      State.Avail.ready c ∧ s.resumeDone (Waiter.core ↑t) = s ∧ 10 = accSc ∧ (s.tile ↑t).core.resv ≠ some (8328 / 128)) ∧
    (∃ (s : State) (t : Fin 256) (rd : BitVec 5) (aqrl : BitVec 2) (c : CLine), s.coreReady ↑t = true ∧ (aqrl.getLsbD 0 = false ∨
      s.coreDrained ↑t = true) ∧ (s.target (TlbId.dtlb ↑t) (s.tileWho (↑t) (Waiter.core ↑t)) (BitVec.toNat (s.coreReg (↑t)
      rd.toNat)) (if true = true then 8 else 4) 11 = Target.mem s 8328 0) ∧ 0 ≠ 2 ∧ s.merging (↑t) (8328 / 128) = false ∧
      (s.pocketDrop (↑t) (8328 / 128)).l2Avail (s.dieOf ↑t) (8328 / 128) (s.tileWho (↑t) (Waiter.core ↑t)).ctx true =
      State.Avail.ready c ∧ s.resumeDone (Waiter.core ↑t) = s ∧ 11 = accAtomic) ∧
    (∃ (s : State) (t : Fin 256) (rd : BitVec 5) (aqrl : BitVec 2) (c : CLine), s.coreReady ↑t = true ∧ (aqrl.getLsbD 0 = false ∨
      s.coreDrained ↑t = true) ∧ (s.target (TlbId.dtlb ↑t) (s.tileWho (↑t) (Waiter.core ↑t)) (BitVec.toNat (s.coreReg (↑t)
      rd.toNat)) (if true = true then 8 else 4) 10 = Target.mem s 8328 0) ∧ 0 ≠ 2 ∧ s.merging (↑t) (8328 / 128) = false ∧
      (s.pocketDrop (↑t) (8328 / 128)).l2Avail (s.dieOf ↑t) (8328 / 128) (s.tileWho (↑t) (Waiter.core ↑t)).ctx true =
      State.Avail.ready c ∧ s.resumeDone (Waiter.core ↑t) = s ∧ 10 = accSc ∧ (s.tile ↑t).core.resv = some (8328 / 128)) :=
  ⟨⟨s0, 0, 1, 0, c0, by decide +kernel⟩,
   ⟨s0, 0, 1, 0, c0, by decide +kernel⟩,
   ⟨s0, 0, 1, 0, c0, by decide +kernel⟩,
   ⟨s1, 0, 1, 0, c0, by decide +kernel⟩⟩

end CoreAtomics

namespace FencesAndTraps

def e0 : MergeEntry := { line := 65, data := 5, mask := 15, ctx := 1 }
def s1 := onT coreUp fun x => { x with core := { x.core with merge := [e0], icache := [3] } }
def s2 : State := { coreUp with tarle := { coreUp.tarle with sessions := [(0, { ctx := 1, ops := 4, expiry := 9 })] } }

theorem witness_FencesAndTraps :
    (∃ (s : State) (t : Fin 256) (pred : BitVec 4), s.coreReady ↑t = true ∧ s.fenceDone (↑t) pred.toNat = true) ∧
    (∃ (s : State) (t : Fin 256), s.coreReady ↑t = true) ∧
    (∃ (s : State) (t : Fin 256), s.coreReady ↑t = true ∧ (Instr.ecall t none = Instr.ecall t none ∨ attachedSession s ↑t = none)) ∧
    (∃ (s : State) (t : Fin 256) (pred : BitVec 4), s.coreReady ↑t = true ∧ s.fenceDone (↑t) pred.toNat = false) ∧
    (∃ (s : State) (t : Fin 256), s.coreReady ↑t = true ∧ attachedSession s ↑t = some 0) :=
  ⟨⟨coreUp, 0, 0, by decide +kernel⟩,
   ⟨coreUp, 0, by decide +kernel⟩,
   ⟨coreUp, 0, by decide +kernel⟩,
   ⟨s1, 0, 1, by decide +kernel⟩,
   ⟨s2, 0, by decide +kernel⟩⟩

end FencesAndTraps

namespace TileResets

def b0 : Tile := { slots := [(0, 1)], active := true, tokens := [(3, 4)], sp := [(5, 6)], fifo := [7], core := { x := [(1, 2)], pc := 4, waitTicks := 9 } }
def inT (x : Tile) : State := withTile (withFlight upQ (runningFl dLaunch)) x
def s1 := inT { b0 with mode := .draining 1 }
def s2 : State := let s := inT { b0 with mode := .draining 2999900 }; { s with order := { s.order with out := [{ unit := .core 0, id := 0, write := true, dev := false, addr := 8, bytes := 8 }] } }
def s3 := inT { b0 with mode := .resetting 5, waiting := [(0, 2)] }
def s4 := inT { b0 with mode := .resetting 2999900 }
def s5 := inT { b0 with mode := .clearing 5 (some 3), waiting := [(0, 2)] }
def s6 : State := let s := inT b0; { s with tick := { s.tick with wdog := 8 } }
def s7 : State := let s := inT b0; { s with tick := { s.tick with wdog := 0 } }

theorem witness_TileResets :
    (∃ (s : State) (t : Fin 256) (rest : List (Nat × Nat)) (f : Flight), s.flight? 0 1 = some f ∧ State.jobOp (opOf f.desc) = false ∧
      f.acks = [] ∧ (s.tile ↑t).mode = TileMode.draining 1 ∧ (s.tile ↑t).core.merge = [] ∧ s.order.out = [] ∧ (s.tile ↑t).active =
      true ∧ (s.tile ↑t).slots = (0, 1) :: rest) ∧
    (∃ (s : State) (t : Fin 256), (s.tile ↑t).mode = TileMode.draining 2999900 ∧ s.drainOver (↑t) 2999900 = false) ∧
    (∃ (s : State) (t : Fin 256), (s.tile ↑t).mode = TileMode.resetting 5 ∧ 5 + 512 ≤ s.time.cycle ∧ (s.tile ↑t).clears = []) ∧
    (∃ (s : State) (t : Fin 256), (s.tile ↑t).mode = TileMode.resetting 2999900 ∧ s.time.cycle < 2999900 + 512) ∧
    (∃ (s : State) (t : Fin 256) (set : Option Nat), (s.tile ↑t).mode = TileMode.clearing 5 set ∧ 5 + 2048 ≤ s.time.cycle ∧ (s.tile
      ↑t).clears = []) ∧
    (∃ (s : State) (t : Fin 256), s.tick.wdog ≠ 0 ∧ (s.tick.wdog ≤ (s.tile ↑t).core.waitTicks ∨ s.tick.wdog ≤ (s.tile ↑t).ld.waitTicks
      ∨ s.tick.wdog ≤ (s.tile ↑t).mx.waitTicks ∨ s.tick.wdog ≤ (s.tile ↑t).ve.waitTicks ∨ s.tick.wdog ≤ (s.tile ↑t).st.waitTicks)
      ∧ (s.tile ↑t).mode = TileMode.normal) ∧
    (∃ (s : State), s.tick.wdog = 0) :=
  ⟨⟨s1, 0, [], runningFl dLaunch, by decide +kernel⟩,
   ⟨s2, 0, by decide +kernel⟩,
   ⟨s3, 0, by decide +kernel⟩,
   ⟨s4, 0, by decide +kernel⟩,
   ⟨s5, 0, some 3, by decide +kernel⟩,
   ⟨s6, 0, by decide +kernel⟩,
   ⟨s7, by decide +kernel⟩⟩

end TileResets

namespace Kernels

/-- Table 9.2's body: ENTRY 0x4000, ARGS 7, NBLOCKS 3, GPB 1, REGS32. -/
def dK : BitVec 512 := mkDesc 0x11 0 1 10 0 1 [(0, 0x4000), (8, 7), (16, 3), (20, 1), (21, 1)]
def fK : Flight := { fl dK with parts := [⟨0, .arrived⟩, ⟨1, .sent⟩], started := true }
def k0 : Kernel := { body := BitVec.ofNat 384 (body dK 0 48), index := 0, next := 0, stop := 2 }
def kL : Kernel := { k0 with launched := true, next := 2, done := some 4 }
def kE : Kernel := { k0 with next := 2 }
def s1 := withTile (withFlight upQ fK) { slots := [(0, 1)] }
def s2 := onT coreUp fun x => { x with kernel := some k0 }
def l0 : List Byte := (List.range 64).map fun i => BitVec.ofNat 8 ((0x4000 + 7 * 2 ^ 64 + 3 * 2 ^ 128 + 2 ^ 160 + 2 ^ 168 + 36 * 2 ^ 384) >>> (8 * i))
def s3 : State := (coreUp.memWrite 0x1000 l0).onTile 0 fun x => { x with slots := [(0, 1)] }
def s5 := withTile (withFlight upQ fK) { slots := [(0, 1)], active := true, kernel := some kE }
def s6 := onT coreUp fun x => { x with kernel := some kL }
def w3 : State := (s3.readPieces 0 (s3.tileWho 0 (.core 0)) [.mem 0x1000 64]).2.2

theorem resume_of {s : State} {w : Waiter} (h : s.xlat.resumed = []) : s.resumeDone w = s := by
  have e : s.xlat.resumed.filter (fun r => r.by_.w != w) = s.xlat.resumed := by rw [h]; rfl
  unfold State.resumeDone
  rw [e]
theorem witness_Kernels :
    (∃ (s : State) (t : Fin 256) (f : Flight), s.partHead (↑t) 17 = some f ∧ f.abort = 0) ∧
    (∃ (s : State) (t : Fin 256), s.coreReady ↑t = true ∧ (s.tile ↑t).kernel.isSome = true) ∧
    (∃ (s : State) (t : Fin 256) (k : Kernel), (s.tile ↑t).kernel = some k ∧ (s.tile ↑t).mode = TileMode.normal ∧ k.trapped = none ∧
      k.next < k.stop ∧ k.blocks.length < residentLimit k) ∧
    (∃ (s : State) (t : Fin 256) (rs1 : BitVec 5) (ps : List Piece) (bs : List Byte) (w : State), s.coreReady ↑t = true ∧ (s.tile
      ↑t).kernel = none ∧ BitVec.toNat (s.coreReg (↑t) rs1.toNat) + 63 < 2 ^ 48 ∧ s.pagePieces (s.tileWho (↑t) (Waiter.core ↑t))
      accLoad (pageSpans (BitVec.toNat (s.coreReg (↑t) rs1.toNat)) 64) = (some ps, s) ∧ (∀ p ∈ ps, ∃ a n, p = Piece.mem a n) ∧
      ps.any s.pieceHeld = false ∧ s.readPieces 0 (s.tileWho (↑t) (Waiter.core ↑t)) ps = (List.map some bs, { }, w) ∧ w.resumeDone
      (Waiter.core ↑t) = w ∧ State.launchBad (leNat bs) = false) ∧
    (∃ (s : State) (t : Fin 256) (k : Kernel) (rest : List (Nat × Nat)) (f : Flight), s.flight? 0 1 = some f ∧ State.jobOp (opOf
      f.desc) = false ∧ (s.tile ↑t).kernel = some k ∧ (s.tile ↑t).mode = TileMode.normal ∧ k.launched = false ∧ s.kernelOver (↑t)
      k = true ∧ (s.tile ↑t).slots = (0, 1) :: rest ∧ (s.tile ↑t).clears = []) ∧
    (∃ (s : State) (t : Fin 256) (k : Kernel), (s.tile ↑t).kernel = some k ∧ (s.tile ↑t).mode = TileMode.normal ∧ k.launched = true ∧
      s.kernelOver (↑t) k = true ∧ k.done = some 4 ∧ s.counterOf (↑t) 4 < 2 ^ 32 - 1 ∧ (s.tile ↑t).core.wait = CoreWait.none) :=
  ⟨⟨s1, 0, fK,
      (by decide +kernel), (by decide +kernel)⟩,
   ⟨s2, 0,
      (by decide +kernel), (by decide +kernel)⟩,
   ⟨s2, 0, k0,
      (by decide +kernel), (by decide +kernel), (by decide +kernel), (by decide +kernel), (by decide +kernel)⟩,
   ⟨s3, 0, 1, [Piece.mem 4096 64], l0, w3,
      (by decide +kernel), (by decide +kernel), (by decide +kernel),
      (by first | decide +kernel | exact pair_of (by decide +kernel)), (all_mem (by decide +kernel)), (by decide +kernel),
      (triple_of (by decide +kernel)), (resume_of (by decide +kernel)), (by decide +kernel)⟩,
   ⟨s5, 0, kE, [], fK,
      (by decide +kernel), (by decide +kernel), (by decide +kernel), (by decide +kernel), (by decide +kernel),
      (by decide +kernel), (by decide +kernel), (by decide +kernel)⟩,
   ⟨s6, 0, kL,
      (by decide +kernel), (by decide +kernel), (by decide +kernel), (by decide +kernel), (by decide +kernel),
      (by decide +kernel), (by decide +kernel)⟩⟩

end Kernels

namespace ShufflesAndVotes

def ln (i : Nat) : Lane := { x := [(1, BitVec.ofNat 64 (3 * i + 1)), (2, BitVec.ofNat 64 (i % 5)), (3, 0xFFFFFFFF), (4, if i < 20 then 0xFFF00000 else 1)], pc := if i < 20 then 0x4000 else 0x4010, exited := decide (i = 3), gen := BitVec.ofNat 64 i }
def dK : BitVec 512 := mkDesc 0x11 0 1 10 0 1 [(0, 0x4000), (8, 7), (16, 3), (20, 1), (21, 1)]
def gx : Group := { block := 1, g := 0, lanes := (List.range 32).map ln }
def gk : Kernel := { body := BitVec.ofNat 384 (body dK 0 48), index := 0, next := 2, stop := 3, blocks := [{ num := 1 }], groups := [gx] }
def gTile : Tile := { slots := [(0, 1)], active := true, kernel := some gk }
def gUp : State := withTile (withFlight upQ (runningFl dK)) gTile
def ls0 : List Nat := issuing gx
def r0 : GroupRef := ⟨0, 1, 0⟩

theorem witness_ShufflesAndVotes :
    ∃ (s : State) (r : GroupRef) (k : Kernel) (x : Machine.Group) (ls : List Nat), s.groupIssues (↑r.tile) r.block.toNat ↑r.group =
      some (k, x, ls) ∧ kRegs32 k = true :=
  ⟨gUp, r0, gk, gx, ls0, by decide +kernel⟩

end ShufflesAndVotes

end Sys2Proof.Machine.Tests
end

