-- ==== Sys2Proof/Tests/Witness2.lean ====
section
/-! SUPPORT. Witnesses: for each statement with premises, a state and operands that meet them together, for every clause. A premise on an
opaque predicate of Config (a signature, a digest of SPDM, the boot code) is left out: it can be neither proved nor refuted. -/

set_option Elab.async false
set_option linter.all false
set_option maxRecDepth 20000
set_option exponentiation.threshold 1100
set_option synthInstance.maxSize 2000
set_option synthInstance.maxHeartbeats 400000

namespace Sys2Proof.Machine.Tests

open Sys2Proof Sys2Proof.Machine

namespace GroupSynchronization

def ln (i : Nat) : Lane := { x := [(1, BitVec.ofNat 64 (3 * i + 1)), (2, BitVec.ofNat 64 (i % 5)), (3, 0xFFFFFFFF), (4, if i < 20 then 0xFFF00000 else 1)], pc := if i < 20 then 0x4000 else 0x4010, exited := decide (i = 3), gen := BitVec.ofNat 64 i }
def dK : BitVec 512 := mkDesc 0x11 0 1 10 0 1 [(0, 0x4000), (8, 7), (16, 3), (20, 1), (21, 1)]
def gx : Group := { block := 1, g := 0, lanes := (List.range 32).map ln }
def gk : Kernel := { body := BitVec.ofNat 384 (body dK 0 48), index := 0, next := 2, stop := 3, blocks := [{ num := 1 }], groups := [gx] }
def gTile : Tile := { slots := [(0, 1)], active := true, kernel := some gk }
def gUp : State := withTile (withFlight upQ (runningFl dK)) gTile
def ls0 : List Nat := issuing gx
def r0 : GroupRef := ⟨0, 1, 0⟩
def gk0 : Kernel := { gk with blocks := [] }
def gUp0 : State := onT gUp fun x => { x with kernel := some gk0 }
def b0 : Block := { num := 1 }

theorem witness_GroupSynchronization :
    (∃ (s : State) (r : GroupRef) (k : Kernel) (x : Machine.Group) (ls : List Nat) (y : Block), s.groupIssues (↑r.tile) r.block.toNat
      ↑r.group = some (k, x, ls) ∧ kRegs32 k = true ∧ (∃ l ∈ x.lanes.zipIdx, l.2 ∉ ls ∧ laneRunnable l.1 = true) ∧ k.blocks = [y]
      ∧ y.num = r.block.toNat ∧ k.groups = [x] ∧ (∀ l ∈ x.lanes, l.wait = none) ∧ y.counts.length = 16 ∧ (∀ i ∈ y.counts, i = 0) ∧
      kGpb k = 1 ∧ x.lanes.length = 32) ∧
    (∃ (s : State) (r : GroupRef) (k : Kernel) (x : Machine.Group) (ls : List Nat), s.groupIssues (↑r.tile) r.block.toNat ↑r.group =
      some (k, x, ls) ∧ kRegs32 k = true ∧ (false = false ∨ s.groupStores (↑r.tile) r.block.toNat ↑r.group = false)) ∧
    (∃ (s : State) (r : GroupRef) (k : Kernel) (x : Machine.Group) (ls : List Nat) (format : BitVec 5) (n : BitVec 5) (f : FFmt),
      s.groupIssues (↑r.tile) r.block.toNat ↑r.group = some (k, x, ls) ∧ kRegs32 k = true ∧ (2 ≤ format.toNat ∧ format.toNat ≤ 8 ∨
      format.toNat = 1 ∧ false = true) ∧ 4 ≤ n.toNat ∧ n.toNat ≤ 16 ∧ elemOf format.toNat = some (Elem.float f)) ∧
    (∃ (s : State) (r : GroupRef) (k : Kernel) (x : Machine.Group) (ls : List Nat), s.groupIssues (↑r.tile) r.block.toNat ↑r.group =
      some (k, x, ls) ∧ kRegs32 k = true ∧ s.groupStores (↑r.tile) r.block.toNat ↑r.group = false) ∧
    (∃ (s : State) (r : GroupRef) (k : Kernel) (x : Machine.Group) (ls : List Nat), s.groupIssues (↑r.tile) r.block.toNat ↑r.group =
      some (k, x, ls) ∧ kRegs32 k = true ∧ (∃ l ∈ x.lanes.zipIdx, l.2 ∉ ls ∧ laneRunnable l.1 = true) ∧ k.blocks = [] ∧ k.groups =
      [x] ∧ (∀ l ∈ x.lanes, l.wait = none) ∧ x.lanes.length = 32) ∧
    (∃ (s : State) (r : GroupRef) (rs1 : BitVec 5) (k : Kernel) (x : Machine.Group) (ls : List Nat), s.groupIssues (↑r.tile)
      r.block.toNat ↑r.group = some (k, x, ls) ∧ kRegs32 k = true ∧ (∃ l ∈ x.lanes.zipIdx, l.2 ∉ ls ∧ laneRunnable l.1 = true) ∧
      k.blocks = [] ∧ k.groups = [x] ∧ (∀ l ∈ x.lanes, l.wait = none) ∧ x.lanes.length = 32 ∧ (∀ i ∈ ls, ∃ j < 32, j ∉ ls ∧
      (BitVec.toNat (laneReg (s.laneAt r i) rs1)).testBit j = true ∧ laneRunnable (s.laneAt r j) = true)) :=
  ⟨⟨gUp, r0, gk, gx, ls0, b0, by decide +kernel⟩,
   ⟨gUp, r0, gk, gx, ls0, by decide +kernel⟩,
   ⟨gUp, r0, gk, gx, ls0, 3, 4, fp16, by decide +kernel⟩,
   ⟨gUp, r0, gk, gx, ls0, by decide +kernel⟩,
   ⟨gUp0, r0, gk0, gx, ls0, by decide +kernel⟩,
   ⟨gUp0, r0, 3, gk0, gx, ls0, by decide +kernel⟩⟩

end GroupSynchronization

namespace ThreadAccesses

def ln (i : Nat) : Lane := { x := [(1, BitVec.ofNat 64 (3 * i + 1)), (2, BitVec.ofNat 64 (i % 5)), (3, 0xFFFFFFFF), (4, if i < 20 then 0xFFF00000 else 1)], pc := if i < 20 then 0x4000 else 0x4010, exited := decide (i = 3), gen := BitVec.ofNat 64 i }
def dK : BitVec 512 := mkDesc 0x11 0 1 10 0 1 [(0, 0x4000), (8, 7), (16, 3), (20, 1), (21, 1), (22, 1), (24, 0x200000)]
def gx : Group := { block := 1, g := 0, lanes := (List.range 32).map ln }
def gk : Kernel := { body := BitVec.ofNat 384 (body dK 0 48), index := 0, next := 2, stop := 3, blocks := [{ num := 1 }], groups := [gx] }
def gTile : Tile := { slots := [(0, 1)], active := true, kernel := some gk }
def gUp : State := withTile (withFlight upQ (runningFl dK)) gTile
def r0 : GroupRef := ⟨0, 1, 0⟩
def ln1 (i : Nat) : Lane := { ln i with pc := if i = 4 then 0x3000 else 0x4000, x := [(1, 0x200010), (2, 77), (3, 0x1008)] }
def gx1 : Group := { gx with lanes := (List.range 32).map ln1 }
def gL : Line := 0x99887766554433221100
def gk1 : Kernel := { gk with groups := [gx1], l1 := [(65, gL)] }
def sA : State := let s := onT gUp fun x => { x with kernel := some gk1, sp := [(0x600010, 0x85), (0x600011, 1)] }
  let s := withLine (seg1 s) 0x20 65 1 gL
  { s with xlat := { s.xlat with tlb := [leaf (.thread 0)] } }
def sB : State := onT sA fun x => { x with kernel := some { gk1 with groups := [{ gx1 with lanes := gx1.lanes.set 4 { ln1 4 with resv := some (localKey 0 0x600010) } }] } }
def gk2 : Kernel := { gk1 with groups := [{ gx1 with lanes := gx1.lanes.set 4 { ln1 4 with resv := some (localKey 0 0x600010) } }] }
def gx2 : Group := { gx1 with lanes := gx1.lanes.set 4 { ln1 4 with resv := some (localKey 0 0x600010) } }
def gk3 : Kernel := { gk1 with groups := [gx3] } where gx3 : Group := { gx1 with lanes := gx1.lanes.set 4 { ln1 4 with x := [(1, 0x2090), (2, 3)] } }
def sC : State := onT sA fun x => { x with kernel := some gk3 }

theorem witness_ThreadAccesses :
    (∃ (s : State) (r : GroupRef) (rs1 : BitVec 5) (aqrl : BitVec 2) (k : Kernel) (x : Machine.Group) (imm : BitVec 12) (size :
      MemSize), s.groupIssues (↑r.tile) r.block.toNat ↑r.group = some (k, x, [4]) ∧ kRegs32 k = true ∧ s.resumeDone (Waiter.group
      (↑r.tile) r.block.toNat ↑r.group) = s ∧ (aqrl.getLsbD 0 = false ∨ s.groupStores (↑r.tile) r.block.toNat ↑r.group = false) ∧
      (false && size == MemSize.d) = false ∧ State.localByte k r.block.toNat (BitVec.toNat (laneReg (s.laneAt r 4) rs1 +
      BitVec.signExtend 64 imm)) = some (some 6291472) ∧ BitVec.toNat (laneReg (s.laneAt r 4) rs1 + BitVec.signExtend 64 imm) %
      sizeBytes size = 0 ∧ s.spBadIn ↑r.tile [(6291472, sizeBytes size)] = []) ∧
    (∃ (s : State) (r : GroupRef) (rs1 : BitVec 5) (aqrl : BitVec 2) (k : Kernel) (x : Machine.Group) (imm : BitVec 12) (size :
      MemSize), s.groupIssues (↑r.tile) r.block.toNat ↑r.group = some (k, x, [4]) ∧ kRegs32 k = true ∧ s.resumeDone (Waiter.group
      (↑r.tile) r.block.toNat ↑r.group) = s ∧ (aqrl.getLsbD 0 = false ∨ s.groupStores (↑r.tile) r.block.toNat ↑r.group = false) ∧
      State.localByte k r.block.toNat (BitVec.toNat (laneReg (s.laneAt r 4) rs1 + BitVec.signExtend 64 imm)) = some (some 6291472)
      ∧ BitVec.toNat (laneReg (s.laneAt r 4) rs1 + BitVec.signExtend 64 imm) % sizeBytes size = 0 ∧ s.spBadIn ↑r.tile [(6291472,
      sizeBytes size)] = []) ∧
    (∃ (s : State) (r : GroupRef) (rs1 : BitVec 5) (aqrl : BitVec 2) (k : Kernel) (x : Machine.Group), s.groupIssues (↑r.tile)
      r.block.toNat ↑r.group = some (k, x, [4]) ∧ kRegs32 k = true ∧ s.resumeDone (Waiter.group (↑r.tile) r.block.toNat ↑r.group)
      = s ∧ (aqrl.getLsbD 0 = false ∨ s.groupStores (↑r.tile) r.block.toNat ↑r.group = false) ∧ State.localByte k r.block.toNat
      (BitVec.toNat (laneReg (s.laneAt r 4) rs1)) = some (some 6291472) ∧ ((BitVec.toNat (laneReg (s.laneAt r 4) rs1) % if false =
      true then 8 else 4) = 0) ∧ (s.spBadIn ↑r.tile [(6291472, if false = true then 8 else 4)] = [])) ∧
    (∃ (s : State) (r : GroupRef) (rs1 : BitVec 5) (aqrl : BitVec 2) (k : Kernel) (x : Machine.Group), s.groupIssues (↑r.tile)
      r.block.toNat ↑r.group = some (k, x, [4]) ∧ kRegs32 k = true ∧ s.resumeDone (Waiter.group (↑r.tile) r.block.toNat ↑r.group)
      = s ∧ (aqrl.getLsbD 0 = false ∨ s.groupStores (↑r.tile) r.block.toNat ↑r.group = false) ∧ State.localByte k r.block.toNat
      (BitVec.toNat (laneReg (s.laneAt r 4) rs1)) = some (some 6291472) ∧ ((BitVec.toNat (laneReg (s.laneAt r 4) rs1) % if false =
      true then 8 else 4) = 0) ∧ (s.spBadIn ↑r.tile [(6291472, if false = true then 8 else 4)] = []) ∧ (s.laneAt r 4).resv ≠ some
      (localKey (↑r.tile) 6291472)) ∧
    (∃ (s : State) (r : GroupRef) (rs1 : BitVec 5) (aqrl : BitVec 2) (k : Kernel) (x : Machine.Group), s.groupIssues (↑r.tile)
      r.block.toNat ↑r.group = some (k, x, [4]) ∧ kRegs32 k = true ∧ s.resumeDone (Waiter.group (↑r.tile) r.block.toNat ↑r.group)
      = s ∧ (aqrl.getLsbD 0 = false ∨ s.groupStores (↑r.tile) r.block.toNat ↑r.group = false) ∧ State.localByte k r.block.toNat
      (BitVec.toNat (laneReg (s.laneAt r 4) rs1)) = some (some 6291472) ∧ ((BitVec.toNat (laneReg (s.laneAt r 4) rs1) % if false =
      true then 8 else 4) = 0) ∧ (s.spBadIn ↑r.tile [(6291472, if false = true then 8 else 4)] = []) ∧ (s.laneAt r 4).resv = some
      (localKey (↑r.tile) 6291472)) ∧
    (∃ (s : State) (r : GroupRef) (rs1 : BitVec 5) (aqrl : BitVec 2) (k : Kernel) (x : Machine.Group) (imm : BitVec 12) (size :
      MemSize) (l : Line), s.groupIssues (↑r.tile) r.block.toNat ↑r.group = some (k, x, [4]) ∧ kRegs32 k = true ∧ s.resumeDone
      (Waiter.group (↑r.tile) r.block.toNat ↑r.group) = s ∧ (aqrl.getLsbD 0 = false ∨ s.groupStores (↑r.tile) r.block.toNat
      ↑r.group = false) ∧ (false && size == MemSize.d) = false ∧ State.localByte k r.block.toNat (BitVec.toNat (laneReg (s.laneAt
      r 4) rs1 + BitVec.signExtend 64 imm)) = none ∧ s.target (TlbId.thread ↑r.tile) (s.tileWho (↑r.tile) (Waiter.group (↑r.tile)
      r.block.toNat ↑r.group)) (BitVec.toNat (laneReg (s.laneAt r 4) rs1 + BitVec.signExtend 64 imm)) (sizeBytes size) accLoad =
      Target.mem s 8336 0 ∧ (List.find? (fun p => p.1 == 8336 / 128) k.l1 = some (8336 / 128, l)) ∧ (∃ c, s.l2Avail (s.dieOf
      ↑r.tile) (8336 / 128) (s.tileWho (↑r.tile) (Waiter.group (↑r.tile) r.block.toNat ↑r.group)).ctx false = State.Avail.ready
      c)) :=
  ⟨⟨sA, r0, 1, 0, gk1, gx1, 0, MemSize.b,
      (by decide +kernel), (by decide +kernel), (by decide +kernel), (by decide +kernel), (by decide +kernel),
      (by decide +kernel), (by decide +kernel), (by decide +kernel)⟩,
   ⟨sA, r0, 1, 0, gk1, gx1, 0, MemSize.b,
      (by decide +kernel), (by decide +kernel), (by decide +kernel), (by decide +kernel), (by decide +kernel),
      (by decide +kernel), (by decide +kernel)⟩,
   ⟨sA, r0, 1, 0, gk1, gx1,
      (by decide +kernel), (by decide +kernel), (by decide +kernel), (by decide +kernel), (by decide +kernel),
      (by decide +kernel), (by decide +kernel)⟩,
   ⟨sA, r0, 1, 0, gk1, gx1,
      (by decide +kernel), (by decide +kernel), (by decide +kernel), (by decide +kernel), (by decide +kernel),
      (by decide +kernel), (by decide +kernel), (by decide +kernel)⟩,
   ⟨sB, r0, 1, 0, gk2, gx2,
      (by decide +kernel), (by decide +kernel), (by decide +kernel), (by decide +kernel), (by decide +kernel),
      (by decide +kernel), (by decide +kernel), (by decide +kernel)⟩,
   ⟨sC, r0, 1, 0, gk3, gk3.gx3, 0, MemSize.b, gL,
      (by decide +kernel), (by decide +kernel), (by decide +kernel), (by decide +kernel), (by decide +kernel),
      (by decide +kernel), (by decide +kernel), (by decide +kernel), (⟨_, rfl⟩)⟩⟩

end ThreadAccesses

namespace GroupTraps

def ln (i : Nat) : Lane := { x := [(1, BitVec.ofNat 64 (3 * i + 1)), (2, BitVec.ofNat 64 (i % 5)), (3, 0xFFFFFFFF), (4, if i < 20 then 0xFFF00000 else 1)], pc := if i < 20 then 0x4000 else 0x4010, exited := decide (i = 3), gen := BitVec.ofNat 64 i }
def dK : BitVec 512 := mkDesc 0x11 0 1 10 0 1 [(0, 0x4000), (8, 7), (16, 3), (20, 1), (21, 1), (22, 1), (24, 0x200000)]
def gx : Group := { block := 1, g := 0, lanes := (List.range 32).map ln }
def gk : Kernel := { body := BitVec.ofNat 384 (body dK 0 48), index := 0, next := 2, stop := 3, blocks := [{ num := 1 }], groups := [gx] }
def gTile : Tile := { slots := [(0, 1)], active := true, kernel := some gk }
def gUp : State := withTile (withFlight upQ (runningFl dK)) gTile
def r0 : GroupRef := ⟨0, 1, 0⟩
def kT : Kernel := { gk with groups := [{ gx with lanes := (List.range 32).map fun i => { ln i with waitTicks := if i = 5 then 9 else 0 } }] }
def gg : Group := { gx with lanes := (List.range 32).map fun i => { ln i with waitTicks := if i = 5 then 9 else 0 } }
def sT : State := let s := onT gUp fun x => { x with kernel := some kT }; { s with tick := { s.tick with bwdog := 8 } }
def sD : State := let s := sT; { s with tarle := { s.tarle with sessions := [(0x80, { ctx := 1, ops := 0xFF, expiry := 0 })] } }
def sZ : State := let s := sT; { s with tick := { s.tick with bwdog := 0 } }
def kE : Kernel := { kT with body := BitVec.ofNat 384 (body (mkDesc 0x11 0 1 10 0 1 [(0, 0x4000), (8, 7), (16, 3), (20, 1), (22, 1), (24, 0x200000)]) 0 48) }
def sE : State := onT sT fun x => { x with kernel := some kE }

theorem witness_GroupTraps :
    (∃ (s : State) (t : Fin 256) (k : Kernel) (b : BitVec 31) (g : Fin 32), (s.tile ↑t).kernel = some k ∧ k.trapped = none ∧ kfield k
      32 8 = 0 ∧ (s.tile ↑t).mode = TileMode.normal ∧ (s.groupIssues (↑t) b.toNat ↑g).isSome = true) ∧
    (∃ (s : State) (t : Fin 256) (k : Kernel) (b : BitVec 31) (g : Fin 32), (s.tile ↑t).kernel = some k ∧ k.trapped = none ∧ kfield k
      32 8 = 0 ∧ (s.tile ↑t).mode = TileMode.normal ∧ (s.groupIssues (↑t) b.toNat ↑g).isSome = true ∧ attachedSession s ↑t = none) ∧
    (∃ (s : State) (t : Fin 256) (k : Kernel) (g : Machine.Group), (s.tile ↑t).kernel = some k ∧ k.trapped = none ∧ kfield k 32 8 = 0
      ∧ (s.tile ↑t).mode = TileMode.normal ∧ k.groups = [g] ∧ { (ln 5) with waitTicks := 9 } ∈ g.lanes ∧
      { (ln 5) with waitTicks := 9 }.exited = false ∧ s.tick.bwdog ≠ 0 ∧ s.tick.bwdog ≤ { (ln 5) with waitTicks := 9 }.waitTicks) ∧
    (∃ (s : State) (t : Fin 256) (k : Kernel) (b : BitVec 31) (g : Fin 32) (x : Machine.Group), (s.tile ↑t).kernel = some k ∧
      k.trapped = none ∧ kfield k 32 8 = 0 ∧ (s.tile ↑t).mode = TileMode.normal ∧ s.groupIssues (↑t) b.toNat ↑g = some (k, x,
      issuing x) ∧ attachedSession s ↑t = some 128 ∧ s.power.sleep = Sleep.run) ∧
    (∃ (s : State) (t : Fin 256) (k : Kernel), (s.tile ↑t).kernel = some k ∧ k.trapped = none ∧ kfield k 32 8 = 0 ∧ (s.tile ↑t).mode =
      TileMode.normal ∧ s.tick.bwdog = 0) ∧
    (∃ (s : State) (t : Fin 256) (k : Kernel) (r : GroupRef) (rd : BitVec 5), (s.tile ↑t).kernel = some k ∧ k.trapped = none ∧ kfield
      k 32 8 = 0 ∧ (s.tile ↑t).mode = TileMode.normal ∧ r.tile = t ∧ (s.groupIssues (↑t) r.block.toNat ↑r.group).isSome = true ∧
      kRegs32 k = false ∧ 16 ≤ rd.toNat) :=
  ⟨⟨sT, 0, kT, 1, 0, by decide +kernel⟩,
   ⟨sT, 0, kT, 1, 0, by decide +kernel⟩,
   ⟨sT, 0, kT, gg, by decide +kernel⟩,
   ⟨sD, 0, kT, 1, 0, gg, by decide +kernel⟩,
   ⟨sZ, 0, kT, by decide +kernel⟩,
   ⟨sE, 0, kE, r0, 16, by decide +kernel⟩⟩

end GroupTraps

namespace LoadAndStoreCommands

def cmd (op : Nat) (b : List (Nat × Nat)) : BitVec 128 := BitVec.ofNat 128 (op + sumNat (b.map fun p => p.2 * 2 ^ p.1))
def dAr := [(32, 2), (64, 0x1234), (16, 3), (21, 1)]
def dNop : BitVec 128 := cmd 0 [(16, 3)]
def dSetar : BitVec 128 := cmd 1 dAr
def dSetsr : BitVec 128 := cmd 2 dAr
def dZero : BitVec 128 := cmd 4 [(110, 4), (98, 1), (82, 7), (70, 1)]
def dMove : BitVec 128 := cmd 3 [(110, 4), (82, 7), (70, 1), (64, 1), (67, 1)]
def dDone : BitVec 128 := cmd 3 [(16, 3), (21, 1)]
def hd (d : BitVec 128) : EngineSt := { queue := [d, 0], ar := [(1, 0x2000), (2, 9)], sr := [(1, 64)], started := [(0, true)] }
def base : State := let s := seg1 (withTile (withFlight upQ (runningFl dLaunch)) { coreTile with sp := [(128, 5), (130, 6)], tokens := [(3, 2)] })
  let s := s.memWrite 0x2000 [1, 2, 3, 4, 5, 6, 7, 8]
  s
def sL (d : BitVec 128) : State := onT base fun x => { x with ld := hd d }
def sS (d : BitVec 128) : State := onT base fun x => { x with st := hd d }
def sC1 : State := onT base fun x => { x with ld := { started := [(dDone, true)] } }
def p0 : List Piece := ((sL dMove).spanPieces ((sL dMove).tileWho 0 (.fill 0)) false [(0x2000, 8)]).1.getD [] |>.headD none |>.getD []
def w0 : State := ((sL dMove).readPieces 1 ((sL dMove).tileWho 0 (.fill 0)) p0).2.2
def v0 : State := let s := sS dMove; (s.writePieces (s.tileWho 0 (.store 0)) p0 ((s.spBytes 0 128 8).map some)).2

theorem witness_LoadAndStoreCommands :
    (∃ (s : State) (t : Fin 256) (e : Engine) (d : BitVec 128) (rest : List (BitVec 128)), s.Head (↑t) e 0 d rest) ∧
    (∃ (s : State) (t : Fin 256) (e : Engine) (d : BitVec 128) (rest : List (BitVec 128)), (Instr.ldSetar t, e) ∈ [(Instr.ldSetar t,
      e), (Instr.stSetar t, Engine.store)] ∧ s.Head (↑t) e 1 d rest) ∧
    (∃ (s : State) (t : Fin 256) (e : Engine) (d : BitVec 128) (rest : List (BitVec 128)), (Instr.ldSetsr t, e) ∈ [(Instr.ldSetsr t,
      e), (Instr.stSetsr t, Engine.store)] ∧ s.Head (↑t) e 2 d rest) ∧
    (∃ (s : State) (t : Fin 256) (e : Engine) (d : BitVec 128) (rest : List (BitVec 128)), s.Head (↑t) e 4 d rest) ∧
    (∃ (s : State) (t : Fin 256) (e : Engine) (d : BitVec 128) (rest : List (BitVec 128)) (ps : List Piece) (bs : List Byte) (w :
      State), s.Head (↑t) e 3 d rest ∧ bitsOf d 98 12 = 0 ∧ cmdRows d = [(128, bitsOf d 82 16 + 1)] ∧ bs.length = bitsOf d 82 16 +
      1 ∧ s.spBadIn ↑t [(128, bitsOf d 82 16 + 1)] = [] ∧ s.spanPieces (s.tileWho (↑t) (Waiter.fill ↑t)) false [(State.rowAddress
      (s.engine (↑t) e) d 0, bitsOf d 82 16 + 1)] = (some [some ps], s) ∧ (∀ p ∈ ps, ∃ b n, p = Piece.mem b n) ∧ s.resumeDone
      (Waiter.fill ↑t) = s ∧ s.readPieces 1 (s.tileWho (↑t) (Waiter.fill ↑t)) ps = (List.map some bs, { }, w) ∧ w.tiles = s.tiles) ∧
    (∃ (s : State) (t : Fin 256) (d : BitVec 128) (rest : List (BitVec 128)) (ps : List Piece) (v : State), s.Head (↑t) Engine.store 3
      d rest ∧ bitsOf d 98 12 = 0 ∧ cmdRows d = [(128, bitsOf d 82 16 + 1)] ∧ s.spBadIn ↑t [(128, bitsOf d 82 16 + 1)] = [] ∧
      s.spanPieces (s.tileWho (↑t) (Waiter.store ↑t)) true [(State.rowAddress (s.engine (↑t) Engine.store) d 0, bitsOf d 82 16 +
      1)] = (some [some ps], s) ∧ s.resumeDone (Waiter.store ↑t) = s ∧ s.writePieces (s.tileWho (↑t) (Waiter.store ↑t)) ps
      (List.map some (s.spBytes (↑t) 128 (bitsOf d 82 16 + 1))) = ({ }, v) ∧ v.tiles = s.tiles) ∧
    (∃ (s : State) (t : Fin 256) (e : Engine) (d : BitVec 128) (more : List (BitVec 128 × Bool)), (s.engine (↑t) e).started = (d,
      true) :: more ∧ (e = Engine.store → s.storesDone ↑t = true) ∧ (s.tile ↑t).mode ≠ TileMode.absent ∧ (s.tile ↑t).core.wait =
      CoreWait.none ∧ s.counterOf (↑t) (bitsOf d 16 5) < 2 ^ 32 - 1) :=
  ⟨⟨sL dNop, 0, Engine.load, dNop, [0],
      head_of (by decide +kernel)⟩,
   ⟨sL dSetar, 0, Engine.load, dSetar, [0],
      (by decide +kernel), (head_of (by decide +kernel))⟩,
   ⟨sL dSetsr, 0, Engine.load, dSetsr, [0],
      (by decide +kernel), (head_of (by decide +kernel))⟩,
   ⟨sL dZero, 0, Engine.load, dZero, [0],
      head_of (by decide +kernel)⟩,
   ⟨sL dMove, 0, Engine.load, dMove, [0], p0, [1, 2, 3, 4, 5, 6, 7, 8], w0,
      (head_of (by decide +kernel)), (by decide +kernel), (by decide +kernel), (by decide +kernel), (by decide +kernel),
      (by decide +kernel), (all_mem (by decide +kernel)), (by decide +kernel), (triple_of (by decide +kernel)),
      (by decide +kernel)⟩,
   ⟨sS dMove, 0, dMove, [0], p0, v0,
      (head_of (by decide +kernel)), (by decide +kernel), (by decide +kernel), (by decide +kernel), (by decide +kernel),
      (by decide +kernel), (by first | decide +kernel | exact pair_of (by decide +kernel)), (by decide +kernel)⟩,
   ⟨sC1, 0, Engine.load, dDone, [],
      (by decide +kernel), (by decide +kernel), (by decide +kernel), (by decide +kernel), (by decide +kernel)⟩⟩

end LoadAndStoreCommands

namespace MatrixCommands

def cmd (op : Nat) (b : List (Nat × Nat)) : BitVec 128 := BitVec.ofNat 128 (op + sumNat (b.map fun p => p.2 * 2 ^ p.1))
def dSetm : BitVec 128 := cmd 1 [(91, 1), (86, 1), (76, 1), (96, 5)]
def dSetp : BitVec 128 := cmd 2 [(112, 2), (96, 2)]
def dExp : BitVec 128 := cmd 4 [(110, 0), (92, 4096), (91, 1)]
def pitch : BitVec 128 := cmd 0 [(112, 2), (96, 2)]
def pitch64 : BitVec 128 := cmd 0 [(112, 32), (96, 32)]
def m0 : MatrixSt := { modeValid := true, pitchValid := true, mode := cmd 0 [(91, 1), (86, 1)], pitch := pitch, banks := [{}, { st := .accum, words := [0x3F800000] }, {}, {}] }
def base (x : EngineSt) (m : MatrixSt) : State := seg1 (withTile (withFlight upQ (runningFl dLaunch)) { coreTile with sp := [(2, 0x80), (3, 0x3F), (66, 0x40), (67, 0x40), (8194, 0x80), (8195, 0x3F), (8262, 0x40), (8263, 0x41)], spLost := none, mx := x, matrix := m })
def hd (d : BitVec 128) : EngineSt := { queue := [d, 0], started := [(0, true)] }
def m64 : MatrixSt := { m0 with mode := 0, pitch := pitch64, banks := [{}, {}, {}, {}] }
def m1 : MatrixSt := { m0 with inTray := [{ full := true, fmt := 1, kc := 16, elems := List.replicate 128 [0x3F800000], scales := [] }] }
def dIna : BitVec 128 := cmd 3 [(92, 256), (43, 1), (44, 2), (41, 1)]
def dSl : BitVec 128 := cmd 3 [(110, 0), (92, 4096), (43, 1)]
def tF : TrayEntry := { bank := 0, ty := .fp64, tag := 5 }
def oI : Operand := { elems := List.replicate 128 [0x3F800000], scales := List.replicate 128 [] }

theorem witness_MatrixCommands :
    (∃ (s : State) (t : Fin 256) (d : BitVec 128) (rest : List (BitVec 128)), (s.tile ↑t).spBad = [] ∧ s.Head (↑t) Engine.matrix 1 d
      rest ∧ matrixHeld (s.tile ↑t).matrix d = false) ∧
    (∃ (s : State) (t : Fin 256) (d : BitVec 128) (rest : List (BitVec 128)) (x : Operand), (s.tile ↑t).spBad = [] ∧ s.Head (↑t)
      Engine.matrix 3 d rest ∧ matrixHeld (s.tile ↑t).matrix d = false ∧ modeSliced (s.tile ↑t).matrix = false ∧ (s.tile
      ↑t).matrix.banks.length = 4 ∧ (if d.getLsbD 41 = true then ∃ i ∈ List.find? (fun i => !i.used) (s.tile ↑t).matrix.inTray, x
      = { i with scales := if i.scales.isEmpty = true then List.replicate 128 [] else i.scales } ∧ i.elems.length = 128 ∧
      (i.scales = [] ∨ i.scales.length = 128) else x = s.operandAt (↑t) (s.tile ↑t).matrix (bitsOf (s.tile ↑t).matrix.mode 91 5)
      ((modeKc (s.tile ↑t).matrix).getD 128) (bitsOf d 110 18) 112 (bitsOf d 69 23) 80)) ∧
    (∃ (s : State) (t : Fin 256) (d : BitVec 128) (rest : List (BitVec 128)), (s.tile ↑t).spBad = [] ∧ s.Head (↑t) Engine.matrix 3 d
      rest ∧ matrixHeld (s.tile ↑t).matrix d = false ∧ modeSliced (s.tile ↑t).matrix = true ∧ (((s.tile ↑t).mx.started.any fun c
      => cmdOp c.1 == 4) = false)) ∧
    (∃ (t : Fin 256) (e : TrayEntry) (more : List TrayEntry), ((base { }
      { modeValid := m0.modeValid, pitchValid := m0.pitchValid, mode := m0.mode, pitch := m0.pitch, banks := [{ st := BankSt.close64, words := [7] }, { }, { }, { }], tray := m0.tray, closing := e :: more, inTray := m0.inTray, rows := m0.rows, cols := m0.cols, acc64 := m0.acc64, live64 := m0.live64, special := m0.special, gens := m0.gens, steps := m0.steps }).tile
      ↑t).spBad = [] ∧ ((base { }
      { modeValid := m0.modeValid, pitchValid := m0.pitchValid, mode := m0.mode, pitch := m0.pitch, banks := [{ st := BankSt.close64, words := [7] }, { }, { }, { }], tray := m0.tray, closing := e :: more, inTray := m0.inTray, rows := m0.rows, cols := m0.cols, acc64 := m0.acc64, live64 := m0.live64, special := m0.special, gens := m0.gens, steps := m0.steps }).tile
      ↑t).matrix.closing = e :: more ∧ e.bank < ((base { }
      { modeValid := m0.modeValid, pitchValid := m0.pitchValid, mode := m0.mode, pitch := m0.pitch, banks := [{ st := BankSt.close64, words := [7] }, { }, { }, { }], tray := m0.tray, closing := e :: more, inTray := m0.inTray, rows := m0.rows, cols := m0.cols, acc64 := m0.acc64, live64 := m0.live64, special := m0.special, gens := m0.gens, steps := m0.steps }).tile
      ↑t).matrix.banks.length) ∧
    (∃ (s : State) (t : Fin 256) (d : BitVec 128) (rest : List (BitVec 128)), (s.tile ↑t).spBad = [] ∧ s.Head (↑t) Engine.matrix 2 d
      rest) ∧
    (∃ (s : State) (t : Fin 256) (d : BitVec 128) (rest : List (BitVec 128)), (s.tile ↑t).spBad = [] ∧ s.Head (↑t) Engine.matrix 4 d
      rest ∧ matrixHeld (s.tile ↑t).matrix d = false) :=
  ⟨⟨base (hd dSetm) { }, 0, dSetm, [0],
      by decide +kernel, head_of (by decide +kernel), by decide +kernel⟩,
   ⟨base (hd dIna) m1, 0, dIna, [0], oI,
      by decide +kernel, head_of (by decide +kernel), by decide +kernel⟩,
   ⟨base (hd dSl) m64, 0, dSl, [0],
      by decide +kernel, head_of (by decide +kernel), by decide +kernel⟩,
   ⟨0, tF, [], by decide +kernel⟩,
   ⟨base (hd dSetp) { }, 0, dSetp, [0],
      by decide +kernel, head_of (by decide +kernel)⟩,
   ⟨base (hd dExp) m64, 0, dExp, [0],
      by decide +kernel, head_of (by decide +kernel), by decide +kernel⟩⟩

end MatrixCommands

namespace VectorCommands

def cmd (op : Nat) (b : List (Nat × Nat)) : BitVec 128 := BitVec.ofNat 128 (op + sumNat (b.map fun p => p.2 * 2 ^ p.1))
def iSum : W64 := BitVec.ofNat 64 (0x70 * 2 ^ 56)
def dLp : BitVec 128 := cmd 1 [(110, 4), (107, 2), (101, 0)]
def dSi : BitVec 128 := cmd 2 [(110, 8), (86, 5), (89, 1), (94, 16)]
def dRun : BitVec 128 := cmd 3 [(125, 2), (113, 1), (24, 9)]
def hd (d : BitVec 128) : EngineSt := { queue := [d, 0], started := [(0, true)] }
def v1 : VectorSt := { programs := [(2, [0]), (3, [iSum])], streams := [(5, dSi)] }
def i0 : InSlot := { full := false, fmt := 1, kc := 16, elems := [], scales := [] }
def r0 : RunSt := { tag := 1, slot := 2, summaries := [7, 8], toTray := true }
def base (x : EngineSt) (v : VectorSt) : State := withTile (withFlight upQ (runningFl dLaunch)) { coreTile with sp := [(128, 0), (135, 0)], spLost := none, ve := x, vector := v, fifo := [3], matrix := { inTray := [i0] } }

theorem witness_VectorCommands :
    (∃ (s : State) (t : Fin 256) (d : BitVec 128) (rest : List (BitVec 128)), (s.tile ↑t).spBad = [] ∧ s.Head (↑t) Engine.vector 1 d
      rest ∧ (((s.tile ↑t).vector.runs.any fun r => r.slot == bitsOf d 107 3) = false)) ∧
    (∃ (s : State) (t : Fin 256) (d : BitVec 128) (rest : List (BitVec 128)), (s.tile ↑t).spBad = [] ∧ s.Head (↑t) Engine.vector 2 d
      rest) ∧
    (∃ (s : State) (t : Fin 256) (d : BitVec 128) (rest : List (BitVec 128)), (s.tile ↑t).spBad = [] ∧ s.Head (↑t) Engine.vector 3 d
      rest ∧ runHeld (s.tile ↑t) d = false ∧ (d.getLsbD 57 = true → bitsOf d 61 3 ≠ 0)) ∧
    (∃ (t : Fin 256) (r : RunSt) (more : List RunSt), ((base { started := [(dRun, false)] } { v1 with runs := r :: more }).tile
      ↑t).spBad = [] ∧ ((base { started := [(dRun, false)] } { v1 with runs := r :: more }).tile ↑t).vector.runs = r :: more ∧
      ((base { started := [(dRun, false)] } { v1 with runs := r :: more }).tile ↑t).core.wait = CoreWait.none) :=
  ⟨⟨base (hd dLp) { }, 0, dLp, [0],
      by decide +kernel, head_of (by decide +kernel), by decide +kernel⟩,
   ⟨base (hd dSi) { }, 0, dSi, [0],
      by decide +kernel, head_of (by decide +kernel)⟩,
   ⟨base (hd dRun) v1, 0, dRun, [0],
      by decide +kernel, head_of (by decide +kernel), by decide +kernel⟩,
   ⟨0, r0, [], by decide +kernel⟩⟩

end VectorCommands

namespace JobUnits1

def pr (n k : Nat) : Problem := { a := 0x4000, b := 0x8000, d := 0xC000, m := 1, n := n, k := k }
def job (n k sk : Nat) : Job := { p := { fmta := 1, fmtb := 1, fmtd := 1, m := 1, n := n, k := k, lda := 4 * k, ldb := 4 * k, ldd := 1024, splitk := sk }, problems := [pr n k] }
def dG (op : Nat) : BitVec 512 := mkDesc op 0 1 10 0 1 [(0, 0x1000)]
def run (op : Nat) (j : Job) : Flight := { runningFl (dG op) with job := j }
def sG (op : Nat) (j : Job) (k : Nat) : State :=
  let s := seg1 (withTile (withFlight upQ (run op j)) { slots := [(0, 1)], active := true, chain := { next := k } })
  (s.memWrite 0x4000 [0, 0, 128, 63]).memWrite 0x8000 [0, 0, 0, 64]
def jA : Job := { job 1 0 0 with chain := true, epilogue := some {} }
def f1 := run 0x14 jA
def s1 := sG 0x14 jA 0

theorem witness_JobUnits1 :
    ∃ (s : State) (t : Fin 256) (f : Flight) (v : State), s.running ↑t = some f ∧ opOf f.desc = 20 ∧ (s.tile ↑t).mode =
      TileMode.normal ∧ f.badProg = false ∧ s.ledgerDue f ↑t = false ∧ (s.tile ↑t).chain.next < (s.shareOf f ↑t).2 ∧ (s.runUnit
      (↑t) f ((s.shareOf f ↑t).1 + (s.tile ↑t).chain.next)).2 = v ∧ (s.runUnit (↑t) f ((s.shareOf f ↑t).1 + (s.tile
      ↑t).chain.next)).1 = true ∧ v.running ↑t = some f ∧ f.queue = f.queue ∧ f.seq = f.seq ∧ (v.tile ↑t).mode = TileMode.normal ∧
      (v.shareOf f ↑t).2 ≤ (v.tile ↑t).chain.next + 1 ∧ ledgerMode f.job = 0 ∧ (v.tile ↑t).clears = [] :=
  ⟨s1, 0, f1, _,
      (by decide +kernel), (by decide +kernel), (by decide +kernel), (by decide +kernel), (by decide +kernel),
      (by decide +kernel), (rfl), (by decide +kernel), (by decide +kernel), (by decide +kernel), (by decide +kernel),
      (by decide +kernel), (by decide +kernel), (by decide +kernel), (by decide +kernel)⟩

end JobUnits1

namespace JobUnits2

def pr (n k : Nat) : Problem := { a := 0x4000, b := 0x8000, d := 0xC000, m := 1, n := n, k := k }
def job (n k sk : Nat) : Job := { p := { fmta := 1, fmtb := 1, fmtd := 1, m := 1, n := n, k := k, lda := 4 * k, ldb := 4 * k, ldd := 1024, splitk := sk }, problems := [pr n k] }
def dG (op : Nat) : BitVec 512 := mkDesc op 0 1 10 0 1 [(0, 0x1000)]
def run (op : Nat) (j : Job) : Flight := { runningFl (dG op) with job := j }
def sG (op : Nat) (j : Job) (k : Nat) : State :=
  let s := seg1 (withTile (withFlight upQ (run op j)) { slots := [(0, 1)], active := true, chain := { next := k } })
  (s.memWrite 0x4000 [0, 0, 128, 63]).memWrite 0x8000 [0, 0, 0, 64]
def jB : Job := { job 300 0 0 with chain := true, epilogue := some {} }
def f2 := run 0x14 jB
def s2 := sG 0x14 jB 0

theorem witness_JobUnits2 :
    ∃ (s : State) (t : Fin 256) (f : Flight) (v : State), s.running ↑t = some f ∧ opOf f.desc = 20 ∧ (s.tile ↑t).mode =
      TileMode.normal ∧ f.badProg = false ∧ s.ledgerDue f ↑t = false ∧ (s.tile ↑t).chain.next < (s.shareOf f ↑t).2 ∧ (s.runUnit
      (↑t) f ((s.shareOf f ↑t).1 + (s.tile ↑t).chain.next)).2 = v ∧ (s.runUnit (↑t) f ((s.shareOf f ↑t).1 + (s.tile
      ↑t).chain.next)).1 = true ∧ v.running ↑t = some f ∧ f.queue = f.queue ∧ f.seq = f.seq ∧ (v.tile ↑t).mode = TileMode.normal ∧
      (v.tile ↑t).chain.next + 1 < (v.shareOf f ↑t).2 :=
  ⟨s2, 0, f2, _,
      (by decide +kernel), (by decide +kernel), (by decide +kernel), (by decide +kernel), (by decide +kernel),
      (by decide +kernel), (rfl), (by decide +kernel), (by decide +kernel), (by decide +kernel), (by decide +kernel),
      (by decide +kernel), (by decide +kernel)⟩

end JobUnits2

namespace JobUnits3

def pr (n k : Nat) : Problem := { a := 0x4000, b := 0x8000, d := 0xC000, m := 1, n := n, k := k }
def job (n k sk : Nat) : Job := { p := { fmta := 1, fmtb := 1, fmtd := 1, m := 1, n := n, k := k, lda := 4 * k, ldb := 4 * k, ldd := 1024, splitk := sk }, problems := [pr n k] }
def dG (op : Nat) : BitVec 512 := mkDesc op 0 1 10 0 1 [(0, 0x1000)]
def run (op : Nat) (j : Job) : Flight := { runningFl (dG op) with job := j }
def f3 : Flight := { run 0x12 (job 4 16 0) with parts := [⟨0, .running⟩, ⟨1, .arrived⟩] }
def s3 : State := { withFlight upQ f3 with tiles := [(1, { slots := [(0, 1)] })] }

theorem witness_JobUnits3 :
    ∃ (s : State) (t : Fin 256) (f : Flight), s.partHead (↑t) 18 = some f ∧ f.abort ≠ 32 ∧ (s.shareOf f ↑t).2 = 0 ∧ f.badProg = false
      ∧ ledgerMode f.job = 0 ∧ (s.tile ↑t).clears = [] :=
  ⟨s3, 1, f3,
      (by decide +kernel), (by decide +kernel), (by decide +kernel), (by decide +kernel), (by decide +kernel),
      (by decide +kernel)⟩

end JobUnits3

namespace JobUnits5

def pr (n k : Nat) : Problem := { a := 0x4000, b := 0x8000, d := 0xC000, m := 1, n := n, k := k }
def job (n k sk : Nat) : Job := { p := { fmta := 1, fmtb := 1, fmtd := 1, m := 1, n := n, k := k, lda := 4 * k, ldb := 4 * k, ldd := 1024, splitk := sk }, problems := [pr n k] }
def dG (op : Nat) : BitVec 512 := mkDesc op 0 1 10 0 1 [(0, 0x1000)]
def run (op : Nat) (j : Job) : Flight := { runningFl (dG op) with job := j }
def f5 : Flight := { run 0x12 (job 4 16 0) with snap := { root := 0x40000, ftimeout := 100 } }
def s5 : State :=
  let s := (withTile (withFlight upQ f5) { slots := [(0, 1)], active := true })
  s.onCtx 1 fun x => { x with root := 0x40000, segs := [(0, { base := 0, limit := 0x100000, pbase := 0, tier := 0, paged := true, w := true, r := true })] }

theorem witness_JobUnits5 :
    ∃ (s : State) (t : Fin 256) (f : Flight) (v : State), s.running ↑t = some f ∧ opOf f.desc = 18 ∧ (s.tile ↑t).mode =
      TileMode.normal ∧ f.badProg = false ∧ s.ledgerDue f ↑t = false ∧ (s.tile ↑t).chain.next < (s.shareOf f ↑t).2 ∧ (s.runUnit
      (↑t) f ((s.shareOf f ↑t).1 + (s.tile ↑t).chain.next)).2 = v ∧ (s.runUnit (↑t) f ((s.shareOf f ↑t).1 + (s.tile
      ↑t).chain.next)).1 = false :=
  ⟨s5, 0, f5, _,
      (by decide +kernel), (by decide +kernel), (by decide +kernel), (by decide +kernel), (by decide +kernel),
      (by decide +kernel), (rfl), (by decide +kernel)⟩

end JobUnits5

namespace LedgerFoldsAndClosing

def ep : Chain := { kind := 1, split := 1, lmode := 1, nstat := 1, lstage := 0x10000, ledger := 0x20000, stages := [{}] }
def jb : Job := { p := { fmta := 1, fmtb := 1, fmtd := 1, m := 1, n := 4, k := 16, lda := 64, ldb := 64, ldd := 1024 }, epilogue := some ep, problems := [{ a := 0x4000, b := 0x8000, d := 0xC000, m := 1, n := 4, k := 16 }] }
def f0 : Flight := { runningFl (mkDesc 0x12 0 1 10 0 1 [(0, 0x1000)]) with job := jb, posted := [(0, 0)] }
def s1 : State := seg1 (withTile (withFlight upQ f0) { slots := [(0, 1)], active := true, chain := { next := 1, held := [(0, [([0x3F800000], [])])] } })
def o1 : OutTile := (stripTiles jb 0).headD ⟨{}, 0, 0, 0, 0, 0⟩
def f2 : Flight := { f0 with strips := [(0, some (List.replicate 256 0))] }
def f3 : Flight := { f0 with strips := [(0, none)] }
def tl : Tile := { slots := [(0, 1)], active := true, chain := { next := 1, held := [(0, [([0x3F800000], [])])] } }
def s2 : State := seg1 (withTile (withFlight upQ f2) tl)
def s3 : State := seg1 (withTile (withFlight upQ f3) tl)
-- a record lost, home on tile 1
def jw : Job := { jb with p := { jb.p with n := 130 }, problems := [{ a := 0x4000, b := 0x8000, d := 0xC000, m := 1, n := 130, k := 16 }] }
def f4 : Flight := { f0 with job := jw, posted := [(0, 1)], parts := [⟨1, .running⟩, ⟨0, .ended⟩] }
def s4 : State := seg1 { withFlight upQ f4 with tiles := [(1, tl)] }
-- the home has been reset
def f5 : Flight := { f0 with job := jw, posted := [], parts := [⟨1, .ended⟩, ⟨0, .running⟩] }
def s5 : State := seg1 (withTile (withFlight upQ f5) tl)
def s7 : State := s1.onDev (s1.place 0x10000).1 fun d => { d with errors := [(0x10000 / 128, { half0 := 2 })] }
def pss (s : State) : List (List (Option (List Piece))) :=
  [(s.spanPieces (s.tileWho 0 (.fill 0)) false [(0x10000, 512)]).1.getD [], (s.spanPieces (s.tileWho 0 (.store 0)) true [(0x20000, 8)]).1.getD [], (s.spanPieces (s.tileWho 0 (.store 0)) true (outSpans jb o1)).1.getD [], (s.spanPieces (s.tileWho 0 (.fill 0)) false (State.closeReads ep o1).flatten).1.getD [], []]
def pA := (pss s1).getD 0 []
def pB := (pss s1).getD 1 []
def pC := (pss s1).getD 2 []
def pD := (pss s1).getD 3 []

theorem witness_LedgerFoldsAndClosing :
    (∃ (s : State) (t : Fin 256) (f : Flight) (c : Chain) (o : OutTile) (ps : List (Option (List Piece))) (ws : List (Option (List
      Piece))), s.running ↑t = some f ∧ (s.tile ↑t).mode = TileMode.normal ∧ f.job.epilogue = some c ∧ s.foldDue f (↑t) 0 = true ∧
      State.recordsLost f 0 = false ∧ (stripTiles f.job 0).getLast? = some o ∧ (s.spanPieces (s.tileWho (↑t) (Waiter.fill ↑t))
      false (State.foldReads c (stripTiles f.job 0)).flatten = (some ps, s) ∧ s.spanPieces (s.tileWho (↑t) (Waiter.store ↑t)) true
      (State.entrySpans c o) = (some ws, s) ∧ (ps.all fun p => Option.any (fun l => l.all fun x =>
      match x with | Piece.mem a n => true | x => false) p) = true ∧ (ws.all fun p => Option.any (fun l => l.all fun x =>
      match x with | Piece.mem a n => true | x => false) p) = true) ∧ ((s.readGroups (s.tileWho (↑t) (Waiter.fill ↑t))
      (State.regroup (List.map List.length (State.foldReads c (stripTiles f.job 0))) (ps.zip (List.map (fun x => x.2)
      (State.foldReads c (stripTiles f.job 0)).flatten)))).1.missing = false)) ∧
    (∃ (s : State) (t : Fin 256) (f : Flight) (c : Chain) (o : OutTile) (es : List Nat) (rows : List (List Nat × List Nat)) (ps : List
      (Option (List Piece))) (ws : List (Option (List Piece))), s.running ↑t = some f ∧ (s.tile ↑t).mode = TileMode.normal ∧
      f.job.epilogue = some c ∧ s.closeDue f (↑t) 0 = true ∧ AMap.get? f.strips 0 = some (some es) ∧ (List.find? (fun x =>
      (AMap.get? (s.tile ↑t).chain.held x.num).isSome) (stripTiles f.job 0) = some o) ∧ AMap.get? (s.tile ↑t).chain.held o.num =
      some rows ∧ (s.spanPieces (s.tileWho (↑t) (Waiter.fill ↑t)) false (State.closeReads c o).flatten = (some ps, s) ∧
      s.spanPieces (s.tileWho (↑t) (Waiter.store ↑t)) true (outSpans f.job o) = (some ws, s) ∧ (ps.all fun p => Option.any (fun l
      => l.all fun x => match x with | Piece.mem a n => true | x => false) p) = true ∧ (ws.all fun p => Option.any (fun l => l.all
      fun x => match x with | Piece.mem a n => true | x => false) p) = true) ∧ (stagesBad (State.heldFmt c) (State.closeStages c o
      es (s.readGroups (s.tileWho (↑t) (Waiter.fill ↑t)) (State.regroup (List.map List.length (State.closeReads c o)) (ps.zip
      (List.map (fun x => x.2) (State.closeReads c o).flatten)))).1.groups) = false)) ∧
    (∃ (s : State) (t : Fin 256) (f : Flight) (c : Chain) (o : OutTile), s.running ↑t = some f ∧ (s.tile ↑t).mode = TileMode.normal ∧
      f.job.epilogue = some c ∧ s.closeDue f (↑t) 0 = true ∧ AMap.get? f.strips 0 = some none ∧ (List.find? (fun x => (AMap.get?
      (s.tile ↑t).chain.held x.num).isSome) (stripTiles f.job 0) = some o)) ∧
    (∃ (s : State) (t : Fin 256) (f : Flight) (c : Chain), s.running ↑t = some f ∧ (s.tile ↑t).mode = TileMode.normal ∧ f.job.epilogue
      = some c ∧ s.foldDue f (↑t) 0 = true ∧ State.recordsLost f 0 = true ∧ stripTiles f.job 0 ≠ []) ∧
    (∃ (s : State) (t : Fin 256) (f : Flight) (c : Chain), s.running ↑t = some f ∧ (s.tile ↑t).mode = TileMode.normal ∧ f.job.epilogue
      = some c ∧ s.closeDue f (↑t) 0 = true ∧ AMap.get? f.strips 0 = none) ∧
    (∃ (s : State) (t : Fin 256) (f : Flight) (c : Chain) (o : OutTile) (ps : List (Option (List Piece))) (ws : List (Option (List
      Piece))), s.running ↑t = some f ∧ (s.tile ↑t).mode = TileMode.normal ∧ f.job.epilogue = some c ∧ s.foldDue f (↑t) 0 = true ∧
      State.recordsLost f 0 = false ∧ (stripTiles f.job 0).getLast? = some o ∧ (s.spanPieces (s.tileWho (↑t) (Waiter.fill ↑t))
      false (State.foldReads c (stripTiles f.job 0)).flatten = (some ps, s) ∧ s.spanPieces (s.tileWho (↑t) (Waiter.store ↑t)) true
      (State.entrySpans c o) = (some ws, s) ∧ (ps.all fun p => Option.any (fun l => l.all fun x =>
      match x with | Piece.mem a n => true | x => false) p) = true ∧ (ws.all fun p => Option.any (fun l => l.all fun x =>
      match x with | Piece.mem a n => true | x => false) p) = true) ∧ ((s.readGroups (s.tileWho (↑t) (Waiter.fill ↑t))
      (State.regroup (List.map List.length (State.foldReads c (stripTiles f.job 0))) (ps.zip (List.map (fun x => x.2)
      (State.foldReads c (stripTiles f.job 0)).flatten)))).1.missing = true)) :=
  ⟨⟨s1, 0, f0, ep, o1, pA, pB, by decide +kernel⟩,
   ⟨s2, 0, f2, ep, o1, List.replicate 256 0, [([1065353216], [])], pD, pC, by decide +kernel⟩,
   ⟨s3, 0, f3, ep, o1, by decide +kernel⟩,
   ⟨s4, 1, f4, ep, by decide +kernel⟩,
   ⟨s5, 0, f5, ep, by decide +kernel⟩,
   ⟨s7, 0, f0, ep, o1, pA, pB, by decide +kernel⟩⟩

end LedgerFoldsAndClosing

namespace MoveStepsCopy

def mvUp (s : State) : State :=
  let s := s.onCtx 1 fun x => { x with segs := [(0, { base := 0, limit := 0x100000, pbase := 0, tier := 0, paged := false, w := true, r := true }), (1, { base := 0, limit := 0x100000, pbase := flashBase, tier := 2, paged := false, w := true, r := true })] }
  let s := s.memWrite 0x10 [5, 6, 7]
  { s.set Reg.FL_STAT.READY 1 with flash := { s.flash with map := [(0, 3), (1, 4)] } }
def withMover (d : BitVec 512) (pos : Nat) : State := let s := mvUp (withFlight upQ (fl d)); { s with movers := [(3, { queue := 0, seq := 1, desc := d, snap := {}, pos := pos })] }
def mk (d : BitVec 512) (pos : Nat) : Mover := { queue := 0, seq := 1, desc := d, snap := {}, pos := pos }
def dLin : BitVec 512 := mkDesc 0x30 0 1 0 0 1 [(0, 0), (8, 0x20000), (24, 0x20000)]
def dCopy : BitVec 512 := mkDesc 0x40 0 1 0 0 1 [(0, 0), (8, 0x20000), (16, 0x20000)]
def who0 : Who := upQ.moverWho 3 (mk dLin 0)
def s0 : State := withMover dCopy 0
def x0 : Mover := mk dCopy 0
def p1 : List (List Piece) := match s0.rangePieces who0 false (opOf x0.desc == 0x30) [(0, 65536)] with | .ready p _ => p | _ => []
def p2 : List (List Piece) := match s0.rangePieces who0 true (opOf x0.desc == 0x30) [(0x20000, 65536)] with | .ready p _ => p | _ => []

theorem witness_MoveStepsCopy :
    ∃ (s : State) (m : Fin 32) (x : Mover) (ps : List (List Piece)) (qs : List (List Piece)), s.moving (↑m) 64 0 = some x ∧ x.pos +
      65536 ≤ body x.desc 16 8 ∧ s.checkedPrefix (ctxidOf x.desc) (body x.desc 0 8 + x.pos) false 18 65536 = 65536 ∧
      s.checkedPrefix (ctxidOf x.desc) (body x.desc 8 8 + x.pos) true 18 65536 = 65536 ∧ (∀ p ∈ ps.flatten, ∃ a n, p = Piece.mem a
      n) ∧ (∀ p ∈ qs.flatten, ∃ a n, p = Piece.mem a n) ∧ (s.rangePieces (s.moverWho (↑m) x) false (opOf x.desc == 48)
      (List.filterMap (fun r => match r with | SrcRun.seg a n bits => some (a, n) | SrcRun.given bs => none) [SrcRun.seg (body
      x.desc 0 8 + x.pos) 65536 8]) = State.Ranges.ready ps s) ∧ (s.rangePieces (s.moverWho (↑m) x) true (opOf x.desc == 48)
      (List.map (fun (e : DstRun) => (e.addr, e.n)) [{ addr := body x.desc 8 8 + x.pos, off := 0, n := 65536 }]) =
      State.Ranges.ready qs s) ∧ (opOf x.desc = 48 → s.rateFull (s.moverWho (↑m) x).ctx (ps.flatten ++ qs.flatten) = false) :=
  ⟨s0, 3, x0, p1, p2,
      by decide +kernel, by decide +kernel, by decide +kernel, by decide +kernel, all_mem (by decide +kernel),
      all_mem (by decide +kernel), by decide +kernel⟩

end MoveStepsCopy

namespace MoveStepsFill

def mvUp (s : State) : State :=
  let s := s.onCtx 1 fun x => { x with segs := [(0, { base := 0, limit := 0x100000, pbase := 0, tier := 0, paged := false, w := true, r := true }), (1, { base := 0, limit := 0x100000, pbase := flashBase, tier := 2, paged := false, w := true, r := true })] }
  let s := s.memWrite 0x10 [5, 6, 7]
  { s.set Reg.FL_STAT.READY 1 with flash := { s.flash with map := [(0, 3), (1, 4)] } }
def withMover (d : BitVec 512) (pos : Nat) : State := let s := mvUp (withFlight upQ (fl d)); { s with movers := [(3, { queue := 0, seq := 1, desc := d, snap := {}, pos := pos })] }
def mk (d : BitVec 512) (pos : Nat) : Mover := { queue := 0, seq := 1, desc := d, snap := {}, pos := pos }
def dLin : BitVec 512 := mkDesc 0x30 0 1 0 0 1 [(0, 0), (8, 0x20000), (24, 0x20000)]
def dFill : BitVec 512 := mkDesc 0x41 0 1 0 0 1 [(0, 0x20000), (8, 20), (16, 0x0807060504030201)]
def who0 : Who := upQ.moverWho 3 (mk dLin 0)
def s0 : State := withMover dFill 0
def x0 : Mover := mk dFill 0
def p5 : List (List Piece) := match s0.rangePieces who0 true (opOf x0.desc == 0x30) [(0x20000, 20)] with | .ready p _ => p | _ => []

theorem witness_MoveStepsFill :
    ∃ (s : State) (m : Fin 32) (x : Mover) (ps : List (List Piece)) (qs : List (List Piece)), s.moving (↑m) 65 0 = some x ∧
      s.checkedPrefix (ctxidOf x.desc) (body x.desc 0 8 + x.pos) true 18 (min 65536 (body x.desc 8 8 - x.pos)) ≠ 0 ∧ (∀ p ∈
      ps.flatten, ∃ a n, p = Piece.mem a n) ∧ (∀ p ∈ qs.flatten, ∃ a n, p = Piece.mem a n) ∧ (s.rangePieces (s.moverWho (↑m) x)
      false (opOf x.desc == 48) (List.filterMap (fun r =>
      match r with | SrcRun.seg a n bits => some (a, n) | SrcRun.given bs => none) [SrcRun.given (List.map (fun i => BitVec.ofNat
      8 (body x.desc 16 8 / 2 ^ (8 * ((x.pos + i) % 8)))) (List.range (s.checkedPrefix (ctxidOf x.desc) (body x.desc 0 8 + x.pos)
      true 18 (min 65536 (body x.desc 8 8 - x.pos)))))]) = State.Ranges.ready ps s) ∧ (s.rangePieces (s.moverWho (↑m) x) true
      (opOf x.desc == 48) (List.map (fun (e : DstRun) => (e.addr, e.n))
      [{ addr := body x.desc 0 8 + x.pos, off := 0, n := s.checkedPrefix (ctxidOf x.desc) (body x.desc 0 8 + x.pos) true 18 (min 65536 (body x.desc 8 8 - x.pos)) }])
      = State.Ranges.ready qs s) ∧ (opOf x.desc = 48 → s.rateFull (s.moverWho (↑m) x).ctx (ps.flatten ++ qs.flatten) = false) :=
  ⟨s0, 3, x0, [], p5,
      by decide +kernel, by decide +kernel, all_mem (by decide +kernel), all_mem (by decide +kernel), by decide +kernel⟩

end MoveStepsFill

namespace MoveStepsLin

def mvUp (s : State) : State :=
  let s := s.onCtx 1 fun x => { x with segs := [(0, { base := 0, limit := 0x100000, pbase := 0, tier := 0, paged := false, w := true, r := true }), (1, { base := 0, limit := 0x100000, pbase := flashBase, tier := 2, paged := false, w := true, r := true })] }
  let s := s.memWrite 0x10 [5, 6, 7]
  { s.set Reg.FL_STAT.READY 1 with flash := { s.flash with map := [(0, 3), (1, 4)] } }
def withMover (d : BitVec 512) (pos : Nat) : State := let s := mvUp (withFlight upQ (fl d)); { s with movers := [(3, { queue := 0, seq := 1, desc := d, snap := {}, pos := pos })] }
def mk (d : BitVec 512) (pos : Nat) : Mover := { queue := 0, seq := 1, desc := d, snap := {}, pos := pos }
def dLin : BitVec 512 := mkDesc 0x30 0 1 0 0 1 [(0, 0), (8, 0x20000), (24, 0x20000)]
def who0 : Who := upQ.moverWho 3 (mk dLin 0)
def s0 : State := withMover dLin 0
def x0 : Mover := mk dLin 0
def p1 : List (List Piece) := match s0.rangePieces who0 false (opOf x0.desc == 0x30) [(0, 65536)] with | .ready p _ => p | _ => []
def p2 : List (List Piece) := match s0.rangePieces who0 true (opOf x0.desc == 0x30) [(0x20000, 65536)] with | .ready p _ => p | _ => []

theorem witness_MoveStepsLin :
    ∃ (s : State) (m : Fin 32) (x : Mover) (ps : List (List Piece)) (qs : List (List Piece)), s.moving (↑m) 48 0 = some x ∧ (∀ p ∈
      ps.flatten, ∃ a n, p = Piece.mem a n) ∧ (∀ p ∈ qs.flatten, ∃ a n, p = Piece.mem a n) ∧ (s.rangePieces (s.moverWho (↑m) x)
      false (opOf x.desc == 48) (List.filterMap (fun r =>
      match r with | SrcRun.seg a n bits => some (a, n) | SrcRun.given bs => none) [SrcRun.seg (body x.desc 0 8 + x.pos) 65536 8])
      = State.Ranges.ready ps s) ∧ (s.rangePieces (s.moverWho (↑m) x) true (opOf x.desc == 48) (List.map (fun (e : DstRun) =>
      (e.addr, e.n)) [{ addr := body x.desc 8 8 + x.pos, off := 0, n := 65536 }]) = State.Ranges.ready qs s) ∧ (opOf x.desc = 48 →
      s.rateFull (s.moverWho (↑m) x).ctx (ps.flatten ++ qs.flatten) = false) :=
  ⟨s0, 3, x0, p1, p2,
      by decide +kernel, all_mem (by decide +kernel), all_mem (by decide +kernel), by decide +kernel⟩

end MoveStepsLin

end Sys2Proof.Machine.Tests
end

