-- ==== Sys2Proof/Tests/Witness3.lean ====
section
/-! SUPPORT. Witnesses: for each statement with premises, a state and operands that meet them together, for every clause. A premise on an
opaque predicate of Config (a signature, a digest of SPDM, the boot code) is left out: it can be neither proved nor refuted. -/

set_option Elab.async false
set_option linter.all false
set_option maxRecDepth 20000
set_option exponentiation.threshold 1100
set_option synthInstance.maxSize 2000
set_option synthInstance.maxHeartbeats 400000

namespace Sys2Proof.Machine.Tests

open Sys2Proof Sys2Proof.Machine

namespace MoveStepsPack

def mvUp (s : State) : State :=
  let s := s.onCtx 1 fun x => { x with segs := [(0, { base := 0, limit := 0x100000, pbase := 0, tier := 0, paged := false, w := true, r := true }), (1, { base := 0, limit := 0x100000, pbase := flashBase, tier := 2, paged := false, w := true, r := true })] }
  let s := s.memWrite 0x10 [5, 6, 7]
  { s.set Reg.FL_STAT.READY 1 with flash := { s.flash with map := [(0, 3), (1, 4)] } }
def withMover (d : BitVec 512) (pos : Nat) : State := let s := mvUp (withFlight upQ (fl d)); { s with movers := [(3, { queue := 0, seq := 1, desc := d, snap := {}, pos := pos })] }
def mk (d : BitVec 512) (pos : Nat) : Mover := { queue := 0, seq := 1, desc := d, snap := {}, pos := pos }
def dLin : BitVec 512 := mkDesc 0x30 0 1 0 0 1 [(0, 0), (8, 0x20000), (24, 0x20000)]
def dPack : BitVec 512 := mkDesc 0x30 0 1 0 0 1 [(0, 0), (8, 0x20000), (24, 1), (28, 16), (32, 64), (40, 1), (41, 1)]
def who0 : Who := upQ.moverWho 3 (mk dLin 0)
def s0 : State := withMover dPack 0
def x0 : Mover := mk dPack 0
def p2 : List (List Piece) := match s0.rangePieces who0 true (opOf x0.desc == 0x30) [(0x20000, 65536)] with | .ready p _ => p | _ => []
def p3 : List (List Piece) := match s0.rangePieces who0 false (opOf x0.desc == 0x30) [(0, 64)] with | .ready p _ => p | _ => []

theorem witness_MoveStepsPack :
    ∃ (s : State) (m : Fin 32) (x : Mover) (ps : List (List Piece)) (qs : List (List Piece)), s.moving (↑m) 48 1 = some x ∧ (∀ p ∈
      ps.flatten, ∃ a n, p = Piece.mem a n) ∧ (∀ p ∈ qs.flatten, ∃ a n, p = Piece.mem a n) ∧ (s.rangePieces (s.moverWho (↑m) x)
      false (opOf x.desc == 48) (List.filterMap (fun r =>
      match r with | SrcRun.seg a n bits => some (a, n) | SrcRun.given bs => none) (List.map (fun r =>
      match r with | Layout.Run.zero n => SrcRun.given (List.replicate n 0) | Layout.Run.elems n l off => SrcRun.seg (body x.desc 0 8 + l * (layoutOf x.desc).ldx + off) n ((layoutOf x.desc).runBits off n) | Layout.Run.scales n l off => SrcRun.seg (body x.desc 16 8 + l * (layoutOf x.desc).scaleBytes + off) n 8)
      ((layoutOf x.desc).runs (imageOf x.desc) 65536 x.pos 65536))) = State.Ranges.ready ps s) ∧ (s.rangePieces (s.moverWho (↑m)
      x) true (opOf x.desc == 48) (List.map (fun (e : DstRun) => (e.addr, e.n))
      [{ addr := body x.desc 8 8 + x.pos, off := 0, n := 65536 }]) = State.Ranges.ready qs s) ∧ (opOf x.desc = 48 → s.rateFull
      (s.moverWho (↑m) x).ctx (ps.flatten ++ qs.flatten) = false) :=
  ⟨s0, 3, x0, p3, p2,
      by decide +kernel, all_mem (by decide +kernel), all_mem (by decide +kernel), by decide +kernel⟩

end MoveStepsPack

namespace MoveStepsTrim

def mvUp (s : State) : State :=
  let s := s.onCtx 1 fun x => { x with segs := [(0, { base := 0, limit := 0x100000, pbase := 0, tier := 0, paged := false, w := true, r := true }), (1, { base := 0, limit := 0x100000, pbase := flashBase, tier := 2, paged := false, w := true, r := true })] }
  let s := s.memWrite 0x10 [5, 6, 7]
  { s.set Reg.FL_STAT.READY 1 with flash := { s.flash with map := [(0, 3), (1, 4)] } }
def withMover (d : BitVec 512) (pos : Nat) : State := let s := mvUp (withFlight upQ (fl d)); { s with movers := [(3, { queue := 0, seq := 1, desc := d, snap := {}, pos := pos })] }
def mk (d : BitVec 512) (pos : Nat) : Mover := { queue := 0, seq := 1, desc := d, snap := {}, pos := pos }
def dTrim : BitVec 512 := mkDesc 0x30 0 1 0 0 1 [(8, 0x1000000000000000), (24, 0x20000), (41, 3)]
def s0 : State := withMover dTrim 0
def x0 : Mover := mk dTrim 0

theorem witness_MoveStepsTrim :
    ∃ (s : State) (m : Fin 32) (x : Mover) (a : Nat), s.moving (↑m) 48 3 = some x ∧ s.rangePieces (s.moverWho (↑m) x) true true
      [(body x.desc 8 8 + x.pos, 65536)] = State.Ranges.ready [[Piece.flash a 65536]] s ∧ s.flag Reg.FL_STAT.READY = true ∧
      flashSpans a 65536 = [(0, 0, 65536)] ∧ s.ownCheck (s.moverWho (↑m) x).ctx ((a + 0 * 65536) / 2 ^ 21) true = true ∧
      ((List.any s.flash.map fun e => e.1 == 0) = true) :=
  ⟨s0, 3, x0, flashBase, by decide +kernel⟩

end MoveStepsTrim

namespace MoveStepsUnp

def mvUp (s : State) : State :=
  let s := s.onCtx 1 fun x => { x with segs := [(0, { base := 0, limit := 0x100000, pbase := 0, tier := 0, paged := false, w := true, r := true }), (1, { base := 0, limit := 0x100000, pbase := flashBase, tier := 2, paged := false, w := true, r := true })] }
  let s := s.memWrite 0x10 [5, 6, 7]
  { s.set Reg.FL_STAT.READY 1 with flash := { s.flash with map := [(0, 3), (1, 4)] } }
def withMover (d : BitVec 512) (pos : Nat) : State := let s := mvUp (withFlight upQ (fl d)); { s with movers := [(3, { queue := 0, seq := 1, desc := d, snap := {}, pos := pos })] }
def mk (d : BitVec 512) (pos : Nat) : Mover := { queue := 0, seq := 1, desc := d, snap := {}, pos := pos }
def dLin : BitVec 512 := mkDesc 0x30 0 1 0 0 1 [(0, 0), (8, 0x20000), (24, 0x20000)]
def dUnp : BitVec 512 := mkDesc 0x30 0 1 0 0 1 [(0, 0), (8, 0x20000), (24, 1), (28, 16), (32, 64), (40, 1), (41, 2)]
def who0 : Who := upQ.moverWho 3 (mk dLin 0)
def s0 : State := withMover dUnp 0
def x0 : Mover := mk dUnp 0
def p4 : List (List Piece) := match s0.rangePieces who0 true (opOf x0.desc == 0x30) [(0x20000, 64)] with | .ready p _ => p | _ => []
def p6 : List (List Piece) := match s0.rangePieces who0 false (opOf x0.desc == 0x30) [(0, 8192)] with | .ready p _ => p | _ => []

theorem witness_MoveStepsUnp :
    ∃ (s : State) (m : Fin 32) (x : Mover) (ps : List (List Piece)) (qs : List (List Piece)), s.moving (↑m) 48 2 = some x ∧ (∀ p ∈
      ps.flatten, ∃ a n, p = Piece.mem a n) ∧ (∀ p ∈ qs.flatten, ∃ a n, p = Piece.mem a n) ∧ (s.rangePieces (s.moverWho (↑m) x)
      false (opOf x.desc == 48) (List.filterMap (fun r =>
      match r with | SrcRun.seg a n bits => some (a, n) | SrcRun.given bs => none) [SrcRun.seg (body x.desc 0 8 + x.image) (min
      65536 (imageOf x.desc - x.image)) 8]) = State.Ranges.ready ps s) ∧ (s.rangePieces (s.moverWho (↑m) x) true (opOf x.desc ==
      48) (List.map (fun (e : DstRun) => (e.addr, e.n)) (State.unpackRuns x.desc (layoutOf x.desc) 0 ((layoutOf x.desc).runs
      (imageOf x.desc) (min 65536 (imageOf x.desc - x.image)) x.image (min 65536 (imageOf x.desc - x.image))))) =
      State.Ranges.ready qs s) ∧ (opOf x.desc = 48 → s.rateFull (s.moverWho (↑m) x).ctx (ps.flatten ++ qs.flatten) = false) :=
  ⟨s0, 3, x0, p6, p4,
      by decide +kernel, all_mem (by decide +kernel), all_mem (by decide +kernel), by decide +kernel⟩

end MoveStepsUnp

namespace MoveEnds

def mvUp (s : State) : State :=
  let s := s.onCtx 1 fun x => { x with segs := [(0, { base := 0, limit := 0x100000, pbase := 0, tier := 0, paged := false, w := true, r := true }), (1, { base := 0, limit := 0x100000, pbase := flashBase, tier := 2, paged := false, w := true, r := true })] }
  let s := s.memWrite 0x10 [5, 6, 7]
  { s.set Reg.FL_STAT.READY 1 with flash := { s.flash with map := [(0, 3), (1, 4)] } }
def withMover (d : BitVec 512) (pos : Nat) : State := let s := mvUp (withFlight upQ (fl d)); { s with movers := [(3, { queue := 0, seq := 1, desc := d, snap := {}, pos := pos })] }
def mk (d : BitVec 512) (pos : Nat) : Mover := { queue := 0, seq := 1, desc := d, snap := {}, pos := pos }
def dLin : BitVec 512 := mkDesc 0x30 0 1 0 0 1 [(0, 0), (8, 0x20000), (24, 0x20000)]
def s1 : State := let s := withMover dLin 0; { s with movers := [(3, { mk dLin 0x20000 with done := true })] }
def s2 : State := withMover dLin 0
def x1 : Mover := { mk dLin 0x20000 with done := true }

theorem witness_MoveEnds :
    (∃ (s : State) (m : Fin 32) (x : Mover) (f : Flight), s.mover? ↑m = some x ∧ s.flight? x.queue x.seq = some f ∧ x.done = true ∧
      s.order.out = [] ∧ (opOf x.desc ≠ 48 ∨ body x.desc 41 1 / 16 % 2 ≠ 1)) ∧
    (∃ (s : State) (m : Fin 32) (x : Mover) (f : Flight), s.mover? ↑m = some x ∧ s.flight? x.queue x.seq = some f ∧ x.done = false) :=
  ⟨⟨s1, 3, x1, fl dLin, by decide +kernel⟩,
   ⟨s2, 3, mk dLin 0, fl dLin, by decide +kernel⟩⟩

end MoveEnds

namespace FlashGranules

def mvUp (s : State) : State :=
  let s := s.onCtx 1 fun x => { x with segs := [(0, { base := 0, limit := 0x100000, pbase := 0, tier := 0, paged := false, w := true, r := true }), (1, { base := 0, limit := 0x100000, pbase := flashBase, tier := 2, paged := false, w := true, r := true })] }
  let s := s.memWrite 0x10 [5, 6, 7]
  { s.set Reg.FL_STAT.READY 1 with flash := { s.flash with map := [(0, 3), (1, 4)] } }
def mk (d : BitVec 512) (pos : Nat) : Mover := { queue := 0, seq := 1, desc := d, snap := {}, pos := pos }
def dRd : BitVec 512 := mkDesc 0x30 0 1 0 0 1 [(0, 0x1000000000000000), (8, 0x20000), (24, 0x20000)]
def fUp (x : Mover) : State := let s := ((mvUp (withFlight upQ (fl dRd))).set (Reg.FL_CHSTAT.STATE 3) 1).set (Reg.FL_CHSTAT.STATE 4) 1; { s with movers := [(3, x)] }
def xr : Mover := { mk dRd 0 with want := [0] }
def xw : Mover := { mk dRd 0 with out := [(0, 3, [some 1, none, some 7])] }
def fFull (l : AMap Nat) : State := { fUp xw with flash := { (fUp xw).flash with map := l } }

theorem full_ready (l : AMap Nat) : (fFull l).moverHeld 3 xw = false ∧ (fFull l).flag Reg.FL_STAT.READY = true ∧ (fFull l).working ≠ [] ∧
    ((fFull l).channel ((fFull l).rotate (fFull l).flash.next)).reclaim = false ∧
    (fFull l).readWaits ((fFull l).rotate (fFull l).flash.next) = false ∧
    (fFull l).ownCheck (ctxidOf xw.desc) ((flashBase + 0 * 65536) / 2 ^ 21) true = true :=
  ⟨(rfl : _ = (fUp xw).moverHeld 3 xw).trans (by decide +kernel), rfl, fun h => (by cases h), rfl, by show (_ && ((_ && false) || false)) = false; simp, rfl⟩
theorem any_rep (n : Nat) : ((List.replicate n ((5, 0) : Nat × Nat)).any fun e => e.1 == 0) = false := by
  simp [List.any_replicate]
theorem len_rep (n : Nat) : n ≤ (List.replicate n ((5, 0) : Nat × Nat)).length := by simp
theorem full_witness (l : AMap Nat) (h : (l.any fun e => e.1 == 0) = false) (h' : 56 * 2 ^ 24 ≤ l.length) :
    ∃ (s : State) (m : Fin 32) (x : Mover) (bs : List (Option Byte)), s.mover? ↑m = some x ∧ s.moverHeld (↑m) x = false ∧
      s.flag Reg.FL_STAT.READY = true ∧ x.out = [(0, 3, bs)] ∧ s.working ≠ [] ∧ (s.channel (s.rotate s.flash.next)).reclaim = false ∧
      s.readWaits (s.rotate s.flash.next) = false ∧ s.ownCheck (ctxidOf x.desc) ((flashBase + 0 * 65536) / 2 ^ 21) true = true ∧
      (s.flash.map.any fun e => e.1 == 0) = false ∧ 56 * 2 ^ 24 ≤ s.flash.map.length :=
  ⟨fFull l, 3, xw, [some 1, none, some 7], rfl, (full_ready l).1, (full_ready l).2.1, rfl, (full_ready l).2.2.1, (full_ready l).2.2.2.1,
    (full_ready l).2.2.2.2.1, (full_ready l).2.2.2.2.2, h, h'⟩
theorem witness_FlashGranules :
    (∃ (s : State) (m : Fin 32) (x : Mover) (rest : List Nat) (o : FlashOutcome), s.mover? ↑m = some x ∧ s.moverHeld (↑m) x = false ∧
      s.flag Reg.FL_STAT.READY = true ∧ x.want = 0 :: rest ∧ s.stripeLost 0 = false ∧ ((∃ n, o = FlashOutcome.decoded n ∧ 3 = ↑n)
      ∨ o = FlashOutcome.rebuilt ∧ 3 = 3)) ∧
    (∃ (s : State) (m : Fin 32) (x : Mover) (rest : List Nat) (o : FlashOutcome), s.mover? ↑m = some x ∧ s.moverHeld (↑m) x = false ∧
      s.flag Reg.FL_STAT.READY = true ∧ x.want = 0 :: rest ∧ (o = FlashOutcome.uncorrectable ∨ s.stripeLost 0 = true) ∧
      s.power.sleep = Sleep.run) ∧
    (∃ (s : State) (m : Fin 32) (x : Mover) (bs : List (Option Byte)) (rest : List (Nat × Nat × List (Option Byte))), s.mover? ↑m =
      some x ∧ s.moverHeld (↑m) x = false ∧ s.flag Reg.FL_STAT.READY = true ∧ x.out = (0, 3, bs) :: rest ∧ s.working ≠ [] ∧
      (s.channel (s.rotate s.flash.next)).reclaim = false ∧ s.readWaits (s.rotate s.flash.next) = false ∧ s.ownCheck (ctxidOf
      x.desc) ((flashBase + 0 * 65536) / 2 ^ 21) true = true ∧ ((List.any s.flash.map fun e => e.1 == 0) = true ∨ List.length
      s.flash.map < 56 * 2 ^ 24 ∧ s.capFull 0 = false)) ∧
    (∃ (s : State) (m : Fin 32) (x : Mover) (bs : List (Option Byte)), s.mover? ↑m = some x ∧ s.moverHeld (↑m) x = false ∧
      s.flag Reg.FL_STAT.READY = true ∧ x.out = [(0, 3, bs)] ∧ s.working ≠ [] ∧ (s.channel (s.rotate s.flash.next)).reclaim = false ∧
      s.readWaits (s.rotate s.flash.next) = false ∧ s.ownCheck (ctxidOf x.desc) ((flashBase + 0 * 65536) / 2 ^ 21) true = true ∧
      (s.flash.map.any fun e => e.1 == 0) = false ∧ 56 * 2 ^ 24 ≤ s.flash.map.length) :=
  ⟨⟨fUp xr, 3, xr, [], FlashOutcome.rebuilt, by decide +kernel⟩,
   ⟨fUp xr, 3, xr, [], FlashOutcome.uncorrectable, by decide +kernel⟩,
   ⟨fUp xw, 3, xw, [some 1, none, some 7], [], by decide +kernel⟩,
   full_witness (List.replicate (56 * 2 ^ 24) (5, 0)) (any_rep _) (len_rep _)⟩

end FlashGranules

namespace FlashUpkeep

def fU (n : Nat) (ready : Nat) (map : AMap Nat) : State := let s := ((upQ.set (Reg.FL_CHSTAT.STATE 3) n).set (Reg.FL_CHSTAT.STATE 5) 1).set Reg.FL_STAT.READY ready
  { s with flash := { s.flash with map := map, channels := [(3, { erased := 4, reclaim := true, reads := [(7, 100000000)] })] } }

theorem witness_FlashUpkeep :
    (∃ (s : State) (ch : Fin 32), s.background ↑ch = true) ∧
    (∃ (s : State) (ch : Fin 32), s.background ↑ch = true ∧ (Instr.readDisturbRelocation ch 7 = Instr.readDisturbRelocation ch 7 ∧
      s.get Reg.FL_CTL.RDTHR * 1000 ≤ AMap.getD (s.channel ↑ch).reads 7 0 ∨ Instr.readDisturbRelocation ch 7 = Instr.wearLevelling
      ch 7)) ∧
    (∃ (s : State) (ch : Fin 32), s.get (Reg.FL_CHSTAT.STATE ↑ch) = 1 ∧ s.power.sleep = Sleep.run) ∧
    (∃ (s : State), s.flag Reg.FL_STAT.READY = true) ∧
    (∃ (s : State) (ch : Fin 32), s.get (Reg.FL_CHSTAT.STATE ↑ch) = 2 ∧ s.working ≠ []) ∧
    (∃ (s : State), s.flag Reg.FL_STAT.READY = false ∧ 3 ≤ s.get Reg.ST_STAT.STATE ∧ s.get Reg.ST_STAT.STATE ≤ 5) :=
  ⟨⟨fU 1 1 [(0, 3), (1, 5)], 3, by decide +kernel⟩,
   ⟨fU 1 1 [(0, 3), (1, 5)], 3, by decide +kernel⟩,
   ⟨fU 1 1 [(0, 3), (1, 5)], 3, by decide +kernel⟩,
   ⟨fU 1 1 [(0, 3), (1, 5)], by decide +kernel⟩,
   ⟨fU 2 1 [(0, 3), (1, 5), (2, 3)], 3, by decide +kernel⟩,
   ⟨fU 0 0 [], by decide +kernel⟩⟩

end FlashUpkeep

namespace OwnershipCheck

def lk : State := let s := upQ.set Reg.MEM_CTL.LOCK 1; { s with xlat := { s.xlat with own := [(1, { owner := 1, mode := 2, sset := 4, sro := true }), (2, { owner := 2, mode := 1 })], shares := [(4, [2])] } }
def rt : State := (lk.set (Reg.MEM_RETIRE.STATE 0) 2).set (Reg.MEM_RETIRE.GRANULE 0) 1

theorem witness_OwnershipCheck :
    ∃ (s : State), s.retired 1 = true :=
  ⟨rt, by decide +kernel⟩

end OwnershipCheck

namespace MemoryChannels

def q (w : Bool) (e : LineErrors := {}) : MemReq := { cls := 1, line := 33, at_ := 5, write := w, pch := 0, errs := e }
def qs : MemReq := { cls := 3, line := 0, at_ := 5, write := false, pch := 0, span := some 0 }
def dv (x : MemDev) : State := let s := (upQ.set (Reg.MEM_DSTAT.PRESENT 1) 1).set Reg.MEM_CTL.T1EN 3; { s with devs := [(1, x)], ident := { s.ident with g := true } }
def h1 : LineErrors := { half0 := 1 }
def h2 : LineErrors := { half0 := 2, half1 := 1 }
def a1 := dv { queue := [q true] }
def a2 := dv { queue := [q false], scrub := [33] }
def a3 := (dv { queue := [q false h1] }).set Reg.MEM_RAS.CETHR 0
def a4 := dv { queue := [q false h2] }
def a5 := dv { queue := [qs] }
def a6 := (dv { queue := [q false], slots := [(0, 2)] }).set (Reg.MEM_DSTAT.THROT 1) 1
def a7 := dv {}

theorem witness_MemoryChannels :
    (∃ (s : State) (d : Fin 24) (p : Fin 64) (es : List (BitVec 45 × LineErrors)) (r : MemReq), s.linesErr (↑d) es = s ∧ s.flag
      (Reg.MEM_DSTAT.THROT ↑d) = false ∧ s.nextService ↑d ↑p = some r ∧ (r.write = true ∨ r.span = none ∧ State.decodeErrors (↑d)
      r.errs = (0, false))) ∧
    (∃ (s : State) (d : Fin 24), s.flag (Reg.MEM_DSTAT.PRESENT ↑d) = true) ∧
    (∃ (s : State) (ch : Fin 16), ↑ch ∈ s.t1Channels) ∧
    (∃ (s : State) (d : Fin 24) (line : BitVec 45), line.toNat ∈ (s.dev ↑d).scrub ∧ (s.place (line.toNat * 128)).1 = ↑d) ∧
    (∃ (s : State) (d : Fin 24) (p : Fin 64) (es : List (BitVec 45 × LineErrors)) (r : MemReq), s.linesErr (↑d) es = s ∧ s.flag
      (Reg.MEM_DSTAT.THROT ↑d) = false ∧ s.nextService ↑d ↑p = some r ∧ r.write = false ∧ r.span = none ∧ (State.decodeErrors (↑d)
      r.errs).1 ≠ 0 ∧ (State.decodeErrors (↑d) r.errs).2 = false ∧ s.get Reg.MEM_RAS.CETHR = 0) ∧
    (∃ (s : State) (d : Fin 24) (p : Fin 64) (es : List (BitVec 45 × LineErrors)) (r : MemReq), s.linesErr (↑d) es = s ∧ s.flag
      (Reg.MEM_DSTAT.THROT ↑d) = false ∧ s.nextService ↑d ↑p = some r ∧ r.write = false ∧ r.span = none ∧ (State.decodeErrors (↑d)
      r.errs).2 = true) ∧
    (∃ (s : State) (d : Fin 24) (p : Fin 64) (es : List (BitVec 45 × LineErrors)) (r : MemReq), s.linesErr (↑d) es = s ∧ s.flag
      (Reg.MEM_DSTAT.THROT ↑d) = false ∧ s.nextService ↑d ↑p = some r ∧ r.write = false ∧ r.span = some 0) ∧
    (∃ (s : State) (d : Fin 24) (p : Fin 64) (es : List (BitVec 45 × LineErrors)), s.linesErr (↑d) es = s ∧ s.flag
      (Reg.MEM_DSTAT.THROT ↑d) = true ∧ AMap.getD (s.dev ↑d).slots (↑p) 0 ≠ 0) ∧
    (∃ (s : State) (d : Fin 24) (p : Fin 64) (es : List (BitVec 45 × LineErrors)), s.linesErr (↑d) es = s ∧ s.flag
      (Reg.MEM_DSTAT.THROT ↑d) = false ∧ s.nextService ↑d ↑p = none) :=
  ⟨⟨a1, 1, 0, [], q true,
      (by decide +kernel), (by decide +kernel), (by decide +kernel), (by decide +kernel)⟩,
   ⟨a1, 1, by decide +kernel⟩,
   ⟨a1, 1, by decide +kernel⟩,
   ⟨a2, 1, 33,
      (by decide +kernel), (by decide +kernel)⟩,
   ⟨a3, 1, 0, [], q false h1,
      (by decide +kernel), (by decide +kernel), (by decide +kernel), (by decide +kernel), (by decide +kernel),
      (by decide +kernel), (by decide +kernel), (by decide +kernel)⟩,
   ⟨a4, 1, 0, [], q false h2,
      (by decide +kernel), (by decide +kernel), (by decide +kernel), (by decide +kernel), (by decide +kernel),
      (by decide +kernel)⟩,
   ⟨a5, 1, 0, [], qs,
      (by decide +kernel), (by decide +kernel), (by decide +kernel), (by decide +kernel), (by decide +kernel)⟩,
   ⟨a6, 1, 0, [],
      (by decide +kernel), (by decide +kernel), (by decide +kernel)⟩,
   ⟨a7, 1, 0, [],
      (by decide +kernel), (by decide +kernel), (by decide +kernel)⟩⟩

end MemoryChannels

namespace HomeRequests

def l0 : Line := 0x112233445566778899AABBCCDDEEFF
/-- A message from agent `x` to agent `y` about line 65, whose home is base die 1. -/
def ms (k : MsgKind) (x y : Nat) : Msg := { kind := k, src := BitVec.ofNat 6 x, dst := BitVec.ofNat 6 y, txn := 5, line := 65, ctx := 1, ftxn := 6, data := 7, mask := 0xFF }
def net (f : CohSt → CohSt) (m : Msg) : State := { upQ with coh := f { upQ.coh with net := [m] } }
def rq (k : MsgKind) : Msg := ms k 0x20 0x29
def lk (s : State) : State := s.set Reg.MEM_CTL.LOCK 1
def cp (d : Dir) (c : CohSt) : CohSt := { c with copies := [(65, (l0, true))], dir := if d == {} then [] else [(65, d)] }
def sv (c : CohSt) : CohSt := { c with serving := [(65, { req := ms .rdM 0x21 0x29 })] }
def dq : State := net (fun c => { c with waiting := [(65, [rq .wbM])] }) (rq .rdS)

theorem witness_HomeRequests :
    (∃ (s : State) (m : Msg), m ∈ s.coh.net ∧ State.reservedAgent m.src.toNat = false ∧ State.reservedAgent m.dst.toNat = false ∧
      s.routed (State.agentDie m.src.toNat) (State.agentDie m.dst.toNat) = true ∧ s.coh.heldGranules = [] ∧ m.dst.toNat = 40 +
      s.homeOf m.line.toNat ∧ s.coherent (m.line.toNat * 128) = true ∧ m.src.toNat ≤ 36 ∧ s.retired (m.line.toNat * 128 / 2 ^ 21)
      = false ∧ (Instr.rds m, m.kind) ∈ [(Instr.rds m, MsgKind.rdS), (Instr.rdcur m, MsgKind.rdCur), (Instr.chk m, MsgKind.chk)] ∧
      s.ownCheck m.ctx.toNat (m.line.toNat * 128 / 2 ^ 21) false = false) ∧
    (∃ (s : State) (m : Msg), m ∈ s.coh.net ∧ State.reservedAgent m.src.toNat = false ∧ State.reservedAgent m.dst.toNat = false ∧
      s.routed (State.agentDie m.src.toNat) (State.agentDie m.dst.toNat) = true ∧ s.coh.heldGranules = [] ∧ m.dst.toNat = 40 +
      s.homeOf m.line.toNat ∧ s.coherent (m.line.toNat * 128) = true ∧ m.src.toNat ≤ 36 ∧ s.retired (m.line.toNat * 128 / 2 ^ 21)
      = false ∧ (Instr.wrfull m, m.kind) ∈ [(Instr.rdm m, MsgKind.rdM), (Instr.upg m, MsgKind.upg), (Instr.wrfull m,
      MsgKind.wrFull), (Instr.wrpart m, MsgKind.wrPart)] ∧ s.ownCheck m.ctx.toNat (m.line.toNat * 128 / 2 ^ 21) true = false) ∧
    (∃ (s : State) (m : Msg), m ∈ s.coh.net ∧ State.reservedAgent m.src.toNat = false ∧ State.reservedAgent m.dst.toNat = false ∧
      s.routed (State.agentDie m.src.toNat) (State.agentDie m.dst.toNat) = true ∧ s.coh.heldGranules = [] ∧ m.dst.toNat = 40 +
      s.homeOf m.line.toNat ∧ s.coherent (m.line.toNat * 128) = true ∧ m.src.toNat ≤ 36 ∧ s.retired (m.line.toNat * 128 / 2 ^ 21)
      = false ∧ m.kind = MsgKind.chk ∧ s.ownCheck m.ctx.toNat (m.line.toNat * 128 / 2 ^ 21) false = true) ∧
    (∃ (s : State) (m : Msg), m ∈ s.coh.net ∧ State.reservedAgent m.src.toNat = false ∧ State.reservedAgent m.dst.toNat = false ∧
      s.routed (State.agentDie m.src.toNat) (State.agentDie m.dst.toNat) = true ∧ s.coh.heldGranules = [] ∧ m.dst.toNat = 40 +
      s.homeOf m.line.toNat ∧ s.coherent (m.line.toNat * 128) = true ∧ m.src.toNat ≤ 36 ∧ s.retired (m.line.toNat * 128 / 2 ^ 21)
      = false ∧ s.ownCheck m.ctx.toNat (m.line.toNat * 128 / 2 ^ 21) true = true ∧ s.ownCheck m.ctx.toNat (m.line.toNat * 128 / 2
      ^ 21) false = true ∧ (Instr.rdm m, m.kind) ∈ [(Instr.rds m, MsgKind.rdS), (Instr.rdm m, MsgKind.rdM), (Instr.upg m,
      MsgKind.upg), (Instr.rdcur m, MsgKind.rdCur), (Instr.wrfull m, MsgKind.wrFull), (Instr.wrpart m, MsgKind.wrPart), (Instr.wbm
      m, MsgKind.wbM), (Instr.wbo m, MsgKind.wbO), (Instr.eve m, MsgKind.evE)] ∧ (s.serve? m.line.toNat).isSome = true) ∧
    (∃ (s : State) (m : Msg) (l : Line), m ∈ s.coh.net ∧ State.reservedAgent m.src.toNat = false ∧ State.reservedAgent m.dst.toNat =
      false ∧ s.routed (State.agentDie m.src.toNat) (State.agentDie m.dst.toNat) = true ∧ s.coh.heldGranules = [] ∧ m.dst.toNat =
      40 + s.homeOf m.line.toNat ∧ s.coherent (m.line.toNat * 128) = true ∧ m.src.toNat ≤ 36 ∧ s.retired (m.line.toNat * 128 / 2 ^
      21) = false ∧ s.ownCheck m.ctx.toNat (m.line.toNat * 128 / 2 ^ 21) true = true ∧ s.ownCheck m.ctx.toNat (m.line.toNat * 128
      / 2 ^ 21) false = true ∧ s.serve? m.line.toNat = none ∧ AMap.getD s.coh.waiting m.line.toNat [] = [] ∧ s.isLocal m = false ∧
      s.dirFull m.line.toNat = false ∧ s.copy? m.line.toNat = some (l, true) ∧ s.coh.badHome.contains m.line.toNat = false ∧
      ((s.coh.early.any fun x => x.line == m.line) = false) ∧ m.kind = MsgKind.rdS ∧ s.dirOf m.line.toNat = { }) ∧
    (∃ (s : State) (m : Msg) (l : Line), m ∈ s.coh.net ∧ State.reservedAgent m.src.toNat = false ∧ State.reservedAgent m.dst.toNat =
      false ∧ s.routed (State.agentDie m.src.toNat) (State.agentDie m.dst.toNat) = true ∧ s.coh.heldGranules = [] ∧ m.dst.toNat =
      40 + s.homeOf m.line.toNat ∧ s.coherent (m.line.toNat * 128) = true ∧ m.src.toNat ≤ 36 ∧ s.retired (m.line.toNat * 128 / 2 ^
      21) = false ∧ s.ownCheck m.ctx.toNat (m.line.toNat * 128 / 2 ^ 21) true = true ∧ s.ownCheck m.ctx.toNat (m.line.toNat * 128
      / 2 ^ 21) false = true ∧ s.serve? m.line.toNat = none ∧ AMap.getD s.coh.waiting m.line.toNat [] = [] ∧ s.isLocal m = false ∧
      s.dirFull m.line.toNat = false ∧ s.copy? m.line.toNat = some (l, true) ∧ s.coh.badHome.contains m.line.toNat = false ∧
      ((s.coh.early.any fun x => x.line == m.line) = false) ∧ m.kind = MsgKind.rdM ∧ s.dirOf m.line.toNat = { }) ∧
    (∃ (s : State) (m : Msg) (l : Line), m ∈ s.coh.net ∧ State.reservedAgent m.src.toNat = false ∧ State.reservedAgent m.dst.toNat =
      false ∧ s.routed (State.agentDie m.src.toNat) (State.agentDie m.dst.toNat) = true ∧ s.coh.heldGranules = [] ∧ m.dst.toNat =
      40 + s.homeOf m.line.toNat ∧ s.coherent (m.line.toNat * 128) = true ∧ m.src.toNat ≤ 36 ∧ s.retired (m.line.toNat * 128 / 2 ^
      21) = false ∧ s.ownCheck m.ctx.toNat (m.line.toNat * 128 / 2 ^ 21) true = true ∧ s.ownCheck m.ctx.toNat (m.line.toNat * 128
      / 2 ^ 21) false = true ∧ s.serve? m.line.toNat = none ∧ AMap.getD s.coh.waiting m.line.toNat [] = [] ∧ s.isLocal m = false ∧
      s.dirFull m.line.toNat = false ∧ s.copy? m.line.toNat = some (l, true) ∧ s.coh.badHome.contains m.line.toNat = false ∧
      ((s.coh.early.any fun x => x.line == m.line) = false) ∧ m.kind = MsgKind.upg ∧ s.dirOf m.line.toNat =
      { sharers := [m.src.toNat] }) ∧
    (∃ (s : State) (m : Msg) (l : Line), m ∈ s.coh.net ∧ State.reservedAgent m.src.toNat = false ∧ State.reservedAgent m.dst.toNat =
      false ∧ s.routed (State.agentDie m.src.toNat) (State.agentDie m.dst.toNat) = true ∧ s.coh.heldGranules = [] ∧ m.dst.toNat =
      40 + s.homeOf m.line.toNat ∧ s.coherent (m.line.toNat * 128) = true ∧ m.src.toNat ≤ 36 ∧ s.retired (m.line.toNat * 128 / 2 ^
      21) = false ∧ s.ownCheck m.ctx.toNat (m.line.toNat * 128 / 2 ^ 21) true = true ∧ s.ownCheck m.ctx.toNat (m.line.toNat * 128
      / 2 ^ 21) false = true ∧ s.serve? m.line.toNat = none ∧ AMap.getD s.coh.waiting m.line.toNat [] = [] ∧ s.isLocal m = false ∧
      s.dirFull m.line.toNat = false ∧ s.copy? m.line.toNat = some (l, true) ∧ s.coh.badHome.contains m.line.toNat = false ∧
      ((s.coh.early.any fun x => x.line == m.line) = false) ∧ m.kind = MsgKind.rdCur ∧ (s.dirOf m.line.toNat).owner = none) ∧
    (∃ (s : State) (m : Msg) (l : Line), m ∈ s.coh.net ∧ State.reservedAgent m.src.toNat = false ∧ State.reservedAgent m.dst.toNat =
      false ∧ s.routed (State.agentDie m.src.toNat) (State.agentDie m.dst.toNat) = true ∧ s.coh.heldGranules = [] ∧ m.dst.toNat =
      40 + s.homeOf m.line.toNat ∧ s.coherent (m.line.toNat * 128) = true ∧ m.src.toNat ≤ 36 ∧ s.retired (m.line.toNat * 128 / 2 ^
      21) = false ∧ s.ownCheck m.ctx.toNat (m.line.toNat * 128 / 2 ^ 21) true = true ∧ s.ownCheck m.ctx.toNat (m.line.toNat * 128
      / 2 ^ 21) false = true ∧ s.serve? m.line.toNat = none ∧ AMap.getD s.coh.waiting m.line.toNat [] = [] ∧ s.isLocal m = false ∧
      s.dirFull m.line.toNat = false ∧ s.copy? m.line.toNat = some (l, true) ∧ s.coh.badHome.contains m.line.toNat = false ∧
      ((s.coh.early.any fun x => x.line == m.line) = false) ∧ (Instr.wrpart m, m.kind) ∈ [(Instr.wrfull m, MsgKind.wrFull),
      (Instr.wrpart m, MsgKind.wrPart)] ∧ s.dirOf m.line.toNat = { }) ∧
    (∃ (s : State) (m : Msg) (l : Line), m ∈ s.coh.net ∧ State.reservedAgent m.src.toNat = false ∧ State.reservedAgent m.dst.toNat =
      false ∧ s.routed (State.agentDie m.src.toNat) (State.agentDie m.dst.toNat) = true ∧ s.coh.heldGranules = [] ∧ m.dst.toNat =
      40 + s.homeOf m.line.toNat ∧ s.coherent (m.line.toNat * 128) = true ∧ m.src.toNat ≤ 36 ∧ s.retired (m.line.toNat * 128 / 2 ^
      21) = false ∧ s.ownCheck m.ctx.toNat (m.line.toNat * 128 / 2 ^ 21) true = true ∧ s.ownCheck m.ctx.toNat (m.line.toNat * 128
      / 2 ^ 21) false = true ∧ s.serve? m.line.toNat = none ∧ AMap.getD s.coh.waiting m.line.toNat [] = [] ∧ s.isLocal m = false ∧
      s.dirFull m.line.toNat = false ∧ s.copy? m.line.toNat = some (l, true) ∧ s.coh.badHome.contains m.line.toNat = false ∧
      ((s.coh.early.any fun x => x.line == m.line) = false) ∧ (Instr.wbm m, m.kind) ∈ [(Instr.wbm m, MsgKind.wbM), (Instr.wbo m,
      MsgKind.wbO)]) ∧
    (∃ (s : State) (m : Msg) (l : Line), m ∈ s.coh.net ∧ State.reservedAgent m.src.toNat = false ∧ State.reservedAgent m.dst.toNat =
      false ∧ s.routed (State.agentDie m.src.toNat) (State.agentDie m.dst.toNat) = true ∧ s.coh.heldGranules = [] ∧ m.dst.toNat =
      40 + s.homeOf m.line.toNat ∧ s.coherent (m.line.toNat * 128) = true ∧ m.src.toNat ≤ 36 ∧ s.retired (m.line.toNat * 128 / 2 ^
      21) = false ∧ s.ownCheck m.ctx.toNat (m.line.toNat * 128 / 2 ^ 21) true = true ∧ s.ownCheck m.ctx.toNat (m.line.toNat * 128
      / 2 ^ 21) false = true ∧ s.serve? m.line.toNat = none ∧ AMap.getD s.coh.waiting m.line.toNat [] = [] ∧ s.isLocal m = false ∧
      s.dirFull m.line.toNat = false ∧ s.copy? m.line.toNat = some (l, true) ∧ s.coh.badHome.contains m.line.toNat = false ∧
      ((s.coh.early.any fun x => x.line == m.line) = false) ∧ m.kind = MsgKind.evE ∧ s.dirOf m.line.toNat =
      { owner := some m.src.toNat }) ∧
    (∃ (s : State) (m : Msg) (home : Fin 5) (x : Msg), m ∈ s.coh.net ∧ State.reservedAgent m.src.toNat = false ∧ State.reservedAgent
      m.dst.toNat = false ∧ s.routed (State.agentDie m.src.toNat) (State.agentDie m.dst.toNat) = true ∧ s.coh.heldGranules = [] ∧
      m.dst.toNat = 40 + s.homeOf m.line.toNat ∧ s.coherent (m.line.toNat * 128) = true ∧ m.src.toNat ≤ 36 ∧ s.retired
      (m.line.toNat * 128 / 2 ^ 21) = false ∧ s.homeOf m.line.toNat = ↑home ∧ s.serve? m.line.toNat = none ∧ AMap.getD
      s.coh.waiting m.line.toNat [] = [x] ∧ x.kind = MsgKind.wbM ∧ x.line = m.line ∧ ((s.coh.early.any fun x => x.line == m.line)
      = false)) :=
  ⟨⟨lk (net id (rq MsgKind.rdS)), rq MsgKind.rdS, by decide +kernel⟩,
   ⟨lk (net id (rq MsgKind.wrFull)), rq MsgKind.wrFull, by decide +kernel⟩,
   ⟨net id (rq MsgKind.chk), rq MsgKind.chk, by decide +kernel⟩,
   ⟨net sv (rq MsgKind.rdM), rq MsgKind.rdM, by decide +kernel⟩,
   ⟨net (cp { }) (rq MsgKind.rdS), rq MsgKind.rdS, l0, by decide +kernel⟩,
   ⟨net (cp { }) (rq MsgKind.rdM), rq MsgKind.rdM, l0, by decide +kernel⟩,
   ⟨net (cp { sharers := [32] }) (rq MsgKind.upg), rq MsgKind.upg, l0, by decide +kernel⟩,
   ⟨net (cp { }) (rq MsgKind.rdCur), rq MsgKind.rdCur, l0, by decide +kernel⟩,
   ⟨net (cp { }) (rq MsgKind.wrPart), rq MsgKind.wrPart, l0, by decide +kernel⟩,
   ⟨net (cp { }) (rq MsgKind.wbM), rq MsgKind.wbM, l0, by decide +kernel⟩,
   ⟨net (cp { owner := some 32 }) (rq MsgKind.evE), rq MsgKind.evE, l0, by decide +kernel⟩,
   ⟨dq, rq MsgKind.rdS, 1, rq MsgKind.wbM, by decide +kernel⟩⟩

end HomeRequests

namespace HomeAnswers

def l0 : Line := 0x112233445566778899AABBCCDDEEFF
/-- A message from agent `x` to agent `y` about line 65, whose home is base die 1. -/
def ms (k : MsgKind) (x y : Nat) : Msg := { kind := k, src := BitVec.ofNat 6 x, dst := BitVec.ofNat 6 y, txn := 5, line := 65, ctx := 1, ftxn := 6, data := 7, mask := 0xFF }
def net (f : CohSt → CohSt) (m : Msg) : State := { upQ with coh := f { upQ.coh with net := [m] } }
def v1 : Serve := { req := ms .rdM 0x21 0x29, rsp := [0x20], answered := true }
def rsp0 : Msg := { ms .snpRsp 0x20 0x29 with st := .i, fwd := 0x22 }
def n1 : State := net (fun c => { c with serving := [(65, v1)], dir := [(65, { owner := some 0x20, sharers := [0x22] })] }) rsp0
def v2 : Serve := { req := ms .wrPart 0x20 0x29, needData := true }
def n2 : State := net (fun c => { c with serving := [(65, v2)], copies := [(65, (l0, false))] }) (ms .wbData 0x20 0x29)
def v3 : Serve := { req := ms .rdM 0x20 0x29, answered := true }
def n3 : State := net (fun c => { c with serving := [(65, v3)], dir := [(65, { owner := some 0x20 })] }) (ms .compAck 0x20 0x29)
def n4 : State := net id (ms .pErr 0x20 0x29)

theorem witness_HomeAnswers :
    (∃ (s : State) (m : Msg) (v : Serve), m ∈ s.coh.net ∧ State.reservedAgent m.src.toNat = false ∧ State.reservedAgent m.dst.toNat =
      false ∧ s.routed (State.agentDie m.src.toNat) (State.agentDie m.dst.toNat) = true ∧ m.kind = MsgKind.snpRsp ∧ s.serve?
      m.line.toNat = some v ∧ v.rsp = [m.src.toNat] ∧ v.wb = [] ∧ v.needData = false ∧ v.answered = true ∧ v.acked = false ∧
      v.req.kind = MsgKind.rdM ∧ m.st = LineSt.i ∧ m.wb = false ∧ m.xb = false ∧ m.unc = false ∧ m.fwd ≠ v.req.src) ∧
    (∃ (s : State) (m : Msg) (v : Serve) (l : Line), m ∈ s.coh.net ∧ State.reservedAgent m.src.toNat = false ∧ State.reservedAgent
      m.dst.toNat = false ∧ s.routed (State.agentDie m.src.toNat) (State.agentDie m.dst.toNat) = true ∧ m.kind = MsgKind.wbData ∧
      s.serve? m.line.toNat = some v ∧ v.req.line = m.line ∧ v.rsp = [] ∧ v.wb = [] ∧ v.needData = true ∧ v.answered = false ∧
      m.src.toNat = v.req.src.toNat ∧ m.txn = v.req.txn ∧ (v.req.kind = MsgKind.wrFull ∨ v.req.kind = MsgKind.wrPart) ∧ m.unc =
      false ∧ s.isLocal v.req = false ∧ s.homeOf m.line.toNat ≠ 4 ∧ s.copy? m.line.toNat = some (l, false) ∧
      s.coh.badHome.contains m.line.toNat = false ∧ ((s.coh.early.any fun x => x.line == m.line) = false)) ∧
    (∃ (s : State) (m : Msg) (v : Serve), m ∈ s.coh.net ∧ State.reservedAgent m.src.toNat = false ∧ State.reservedAgent m.dst.toNat =
      false ∧ s.routed (State.agentDie m.src.toNat) (State.agentDie m.dst.toNat) = true ∧ m.kind = MsgKind.compAck ∧ s.serve?
      m.line.toNat = some v ∧ v.req.src = m.src ∧ v.req.txn = m.txn ∧ v.rsp = [] ∧ v.wb = [] ∧ v.needData = false ∧ v.answered =
      true ∧ s.isLocal v.req = false) ∧
    (∃ (s : State) (m : Msg), m ∈ s.coh.net ∧ State.reservedAgent m.src.toNat = false ∧ State.reservedAgent m.dst.toNat = false ∧
      s.routed (State.agentDie m.src.toNat) (State.agentDie m.dst.toNat) = true ∧ m.kind = MsgKind.pErr) :=
  ⟨⟨n1, rsp0, v1, by decide +kernel⟩,
   ⟨n2, ms MsgKind.wbData 32 41, v2, l0, by decide +kernel⟩,
   ⟨n3, ms MsgKind.compAck 32 41, v3, by decide +kernel⟩,
   ⟨n4, ms MsgKind.pErr 32 41, by decide +kernel⟩⟩

end HomeAnswers

namespace AgentSnoops

def l0 : Line := 0x112233445566778899AABBCCDDEEFF
/-- A message from agent `x` to agent `y` about line 65, whose home is base die 1. -/
def ms (k : MsgKind) (x y : Nat) : Msg := { kind := k, src := BitVec.ofNat 6 x, dst := BitVec.ofNat 6 y, txn := 5, line := 65, ctx := 1, ftxn := 6, data := 7, mask := 0xFF }
def net (f : CohSt → CohSt) (m : Msg) : State := { upQ with coh := f { upQ.coh with net := [m] } }
def sn (k : MsgKind) (f : Nat) : Msg := { ms k 0x29 0x20 with fwd := BitVec.ofNat 6 f }
def cl (st : CState) : CLine := { st := st, data := l0, ctx := 1 }
def ag (k : MsgKind) (f : Nat) (st : CState) : State := (net id (sn k f)).setCline 0x20 65 (cl st)

theorem witness_AgentSnoops :
    (∃ (s : State) (m : Msg) (c : CLine), m ∈ s.coh.net ∧ State.reservedAgent m.src.toNat = false ∧ m.dst.toNat < 36 ∧ s.routed
      (State.agentDie m.src.toNat) (State.agentDie m.dst.toNat) = true ∧ s.cline m.dst.toNat m.line.toNat = some c ∧ c.bad = false
      ∧ m.kind = MsgKind.snpS ∧ (c.st = CState.m ∧ ¬m.fwd.toNat = 40 + s.homeOf m.line.toNat)) ∧
    (∃ (s : State) (m : Msg) (c : CLine), m ∈ s.coh.net ∧ State.reservedAgent m.src.toNat = false ∧ m.dst.toNat < 36 ∧ s.routed
      (State.agentDie m.src.toNat) (State.agentDie m.dst.toNat) = true ∧ s.cline m.dst.toNat m.line.toNat = some c ∧ c.bad = false
      ∧ m.kind = MsgKind.snpS ∧ (c.st = CState.o ∧ ¬m.fwd.toNat = 40 + s.homeOf m.line.toNat)) ∧
    (∃ (s : State) (m : Msg) (c : CLine), m ∈ s.coh.net ∧ State.reservedAgent m.src.toNat = false ∧ m.dst.toNat < 36 ∧ s.routed
      (State.agentDie m.src.toNat) (State.agentDie m.dst.toNat) = true ∧ s.cline m.dst.toNat m.line.toNat = some c ∧ c.bad = false
      ∧ m.kind = MsgKind.snpS ∧ (c.st = CState.e ∧ ¬m.fwd.toNat = 40 + s.homeOf m.line.toNat)) ∧
    (∃ (s : State) (m : Msg) (c : CLine), m ∈ s.coh.net ∧ State.reservedAgent m.src.toNat = false ∧ m.dst.toNat < 36 ∧ s.routed
      (State.agentDie m.src.toNat) (State.agentDie m.dst.toNat) = true ∧ s.cline m.dst.toNat m.line.toNat = some c ∧ c.bad = false
      ∧ m.kind = MsgKind.snpS ∧ ((c.st = CState.m ∨ c.st = CState.o) ∧ m.fwd.toNat = 40 + s.homeOf m.line.toNat)) ∧
    (∃ (s : State) (m : Msg) (c : CLine), m ∈ s.coh.net ∧ State.reservedAgent m.src.toNat = false ∧ m.dst.toNat < 36 ∧ s.routed
      (State.agentDie m.src.toNat) (State.agentDie m.dst.toNat) = true ∧ s.cline m.dst.toNat m.line.toNat = some c ∧ c.bad = false
      ∧ m.kind = MsgKind.snpS ∧ (c.st = CState.e ∧ m.fwd.toNat = 40 + s.homeOf m.line.toNat)) ∧
    (∃ (s : State) (m : Msg) (c : CLine), m ∈ s.coh.net ∧ State.reservedAgent m.src.toNat = false ∧ m.dst.toNat < 36 ∧ s.routed
      (State.agentDie m.src.toNat) (State.agentDie m.dst.toNat) = true ∧ s.cline m.dst.toNat m.line.toNat = some c ∧ c.bad = false
      ∧ m.kind = MsgKind.snpM ∧ (c.st = CState.m ∨ c.st = CState.o ∨ c.st = CState.e)) ∧
    (∃ (s : State) (m : Msg) (c : CLine), m ∈ s.coh.net ∧ State.reservedAgent m.src.toNat = false ∧ m.dst.toNat < 36 ∧ s.routed
      (State.agentDie m.src.toNat) (State.agentDie m.dst.toNat) = true ∧ s.cline m.dst.toNat m.line.toNat = some c ∧ c.bad = false
      ∧ m.kind = MsgKind.snpI ∧ (c.st = CState.m ∨ c.st = CState.o)) ∧
    (∃ (s : State) (m : Msg) (c : CLine), m ∈ s.coh.net ∧ State.reservedAgent m.src.toNat = false ∧ m.dst.toNat < 36 ∧ s.routed
      (State.agentDie m.src.toNat) (State.agentDie m.dst.toNat) = true ∧ s.cline m.dst.toNat m.line.toNat = some c ∧ c.bad = false
      ∧ m.kind = MsgKind.snpI ∧ (c.st = CState.e ∨ c.st = CState.s)) ∧
    (∃ (s : State) (m : Msg) (c : CLine), m ∈ s.coh.net ∧ State.reservedAgent m.src.toNat = false ∧ m.dst.toNat < 36 ∧ s.routed
      (State.agentDie m.src.toNat) (State.agentDie m.dst.toNat) = true ∧ s.cline m.dst.toNat m.line.toNat = some c ∧ c.bad = false
      ∧ m.kind = MsgKind.snpI ∧ c.st = CState.smA) ∧
    (∃ (s : State) (m : Msg) (c : CLine), m ∈ s.coh.net ∧ State.reservedAgent m.src.toNat = false ∧ m.dst.toNat < 36 ∧ s.routed
      (State.agentDie m.src.toNat) (State.agentDie m.dst.toNat) = true ∧ s.cline m.dst.toNat m.line.toNat = some c ∧ c.bad = false
      ∧ m.kind = MsgKind.snpC ∧ c.st = CState.m) ∧
    (∃ (s : State) (m : Msg) (c : CLine), m ∈ s.coh.net ∧ State.reservedAgent m.src.toNat = false ∧ m.dst.toNat < 36 ∧ s.routed
      (State.agentDie m.src.toNat) (State.agentDie m.dst.toNat) = true ∧ s.cline m.dst.toNat m.line.toNat = some c ∧ c.bad = false
      ∧ m.kind = MsgKind.snpC ∧ c.st = CState.o) ∧
    (∃ (s : State) (m : Msg) (c : CLine), m ∈ s.coh.net ∧ State.reservedAgent m.src.toNat = false ∧ m.dst.toNat < 36 ∧ s.routed
      (State.agentDie m.src.toNat) (State.agentDie m.dst.toNat) = true ∧ s.cline m.dst.toNat m.line.toNat = some c ∧ c.bad = false
      ∧ m.kind = MsgKind.snpC ∧ c.st = CState.e) :=
  ⟨⟨ag MsgKind.snpS 33 CState.m, sn MsgKind.snpS 33, cl CState.m, by decide +kernel⟩,
   ⟨ag MsgKind.snpS 33 CState.o, sn MsgKind.snpS 33, cl CState.o, by decide +kernel⟩,
   ⟨ag MsgKind.snpS 33 CState.e, sn MsgKind.snpS 33, cl CState.e, by decide +kernel⟩,
   ⟨ag MsgKind.snpS 41 CState.m, sn MsgKind.snpS 41, cl CState.m, by decide +kernel⟩,
   ⟨ag MsgKind.snpS 41 CState.e, sn MsgKind.snpS 41, cl CState.e, by decide +kernel⟩,
   ⟨ag MsgKind.snpM 33 CState.m, sn MsgKind.snpM 33, cl CState.m, by decide +kernel⟩,
   ⟨ag MsgKind.snpI 33 CState.m, sn MsgKind.snpI 33, cl CState.m, by decide +kernel⟩,
   ⟨ag MsgKind.snpI 33 CState.s, sn MsgKind.snpI 33, cl CState.s, by decide +kernel⟩,
   ⟨ag MsgKind.snpI 33 CState.smA, sn MsgKind.snpI 33, cl CState.smA, by decide +kernel⟩,
   ⟨ag MsgKind.snpC 33 CState.m, sn MsgKind.snpC 33, cl CState.m, by decide +kernel⟩,
   ⟨ag MsgKind.snpC 33 CState.o, sn MsgKind.snpC 33, cl CState.o, by decide +kernel⟩,
   ⟨ag MsgKind.snpC 33 CState.e, sn MsgKind.snpC 33, cl CState.e, by decide +kernel⟩⟩

end AgentSnoops

namespace AgentAnswers

def l0 : Line := 0x112233445566778899AABBCCDDEEFF
/-- A message from agent `x` to agent `y` about line 65, whose home is base die 1. -/
def ms (k : MsgKind) (x y : Nat) : Msg := { kind := k, src := BitVec.ofNat 6 x, dst := BitVec.ofNat 6 y, txn := 5, line := 65, ctx := 1, ftxn := 6, data := 7, mask := 0xFF }
def net (f : CohSt → CohSt) (m : Msg) : State := { upQ with coh := f { upQ.coh with net := [m] } }
def an (k : MsgKind) : Msg := { ms k 0x29 0x20 with st := .e }
def cl (st : CState) : CLine := { st := st, data := l0, ctx := 1, txn := 5, chk := 4 }
def ag (k : MsgKind) (st : CState) : State := (net (fun c => { c with used := [(0x20 * 8 + 1, [5, 9])] }) (an k)).setCline 0x20 65 (cl st)
def anI (k : MsgKind) : Msg := { an k with st := .i }
def agU (k : MsgKind) (q : UnitReq) : State := net (fun c => { c with used := [(0x20 * 8 + 1, [5, 9])], unit := some q }) (anI k)
def uq (k : MsgKind) : UnitReq := { agent := 0x20, kind := k, line := 65, txn := 5 }

theorem witness_AgentAnswers :
    (∃ (s : State) (m : Msg) (c : CLine), m ∈ s.coh.net ∧ State.reservedAgent m.src.toNat = false ∧ m.dst.toNat < 36 ∧ s.routed
      (State.agentDie m.src.toNat) (State.agentDie m.dst.toNat) = true ∧ m.kind = MsgKind.data ∧ (s.cline m.dst.toNat m.line.toNat
      = some c ∧ c.txn = m.txn.toNat) ∧ m.unc = false ∧ c.st = CState.isD) ∧
    (∃ (s : State) (m : Msg) (c : CLine), m ∈ s.coh.net ∧ State.reservedAgent m.src.toNat = false ∧ m.dst.toNat < 36 ∧ s.routed
      (State.agentDie m.src.toNat) (State.agentDie m.dst.toNat) = true ∧ m.kind = MsgKind.data ∧ (s.cline m.dst.toNat m.line.toNat
      = some c ∧ c.txn = m.txn.toNat) ∧ m.unc = false ∧ c.st = CState.imD) ∧
    (∃ (s : State) (m : Msg) (c : CLine), m ∈ s.coh.net ∧ State.reservedAgent m.src.toNat = false ∧ m.dst.toNat < 36 ∧ s.routed
      (State.agentDie m.src.toNat) (State.agentDie m.dst.toNat) = true ∧ m.kind = MsgKind.gntM ∧ (s.cline m.dst.toNat m.line.toNat
      = some c ∧ c.txn = m.txn.toNat) ∧ (c.st = CState.smA ∨ c.st = CState.omA)) ∧
    (∃ (s : State) (m : Msg) (c : CLine), m ∈ s.coh.net ∧ State.reservedAgent m.src.toNat = false ∧ m.dst.toNat < 36 ∧ s.routed
      (State.agentDie m.src.toNat) (State.agentDie m.dst.toNat) = true ∧ m.kind = MsgKind.relAck ∧ (s.cline m.dst.toNat
      m.line.toNat = some c ∧ c.txn = m.txn.toNat) ∧ (c.st = CState.miA ∨ c.st = CState.oiA ∨ c.st = CState.eiA ∨ c.st =
      CState.iiA)) ∧
    (∃ (s : State) (m : Msg) (c : CLine), m ∈ s.coh.net ∧ State.reservedAgent m.src.toNat = false ∧ m.dst.toNat < 36 ∧ s.routed
      (State.agentDie m.src.toNat) (State.agentDie m.dst.toNat) = true ∧ m.kind = MsgKind.cmp ∧ (s.cline m.dst.toNat m.line.toNat
      = some c ∧ c.txn = m.txn.toNat) ∧ c.st.stable = true ∧ (s.hart m.dst.toNat).unc = [] ∧ s.unitAwaits m = none) ∧
    (∃ (s : State) (m : Msg) (c : CLine), m ∈ s.coh.net ∧ State.reservedAgent m.src.toNat = false ∧ m.dst.toNat < 36 ∧ s.routed
      (State.agentDie m.src.toNat) (State.agentDie m.dst.toNat) = true ∧ m.kind = MsgKind.deny ∧ (s.cline m.dst.toNat m.line.toNat
      = some c ∧ c.txn = m.txn.toNat) ∧ (s.hart m.dst.toNat).unc = [] ∧ s.unitAwaits m = none ∧ (c.st = CState.isD ∨ c.st =
      CState.imD)) ∧
    (∃ (s : State) (m : Msg) (c : CLine), m ∈ s.coh.net ∧ State.reservedAgent m.src.toNat = false ∧ m.dst.toNat < 36 ∧ s.routed
      (State.agentDie m.src.toNat) (State.agentDie m.dst.toNat) = true ∧ m.kind = MsgKind.deny ∧ (s.cline m.dst.toNat m.line.toNat
      = some c ∧ c.txn = m.txn.toNat) ∧ (s.hart m.dst.toNat).unc = [] ∧ s.unitAwaits m = none ∧ c.st.stable = true) ∧
    (∃ (s : State) (m : Msg), m ∈ s.coh.net ∧ State.reservedAgent m.src.toNat = false ∧ m.dst.toNat < 36 ∧ s.routed (State.agentDie
      m.src.toNat) (State.agentDie m.dst.toNat) = true ∧ m.kind = MsgKind.crdRet) ∧
    (∃ (s : State) (m : Msg) (c : CLine), m ∈ s.coh.net ∧ State.reservedAgent m.src.toNat = false ∧ m.dst.toNat < 36 ∧ s.routed
      (State.agentDie m.src.toNat) (State.agentDie m.dst.toNat) = true ∧ m.kind = MsgKind.deny ∧ (s.cline m.dst.toNat m.line.toNat
      = some c ∧ c.txn = m.txn.toNat) ∧ (s.hart m.dst.toNat).unc = [] ∧ s.unitAwaits m = none ∧ (c.st = CState.smA ∨ c.st =
      CState.omA)) ∧
    (∃ (s : State) (m : Msg) (q : UnitReq), m ∈ s.coh.net ∧ State.reservedAgent m.src.toNat = false ∧ m.dst.toNat < 36 ∧ s.routed
      (State.agentDie m.src.toNat) (State.agentDie m.dst.toNat) = true ∧ (Instr.data m, m.kind) ∈ [(Instr.data m, MsgKind.data),
      (Instr.cmp m, MsgKind.cmp), (Instr.deny m, MsgKind.deny)] ∧ s.unitAwaits m = some q ∧ q.got = none ∧ s.cline m.dst.toNat
      m.line.toNat = none ∧ 32 ≤ m.dst.toNat ∧ (s.hart m.dst.toNat).unc = [] ∧ (m.kind = MsgKind.data → q.kind = MsgKind.rdCur ∧
      m.unc = false ∧ 40 ≤ m.src.toNat)) :=
  ⟨⟨ag MsgKind.data CState.isD, an MsgKind.data, cl CState.isD, by decide +kernel⟩,
   ⟨ag MsgKind.data CState.imD, an MsgKind.data, cl CState.imD, by decide +kernel⟩,
   ⟨ag MsgKind.gntM CState.smA, an MsgKind.gntM, cl CState.smA, by decide +kernel⟩,
   ⟨ag MsgKind.relAck CState.miA, an MsgKind.relAck, cl CState.miA, by decide +kernel⟩,
   ⟨ag MsgKind.cmp CState.m, an MsgKind.cmp, cl CState.m, by decide +kernel⟩,
   ⟨ag MsgKind.deny CState.isD, an MsgKind.deny, cl CState.isD, by decide +kernel⟩,
   ⟨ag MsgKind.deny CState.s, an MsgKind.deny, cl CState.s, by decide +kernel⟩,
   ⟨ag MsgKind.crdRet CState.m, an MsgKind.crdRet, by decide +kernel⟩,
   ⟨ag MsgKind.deny CState.smA, an MsgKind.deny, cl CState.smA, by decide +kernel⟩,
   ⟨agU MsgKind.data (uq MsgKind.rdCur), anI MsgKind.data, uq MsgKind.rdCur, by decide +kernel⟩⟩

end AgentAnswers

namespace OutstandingAccesses

def ac (u : AccUnit) (w : Bool) : Access := { id := 4, unit := u, write := w, dev := false, addr := 0x100, bytes := 4, rd := 6, sext := true, issued := 0, tout := 5 }
def wo (a : Access) : State := { upQ with order := { out := [a], late := [9], timer := 7000, tested := 3 }, harts := [] }
def wh (a : Access) : State := { upQ with order := { out := [a], late := [9], timer := 7000, tested := 7 }, harts := [(3, { running := true, x := [(6, 1), (7, 8)] })] }
def cn : State := onT coreUp fun x => { x with core := { x.core with notices := 2 } }

theorem witness_OutstandingAccesses :
    (∃ (s : State) (bs : List Byte) (x : Access), (List.find? (fun x => x.id == 4 && x.got.isNone) s.order.out = some x) ∧ x.host =
      none ∧ (Option.map (fun p => s.get (Reg.OB_PSTAT.RATE p.1)) x.port ≠ some 0) ∧ x.unit = AccUnit.hart 3 ∧ x.write = false ∧
      bs.length = x.bytes) ∧
    (∃ (s : State), (List.find? (fun x => x.id == 9 && x.got.isNone) s.order.out = none) ∧ 9 ∈ s.order.late) ∧
    (∃ (s : State), s.order.timer / 1000 ≤ s.order.tested) ∧
    (∃ (s : State) (x : Access), (List.find? (fun x => x.id == 4 && x.got.isNone) s.order.out = some x) ∧ x.host = none ∧ x.unit =
      AccUnit.hubIo ∧ (Option.map (fun p => s.get (Reg.OB_PSTAT.RATE p.1)) x.port ≠ some 0) ∧ x.write = true) ∧
    (∃ (s : State) (x : Access), 7 = s.order.timer / 1000 ∧ s.order.tested < 7 ∧ s.order.out = [x] ∧ s.order.tried = [] ∧ s.harts = []
      ∧ x.got = none ∧ x.unit = AccUnit.hubIo ∧ x.issued + x.tout * 1000 ≤ 7 * 1000 ∧ x.desc = none ∧ s.power.sleep = Sleep.run ∧
      x.write = true) ∧
    (∃ (s : State) (x : Access), 7 = s.order.timer / 1000 ∧ s.order.tested < 7 ∧ s.order.out = [x] ∧ s.order.tried = [] ∧ s.harts = []
      ∧ x.got = none ∧ x.unit = AccUnit.hubIo ∧ x.issued + x.tout * 1000 ≤ 7 * 1000 ∧ x.desc = none ∧ s.power.sleep = Sleep.run ∧
      x.write = false) ∧
    (∃ (s : State) (t : Fin 256), (s.tile ↑t).core.notices ≠ 0 ∧ (s.tile ↑t).core.wait = CoreWait.none) :=
  ⟨⟨wh (ac (AccUnit.hart 3) false), [1, 2, 3, 132], ac (AccUnit.hart 3) false, by decide +kernel⟩,
   ⟨wh (ac (AccUnit.hart 3) false), by decide +kernel⟩,
   ⟨wh (ac (AccUnit.hart 3) false), by decide +kernel⟩,
   ⟨wo (ac AccUnit.hubIo true), ac AccUnit.hubIo true, by decide +kernel⟩,
   ⟨wo (ac AccUnit.hubIo true), ac AccUnit.hubIo true, by decide +kernel⟩,
   ⟨wo (ac AccUnit.hubIo false), ac AccUnit.hubIo false, by decide +kernel⟩,
   ⟨cn, 0, by decide +kernel⟩⟩

end OutstandingAccesses

end Sys2Proof.Machine.Tests
end

