-- ==== Sys2Proof/Tests/Witness4.lean ====
section
/-! SUPPORT. Witnesses: for each statement with premises, a state and operands that meet them together, for every clause. A premise on an
opaque predicate of Config (a signature, a digest of SPDM, the boot code) is left out: it can be neither proved nor refuted. -/

set_option Elab.async false
set_option linter.all false
set_option maxRecDepth 20000
set_option exponentiation.threshold 1100
set_option synthInstance.maxSize 2000
set_option synthInstance.maxHeartbeats 400000

namespace Sys2Proof.Machine.Tests

open Sys2Proof Sys2Proof.Machine

namespace NodeCores

def l0 : Line := 0x112233445566778899AABBCCDDEEFF
def c0 : CLine := { st := .m, data := l0, ctx := 1 }
def hs (r : Option Nat) : State := { (upQ.setCline 3 65 c0) with harts := [(3, { running := true, x := [(6, 1), (7, 8)], mflsctx := 1, resv := r, fences := [] })] }

theorem witness_NodeCores :
    (∃ (s : State) (h : Fin 32) (a : BitVec 52) (pbmt : BitVec 2) (c : CLine) (size : MemSize), s.hartRuns ↑h = true ∧ (s.hartTarget
      (s.hart ↑h).mflsctx a.toNat pbmt.toNat (sizeBytes size) false = State.HartTarget.memory 0 ∧ (s.hart ↑h).fences = [] ∧
      (s.hart ↑h).unc = [] ∧ s.coh.denied = [] ∧ s.coh.spoiled = [] ∧ s.order.tried = [] ∧ s.cline (↑h) (a.toNat / 128) = some c ∧
      c.st = CState.m ∧ c.bad = false ∧ c.ctx = (s.hart ↑h).mflsctx)) ∧
    (∃ (s : State) (h : Fin 32) (a : BitVec 52) (pbmt : BitVec 2) (c : CLine) (size : MemSize), s.hartRuns ↑h = true ∧ (s.hartTarget
      (s.hart ↑h).mflsctx a.toNat pbmt.toNat (sizeBytes size) true = State.HartTarget.memory 0 ∧ (s.hart ↑h).fences = [] ∧ (s.hart
      ↑h).unc = [] ∧ s.coh.denied = [] ∧ s.coh.spoiled = [] ∧ s.order.tried = [] ∧ s.cline (↑h) (a.toNat / 128) = some c ∧ c.st =
      CState.m ∧ c.bad = false ∧ c.ctx = (s.hart ↑h).mflsctx)) ∧
    (∃ (s : State) (h : Fin 32) (a : BitVec 52) (pbmt : BitVec 2) (c : CLine), s.hartRuns ↑h = true ∧ (s.hartTarget (s.hart
      ↑h).mflsctx a.toNat pbmt.toNat (if false = true then 8 else 4) true = State.HartTarget.memory 0 ∧ (s.hart ↑h).fences = [] ∧
      (s.hart ↑h).unc = [] ∧ s.coh.denied = [] ∧ s.coh.spoiled = [] ∧ s.order.tried = [] ∧ s.cline (↑h) (a.toNat / 128) = some c ∧
      c.st = CState.m ∧ c.bad = false ∧ c.ctx = (s.hart ↑h).mflsctx) ∧ (pbmt.getLsbD 0 = false ∨ s.hartStores ↑h = false)) ∧
    (∃ (s : State) (h : Fin 32) (a : BitVec 52) (pbmt : BitVec 2) (c : CLine), s.hartRuns ↑h = true ∧ (s.hartTarget (s.hart
      ↑h).mflsctx a.toNat pbmt.toNat (if false = true then 8 else 4) true = State.HartTarget.memory 0 ∧ (s.hart ↑h).fences = [] ∧
      (s.hart ↑h).unc = [] ∧ s.coh.denied = [] ∧ s.coh.spoiled = [] ∧ s.order.tried = [] ∧ s.cline (↑h) (a.toNat / 128) = some c ∧
      c.st = CState.m ∧ c.bad = false ∧ c.ctx = (s.hart ↑h).mflsctx) ∧ (pbmt.getLsbD 0 = false ∨ s.hartStores ↑h = false) ∧
      (s.hart ↑h).resv ≠ some (a.toNat / 128)) ∧
    (∃ (s : State) (h : Fin 32), s.hartRuns ↑h = true ∧ (s.hart ↑h).unc = [] ∧ s.hartOut ↑h = []) ∧
    (∃ (s : State) (h : Fin 32), s.hartRuns ↑h = true ∧ (s.hart ↑h).running = true) ∧
    (∃ (s : State) (h : Fin 32), s.hartRuns ↑h = true) ∧
    (∃ (s : State) (h : Fin 32) (a : BitVec 52) (pbmt : BitVec 2) (c : CLine), s.hartRuns ↑h = true ∧ (s.hartTarget (s.hart
      ↑h).mflsctx a.toNat pbmt.toNat (if false = true then 8 else 4) true = State.HartTarget.memory 0 ∧ (s.hart ↑h).fences = [] ∧
      (s.hart ↑h).unc = [] ∧ s.coh.denied = [] ∧ s.coh.spoiled = [] ∧ s.order.tried = [] ∧ s.cline (↑h) (a.toNat / 128) = some c ∧
      c.st = CState.m ∧ c.bad = false ∧ c.ctx = (s.hart ↑h).mflsctx) ∧ (pbmt.getLsbD 0 = false ∨ s.hartStores ↑h = false) ∧
      (s.hart ↑h).resv = some (a.toNat / 128)) :=
  ⟨⟨hs none, 3, 8328, 0, c0, MemSize.b, by decide +kernel⟩,
   ⟨hs none, 3, 8328, 0, c0, MemSize.b, by decide +kernel⟩,
   ⟨hs none, 3, 8328, 0, c0, by decide +kernel⟩,
   ⟨hs none, 3, 8328, 0, c0, by decide +kernel⟩,
   ⟨hs none, 3, by decide +kernel⟩,
   ⟨hs none, 3, by decide +kernel⟩,
   ⟨hs none, 3, by decide +kernel⟩,
   ⟨hs (some 65), 3, 8328, 0, c0, by decide +kernel⟩⟩

end NodeCores

namespace PageFaults

def pf : PFault := { ring := 2, id := 7, ctx := 1, va := 0x5008, cause := 1, access := 1, level := 1, pte := 0, who := .mover 3, queue := 0, seq := 1, postmark := 5, first := 2, joined := [{ w := .mover 3, access := 1, queue := 0, seq := 1, first := 2 }] }
def fg : Flight := { fl dLaunch with snap := { fring := 2, ftimeout := 4 } }
def fs (f : XlatSt → XlatSt) : State := let s := withFlight upQ fg; { s with xlat := f { s.xlat with rings := [(2, { base := 0x3000, j := 4, loc := true, en := true, headAddr := 0x200, ctx := 1, tail := 3, h := 1, waiting := [pf] })] } }
def f1 := fs id
def f2 := fs fun x => { x with faults := [pf] }
def pf2 : PFault := { pf with joined := [{ w := .mover 3, access := 1, queue := 0, seq := 1, first := upQ.round }] }
def f3 := fs fun x => { x with faults := [pf2] }

theorem witness_PageFaults :
    (∃ (s : State) (f : Fin 64) (c : PFault) (rest : List PFault), (s.fring ↑f).en = true ∧ (s.fring ↑f).loc = true ∧ s.flag
      Reg.HP_STAT.DETACHED = false ∧ (s.fring ↑f).waiting = c :: rest ∧ (s.fring ↑f).full = false ∧ (s.fring ↑f).evsrc = 0 ∧
      { (s.fring ↑f) with tail := ((s.fring ↑f).tail + 1) % 2 ^ 32 }.full = false) ∧
    (∃ (s : State) (f : Fin 64) (r : Requester) (v : W64), s.reaches r (3145728 + 4096 * ↑f) = (true, s) ∧ (v.toNat / 2 ^ 16 ≠ 1 ∧
      v.toNat / 2 ^ 16 ≠ 2 ∨ List.find? (fun x => x.ring == ↑f && x.id == v.toNat % 2 ^ 16) s.xlat.faults = none)) ∧
    (∃ (s : State) (q : Fin 16384) (seq : W32) (g : Flight), s.flight? (↑q) (seq.toNat) = some g ∧ g.abort = 0 ∧ s.faultAged (↑q)
      (seq.toNat) g.snap.ftimeout = true ∧ classOf (opOf g.desc) = some Cl.tile ∧ g.parts = [] ∧ s.movers = []) ∧
    (∃ (s : State) (f : Fin 64) (r : Requester) (v : W64) (x : PFault), s.reaches r (3145728 + 4096 * ↑f) = (true, s) ∧ (v.toNat / 2 ^
      16 = 1 ∨ v.toNat / 2 ^ 16 = 2) ∧ (List.find? (fun x => x.ring == ↑f && x.id == v.toNat % 2 ^ 16) s.xlat.faults = some x) ∧
      s.ticksFirst x.joined = s) :=
  ⟨⟨f1, 2, pf, [], by decide +kernel⟩,
   ⟨f1, 2, Requester.host, 7 + 2 ^ 16, by decide +kernel⟩,
   ⟨f2, 0, 1, fg, by decide +kernel⟩,
   ⟨f3, 2, Requester.host, 7 + 2 ^ 16, pf2, by decide +kernel⟩⟩

end PageFaults

namespace Links

def mkF (sl sq nak : Nat) : BitVec 2048 := let b : BitVec 2048 := BitVec.ofNat 2048 (sl * 2 ^ 45 + sq * 2 ^ 57 + nak * 2 ^ 49); b ||| (BitVec.ofNat 2048 ((flitCrc b).toNat * 2 ^ 1984))
def lk : State := { upQ with repair := { upQ.repair with links := [(2, { trained := true, rx := 4, errored := true }), (3, { trained := true, errored := true })] }, harts := [(4, { running := true, resv := some 4 })] }
def rc : State := { lk with repair := { lk.repair with recal := [1] } }
def fBad : BitVec 2048 := 5
def f0 := mkF 0 5 0

theorem witness_Links :
    (∃ (s : State) (d : Fin 16) (f : BitVec 2048), (s.link ↑d).trained = true ∧ s.repair.recal.contains (↑d / 2) = false ∧ (s.link
      ↑d).canSend f = true ∧ flitCrcGood f = false) ∧
    (∃ (s : State) (d : Fin 16) (f : BitVec 2048), (s.link ↑d).trained = true ∧ s.repair.recal.contains (↑d / 2) = false ∧ (s.link
      ↑d).canSend f = true ∧ flitCrcGood f = true) ∧
    (∃ (s : State) (l : Fin 8), s.repair.recal.contains ↑l = true) :=
  ⟨⟨lk, 2, fBad, by decide +kernel⟩,
   ⟨lk, 2, f0, by decide +kernel⟩,
   ⟨rc, 1, by decide +kernel⟩⟩

end Links

namespace BeatsAndTests

def rd (d : Int) : BeatReadings := { sensors := List.replicate 13 [d], memories := List.replicate 24 50, telemetry := List.replicate 16 1000, inputPower := 100000, inputVolts := 480 }
def b0 : State := { upQ with time := { upQ.time with beats := 20 } }
def b1 : State := { b0 with power := { b0.power with sleep := .nap } }
def b2 : State := let s := b0.set Reg.LR_CTL.TRTHR 0; { s with repair := { s.repair with testing := [.tile 0 3] } }

theorem witness_BeatsAndTests :
    (∃ (s : State) (r : BeatReadings), s.beatDue = true ∧ s.power.sleep = Sleep.run ∧ State.tripOf r = none ∧ s.maintBeat = false ∧
      r.errors = [] ∧ r.corrections = [] ∧ r.spoilt = [] ∧ r.badCopies = [] ∧ r.fenced = []) ∧
    (∃ (s : State) (r : BeatReadings), s.beatDue = true ∧ s.power.sleep = Sleep.run ∧ State.tripOf r ≠ none) ∧
    (∃ (s : State), s.beatDue = true ∧ (s.power.sleep = Sleep.nap ∨ s.power.sleep = Sleep.night)) ∧
    (∃ (s : State) (u : UnitRef), s.repair.testing.contains u = true ∧ s.get Reg.LR_CTL.TRTHR = 0) ∧
    (∃ (s : State) (u : UnitRef) (p : Nat × Nat), s.repair.testing.contains u = true ∧ p ∈ unitTiles u ∧ (∀ p ∈ unitTiles u,
      s.repair.retired.contains (36 * p.1 + p.2) = false)) :=
  ⟨⟨b0, rd 50, by decide +kernel⟩,
   ⟨b0, rd 120, by decide +kernel⟩,
   ⟨b1, by decide +kernel⟩,
   ⟨b2, UnitRef.tile 0 3, by decide +kernel⟩,
   ⟨b2, UnitRef.tile 0 3, (0, 3), by decide +kernel⟩⟩

end BeatsAndTests

namespace CustomsGate

def hd (op addr len : Nat) : BitVec 128 := BitVec.ofNat 128 (op + 16 * 5 + 2 ^ 16 * 1 + 2 ^ 32 * addr + 2 ^ 84 * (len - 1))
def g0 (en rate : Nat) : State := ((((((upQ.set Reg.CG_STAT.LINKUP 1).set Reg.CG_CTL.EN en).set (Reg.CG_WCTL.EN 2) 1).set (Reg.CG_WBASE.BASE 2) 1).set (Reg.CG_WLAST.LAST 2) 3).set (Reg.CG_WCTL.CTXID 2) 1).set (Reg.CG_WCTL.TYPES 2) 7 |>.set (Reg.CG_WCTL.RATE 2) rate
def gi : State := let s := g0 1 0; { s with ident := { s.ident with guest := true } }
def gw : State := let s := g0 1 0; { s with gate := { s.gate with waiting := [{ hdr := 4 }] } }
def h1 := hd 1 0x1004 4
def h2 := hd 2 0x1004 4
def w1 : State := (gi.readBytes 1 1 0x1004 4).2.2
def w2 : State := (gi.writeBytes 1 0x1004 [some 1, some 2, some 3, some 4]).2

theorem witness_CustomsGate :
    (∃ (s : State) (hdr : BitVec 128) (bs : List Byte), s.flag Reg.CG_STAT.LINKUP = true ∧ s.gate.waiting = [] ∧ (s.flag Reg.CG_CTL.EN
      = false ∨ State.guestFormed { hdr := hdr, bytes := bs, bad := State.guestOp hdr != 1 } = false ∨ s.guestWindow hdr = none)) ∧
    (∃ (s : State), s.gate.waiting = [] ∧ s.gate.refilled < s.now / 1000) ∧
    (∃ (s : State), s.flag Reg.CG_STAT.LINKUP = true ∧ s.power.sleep = Sleep.run) ∧
    (∃ (s : State) (hdr : BitVec 128) (bs0 : List Byte) (l : State.Loss) (u : State), s.flag Reg.CG_STAT.LINKUP = true ∧
      s.gate.waiting = [] ∧ s.flag Reg.CG_CTL.EN = true ∧ State.guestFormed
      { hdr := hdr, bytes := bs0, bad := State.guestOp hdr != 1 } = true ∧ s.guestWindow hdr = some 2 ∧ s.get (Reg.CG_WCTL.RATE 2)
      = 0 ∧ s.granuleHeld (State.guestAddr hdr) (State.guestLen hdr) = false ∧ State.guestOp hdr = 1 ∧ s.readBytes 1
      (State.guestCtx hdr) (State.guestAddr hdr) (State.guestLen hdr) = (List.map some (0 :: 0 :: 0 :: 0 :: bs0), l, u) ∧ u.flag
      Reg.CG_STAT.LINKUP = true) ∧
    (∃ (s : State) (hdr : BitVec 128) (bs : List Byte) (l : State.Loss) (u : State), s.flag Reg.CG_STAT.LINKUP = true ∧ s.gate.waiting
      = [] ∧ s.flag Reg.CG_CTL.EN = true ∧ State.guestFormed { hdr := hdr, bytes := bs, bad := State.guestOp hdr != 2 } = true ∧
      s.guestWindow hdr = some 2 ∧ s.get (Reg.CG_WCTL.RATE 2) = 0 ∧ s.granuleHeld (State.guestAddr hdr) (State.guestLen hdr) =
      false ∧ State.guestOp hdr ≠ 1 ∧ (s.writeBytes (State.guestCtx hdr) (State.guestAddr hdr) (List.map (fun p => if (decide
      (State.guestOp hdr = 2) || ({ hdr := hdr, bytes := bs, bad := State.guestOp hdr != 2 } : GuestReq).mask.getLsbD p.2) = true
      then some p.1 else none) ({ hdr := hdr, bytes := bs, bad := State.guestOp hdr != 2 } : GuestReq).bytes.zipIdx) = (l, u)) ∧
      u.flag Reg.CG_STAT.LINKUP = true) ∧
    (∃ (s : State), s.ident.guest = true ∧ s.flag Reg.CG_CTL.EN = true ∧ s.power.sleep = Sleep.run) ∧
    (∃ (s : State), s.flag Reg.CG_STAT.LINKUP = true ∧ s.gate.waiting ≠ []) ∧
    (∃ (s : State) (hdr : BitVec 128) (bs : List Byte), s.flag Reg.CG_STAT.LINKUP = true ∧ s.gate.waiting = [] ∧ s.flag Reg.CG_CTL.EN
      = true ∧ State.guestFormed { hdr := hdr, bytes := bs, bad := State.guestOp hdr != 1 } = true ∧ s.guestWindow hdr = some 2 ∧
      s.get (Reg.CG_WCTL.RATE 2) ≠ 0 ∧ AMap.getD s.gate.allowance 2 0 < State.guestLen hdr) :=
  ⟨⟨g0 0 0, h1, [],
      (by decide +kernel), (by decide +kernel), (by decide +kernel)⟩,
   ⟨g0 0 0,
      (by decide +kernel), (by decide +kernel)⟩,
   ⟨g0 0 0,
      (by decide +kernel), (by decide +kernel)⟩,
   ⟨gi, h1, [], { }, w1,
      (by decide +kernel), (by decide +kernel), (by decide +kernel), (by decide +kernel), (by decide +kernel),
      (by decide +kernel), (by decide +kernel), (by decide +kernel), (triple_of (by decide +kernel)), (by decide +kernel)⟩,
   ⟨gi, h2, [1, 2, 3, 4], { }, w2,
      (by decide +kernel), (by decide +kernel), (by decide +kernel), (by decide +kernel), (by decide +kernel),
      (by decide +kernel), (by decide +kernel), (by decide +kernel),
      (by first | decide +kernel | exact pair_of (by decide +kernel)), (by decide +kernel)⟩,
   ⟨gi,
      (by decide +kernel), (by decide +kernel), (by decide +kernel)⟩,
   ⟨gw,
      (by decide +kernel), (by decide +kernel)⟩,
   ⟨g0 1 4, h1, [],
      (by decide +kernel), (by decide +kernel), (by decide +kernel), (by decide +kernel), (by decide +kernel),
      (by decide +kernel), (by decide +kernel)⟩⟩

end CustomsGate

namespace EventController

def mk (l : AMap Src) (mt : Nat) : State := let s := upQ.set Reg.EC_CTL.MAINT mt; { s with ec := { s.ec with src := l, signals := [40], pba := [3], msixOn := true, vectors := 8, msix := [(15, 0), (12, 0x1000), (14, 7)] } }
def s1 := mk [(40, { pend := true, masked := false, target := 68, since := 0 })] 0
def s2 := mk [(40, { active := true, masked := false, target := 4 }), (41, { pend := true, masked := true, target := 4 })] 1
def s3 := mk [(40, { pend := true, masked := false, target := 4, since := 0 })] 0

theorem witness_EventController :
    (∃ (s : State) (n : BitVec 10), reservedSource n.toNat = false ∧ s.power.sleep = Sleep.run) ∧
    (∃ (s : State) (n : BitVec 10), reservedSource n.toNat = false ∧ s.power.sleep = Sleep.run ∧ n.toNat ∈ s.ec.signals) ∧
    (∃ (s : State) (v : Fin 256), s.ec.pba.contains ↑v = true ∧ s.msixReady ↑v = true ∧ s.presenting (65 + ↑v) = true) ∧
    (∃ (s : State) (r : Requester) (t : Fin 321), s.reaches r (4259840 + 4096 * ↑t) = (true, s) ∧ ((s.activeAt ↑t).isSome = true ∨
      s.bestSettled ↑t = none)) ∧
    (∃ (s : State) (r : Requester) (t : Fin 321) (v : W32), s.reaches r (4259848 + 4096 * ↑t) = (true, s) ∧ (s.source
      (v.toNat)).active = false) ∧
    (∃ (s : State) (r : Requester) (v : W32), s.reaches r 4194320 = (true, s) ∧ reservedSource (v.toNat % 1024) = false ∧ 8 < v.toNat
      % 1024 ∧ s.power.sleep = Sleep.run) ∧
    (∃ (s : State) (r : Requester) (v : W32), (Instr.ecMask r v = Instr.ecMask r v ∧ true = true ∧ s.reaches r 4194328 = (true, s) ∨
      Instr.ecMask r v = Instr.ecUnmask r v ∧ true = false ∧ s.reaches r 4194336 = (true, s)) ∧ v.toNat % 1024 ≠ 0) ∧
    (∃ (s : State) (r : Requester) (v : W32), s.reaches r 4194320 = (true, s) ∧ v.toNat % 1024 ≠ 0 ∧ v.toNat % 1024 ≤ 8 ∧ s.flag
      Reg.EC_CTL.MAINT = false) ∧
    (∃ (s : State) (r : Requester) (w : Fin 32) (v : W32) (f : Src → Src), ((Instr.ecPendSet r w v = Instr.ecPendSet r w v ∧ s.reaches
      r (4210688 + 4 * ↑w) = (true, s) ∧ s.power.sleep = Sleep.run ∧ (f = fun x => if x.pend = true then x else
      { x with pend := true, since := s.time.cycle }) ∧ ∀ i < 32, BitVec.getLsbD v i = true → 32 * ↑w + i ≠ 0 → reservedSource (32
      * ↑w + i) = false) ∨ (Instr.ecPendSet r w v = Instr.ecPendClr r w v ∧ s.reaches r (4210816 + 4 * ↑w) = (true, s) ∧ f = fun x
      => x) ∨ (Instr.ecPendSet r w v = Instr.ecMaskSet r w v ∧ s.reaches r (4210944 + 4 * ↑w) = (true, s) ∧ f = fun x => x) ∨
      Instr.ecPendSet r w v = Instr.ecMaskClr r w v ∧ s.reaches r (4211072 + 4 * ↑w) = (true, s) ∧ f = fun x =>
      { x with masked := false }) ∧ s.flag Reg.EC_CTL.MAINT = false) ∧
    (∃ (s : State) (r : Requester) (t : Fin 321) (v : W32), s.reaches r (4259848 + 4096 * ↑t) = (true, s) ∧ (s.source
      (v.toNat)).active = true ∧ (s.source (v.toNat)).target = ↑t ∧ v.toNat ≠ 0) ∧
    (∃ (s : State) (r : Requester) (w : Fin 32) (v : W32) (f : Src → Src), ((Instr.ecPendSet r w v = Instr.ecPendSet r w v ∧ s.reaches
      r (4210688 + 4 * ↑w) = (true, s) ∧ s.power.sleep = Sleep.run ∧ (f = fun x => if x.pend = true then x else
      { x with pend := true, since := s.time.cycle }) ∧ ∀ i < 32, BitVec.getLsbD v i = true → 32 * ↑w + i ≠ 0 → reservedSource (32
      * ↑w + i) = false) ∨ (Instr.ecPendSet r w v = Instr.ecPendClr r w v ∧ s.reaches r (4210816 + 4 * ↑w) = (true, s) ∧ f = fun x
      => x) ∨ (Instr.ecPendSet r w v = Instr.ecMaskSet r w v ∧ s.reaches r (4210944 + 4 * ↑w) = (true, s) ∧ f = fun x => x) ∨
      Instr.ecPendSet r w v = Instr.ecMaskClr r w v ∧ s.reaches r (4211072 + 4 * ↑w) = (true, s) ∧ f = fun x =>
      { x with masked := false }) ∧ s.flag Reg.EC_CTL.MAINT = true) ∧
    (∃ (s : State) (r : Requester) (t : Fin 321), s.reaches r (4259840 + 4096 * ↑t) = (true, s) ∧ s.activeAt ↑t = none ∧ s.bestSettled
      ↑t = some 40) :=
  ⟨⟨s1, 40,
      (by decide +kernel), (by decide +kernel)⟩,
   ⟨s1, 40,
      (by decide +kernel), (by decide +kernel), (by decide +kernel)⟩,
   ⟨s1, 3,
      (by decide +kernel), (by decide +kernel), (by decide +kernel)⟩,
   ⟨s1, Requester.host, 4,
      (by decide +kernel), (by decide +kernel)⟩,
   ⟨s1, Requester.host, 4, 40,
      (by decide +kernel), (by decide +kernel)⟩,
   ⟨s1, Requester.host, 40,
      (by decide +kernel), (by decide +kernel), (by decide +kernel), (by decide +kernel)⟩,
   ⟨s1, Requester.host, 40,
      (by decide +kernel), (by decide +kernel)⟩,
   ⟨s1, Requester.host, 3,
      (by decide +kernel), (by decide +kernel), (by decide +kernel), (by decide +kernel)⟩,
   ⟨s1, Requester.host, 1, 769, fun x => if x.pend = true then x else { x with pend := true, since := 3000000 },
      (.inl ⟨rfl, by decide +kernel, by decide +kernel, rfl, by decide +kernel⟩), (by decide +kernel)⟩,
   ⟨s2, Requester.host, 4, 40,
      (by decide +kernel), (by decide +kernel), (by decide +kernel), (by decide +kernel)⟩,
   ⟨s2, Requester.host, 1, 769, fun x => if x.pend = true then x else { x with pend := true, since := 3000000 },
      (.inl ⟨rfl, by decide +kernel, by decide +kernel, rfl, by decide +kernel⟩), (by decide +kernel)⟩,
   ⟨s3, Requester.host, 4,
      (by decide +kernel), (by decide +kernel), (by decide +kernel)⟩⟩

end EventController

namespace PowerLimits

def p3 := upQ.set Reg.PW_STAT.BROWN 1

theorem witness_PowerLimits :
    (∃ (s : State) (r : Fin 16), ↑r ≠ 14 ∨ s.ident.g = true) ∧
    (∃ (s : State) (r : Fin 16), ↑r = 14 ∧ s.ident.g = false) ∧
    (∃ (s : State) (r : Fin 16), ↑r < State.droopDomains ↑r ∧ ↑r ∉ (s.rail ↑r).stretched) ∧
    (∃ (s : State) (r : Fin 16) (d : Fin 16), State.droopDomains ↑r ≤ ↑d ∨ ↑d ∈ (s.rail ↑r).stretched) ∧
    (∃ (s : State), s.power.sleep = Sleep.run ∧ s.flag Reg.PW_STAT.BROWN = false) ∧
    (∃ (s : State) (n : Fin 256), s.flag Reg.PW_CTL.DOZEEN = true ∧ (s.tile ↑n).idle = true ∧ (s.tile ↑n).idleSince + s.get
      Reg.PW_CTL.DOZEIDLE ≤ s.time.cycle) ∧
    (∃ (s : State), s.power.sleep = Sleep.run ∧ s.flag Reg.PW_STAT.BROWN = true) :=
  ⟨⟨upQ, 2, by decide +kernel⟩,
   ⟨upQ, 14, by decide +kernel⟩,
   ⟨upQ, 2, by decide +kernel⟩,
   ⟨upQ, 2, 14, by decide +kernel⟩,
   ⟨upQ, by decide +kernel⟩,
   ⟨upQ, 7, by decide +kernel⟩,
   ⟨p3, by decide +kernel⟩⟩

end PowerLimits

namespace SleepAndWake

def sw (x : Sleep) : State := let s := upQ; { s with power := { s.power with sleep := x }, sorter := { s.sorter with flights := [], halted := true }, tiles := [(0, { sp := [(4, 5)] })], harts := [(2, { running := true, resv := some 4 })], ec := { s.ec with wake := [41, 40], latches := [3], recorded := [44] } }
def e1 := sw (.entering false 7 100)
def e3 : State := let s := sw (.entering true 1 2); { s with sorter := upQ.sorter }
def e4 := sw .nap
def e5 : State := let s := sw .night; { s with tarle := { s.tarle with slots := AMap.put s.tarle.slots 2 (Config.sm3 (zeroSlot ++ Config.sm3 (Config.bootCode (s.mem.filter fun c => decide (reservedBase ≤ c.1) && decide (c.1 < tier0End))))) } }

theorem witness_SleepAndWake :
    (∃ (s : State), s.power.sleep = Sleep.entering false 7 100 ∧ s.workDrained = true) ∧
    (∃ (s : State) (c : Instr) (cause : OffCause), c = Instr.supplyLoss ∧ s.start.off = none ∧ cause = OffCause.supply ∨ c =
      Instr.mateRelease ∧ (s.start.begun = true ∨ s.start.off ≠ none) ∧ cause = OffCause.mate) ∧
    (∃ (s : State), s.power.sleep = Sleep.entering true 1 2 ∧ 1 + 2 ≤ s.round) ∧
    (∃ (s : State) (rest : List Nat), s.ec.wake = 41 :: rest ∧ s.power.after = none ∧ s.power.sleep = Sleep.nap) ∧
    (∃ (s : State) (rest : List Nat), s.ec.wake = 41 :: rest ∧ s.power.after = none ∧ s.power.sleep = Sleep.night) :=
  ⟨⟨e1, by decide +kernel⟩,
   ⟨e1, Instr.supplyLoss, OffCause.supply, by decide +kernel⟩,
   ⟨e3, by decide +kernel⟩,
   ⟨e4, [40], by decide +kernel⟩,
   ⟨e5, [40], by decide +kernel⟩⟩

end SleepAndWake

namespace MemoryLock

def m1 : State := upQ
def m2 : State := let s := upQ; { s with ident := { s.ident with g := true } }
def m3 : State := m2.set Reg.MEM_CTL.LOCK 1

theorem witness_MemoryLock :
    (∃ (s : State) (r : Requester) (v : W32), s.reaches r 327680 = (true, s) ∧ s.locked = false ∧ BitVec.getLsbD v 0 = true ∧
      (s.ident.g = false ∨ v.toNat / 2 ^ 16 = s.get Reg.MEM_CTL.T1EN)) ∧
    (∃ (s : State) (r : Requester) (v : W32), s.reaches r 327680 = (true, s) ∧ s.locked = true ∧ v.toNat / 2 ^ 16 ≠ s.get
      Reg.MEM_CTL.T1EN ∧ s.get Reg.MEM_CTL.LOCK = 1) :=
  ⟨⟨m1, Requester.host, 1, by decide +kernel⟩,
   ⟨m3, Requester.host, 196609, by decide +kernel⟩⟩

end MemoryLock

namespace InboundRequests

def i1 : State := (((upQ.set (Reg.OB_PSTAT.RATE 1) 3).set (Reg.OB_PCTL.DEFCTX 1) 2).memWrite 0x100004 [7, 8])
def i2 : State := i1.set Reg.MEM_CTL.LOCK 1
def r1 : State := (i1.readBytes 1 2 (i1.bar4Addr 0x100004) 4).2.2

theorem witness_InboundRequests :
    (∃ (s : State) (o : BitVec 28) (len : BitVec 13) (bs : List Byte) (l : State.Loss) (u : State), s.awake Requester.host = s ∧
      s.bar4Up = true ∧ o.toNat + len.toNat ≤ 2 ^ 28 ∧ s.granuleHeld (s.bar4Addr o.toNat) len.toNat = false ∧ s.inboundRefused 2
      (s.bar4Addr o.toNat) len.toNat false = false ∧ s.readBytes 1 2 (s.bar4Addr o.toNat) len.toNat = (List.map some bs, l, u)) ∧
    (∃ (s : State) (o : BitVec 28) (bs : List Byte), s.awake Requester.host = s ∧ s.bar4Up = true ∧ o.toNat + bs.length ≤ 2 ^ 28 ∧
      s.granuleHeld (s.bar4Addr o.toNat) bs.length = false) ∧
    (∃ (s : State) (p : Fin 4) (pasid : Option (BitVec 20)) (a : W64) (len : BitVec 13) (bs : List Byte), s.hubOn = true ∧ s.get
      (Reg.OB_PSTAT.RATE ↑p) ≠ 0 ∧ s.memoryUp = true ∧ s.inboundCtx (↑p) pasid = some 2 ∧ s.coherent (a.toNat) = true ∧
      (s.coherent ((a.toNat + if true = true then bs.length else len.toNat) - 1) = true) ∧ true = true ∧ (s.granuleHeld (a.toNat)
      (if true = true then bs.length else len.toNat) = false) ∧ (s.inboundRefused 2 (a.toNat) (if true = true then bs.length else
      len.toNat) true = false)) ∧
    (∃ (s : State) (p : Fin 4) (pasid : Option (BitVec 20)) (a : W64), s.hubOn = true ∧ s.get (Reg.OB_PSTAT.RATE ↑p) ≠ 0 ∧ s.memoryUp
      = true ∧ s.inboundCtx (↑p) pasid = some 2 ∧ s.coherent (a.toNat) = false) ∧
    (∃ (s : State) (p : Fin 4) (pasid : Option (BitVec 20)) (a : W64) (len : BitVec 13) (bs : List Byte) (l : State.Loss) (u : State),
      s.hubOn = true ∧ s.get (Reg.OB_PSTAT.RATE ↑p) ≠ 0 ∧ s.memoryUp = true ∧ s.inboundCtx (↑p) pasid = some 2 ∧ s.coherent
      (a.toNat) = true ∧ (s.coherent ((a.toNat + if false = true then bs.length else len.toNat) - 1) = true) ∧ false = false ∧
      (s.granuleHeld (a.toNat) (if false = true then bs.length else len.toNat) = false) ∧ (s.inboundRefused 2 (a.toNat) (if false
      = true then bs.length else len.toNat) false = false) ∧ (s.readBytes 1 2 (a.toNat) (if false = true then bs.length else
      len.toNat) = (List.map some bs, l, u))) ∧
    (∃ (s : State) (p : Fin 4) (pasid : Option (BitVec 20)), s.hubOn = true ∧ s.get (Reg.OB_PSTAT.RATE ↑p) ≠ 0 ∧ s.memoryUp = true ∧
      s.inboundCtx (↑p) pasid = none) ∧
    (∃ (s : State) (o : BitVec 28) (len : BitVec 13), s.awake Requester.host = s ∧ s.bar4Up = true ∧ o.toNat + len.toNat ≤ 2 ^ 28 ∧
      s.granuleHeld (s.bar4Addr o.toNat) len.toNat = false ∧ s.inboundRefused 2 (s.bar4Addr o.toNat) len.toNat false = true) ∧
    (∃ (s : State) (p : Fin 4) (pasid : Option (BitVec 20)) (a : W64) (len : BitVec 13) (bs : List Byte), s.hubOn = true ∧ s.get
      (Reg.OB_PSTAT.RATE ↑p) ≠ 0 ∧ s.memoryUp = true ∧ s.inboundCtx (↑p) pasid = some 2 ∧ s.coherent (a.toNat) = true ∧
      (s.coherent ((a.toNat + if false = true then bs.length else len.toNat) - 1) = true) ∧ (s.granuleHeld (a.toNat) (if false =
      true then bs.length else len.toNat) = false) ∧ (s.inboundRefused 2 (a.toNat) (if false = true then bs.length else len.toNat)
      false = true) ∧ false = false) :=
  ⟨⟨i1, 1048580, 4, [7, 8, 0, 0], { }, r1,
      (by decide +kernel), (by decide +kernel), (by decide +kernel), (by decide +kernel), (by decide +kernel),
      (triple_of (by decide +kernel))⟩,
   ⟨i1, 1048580, [7, 8, 0, 0],
      (by decide +kernel), (by decide +kernel), (by decide +kernel), (by decide +kernel)⟩,
   ⟨i1, 1, none, 1048580, 4, [7, 8, 0, 0],
      (by decide +kernel), (by decide +kernel), (by decide +kernel), (by decide +kernel), (by decide +kernel),
      (by decide +kernel), (by decide +kernel), (by decide +kernel), (by decide +kernel)⟩,
   ⟨i1, 1, none, 70368744177664,
      (by decide +kernel), (by decide +kernel), (by decide +kernel), (by decide +kernel), (by decide +kernel)⟩,
   ⟨i1, 1, none, 1048580, 4, [7, 8, 0, 0], { }, r1,
      (by decide +kernel), (by decide +kernel), (by decide +kernel), (by decide +kernel), (by decide +kernel),
      (by decide +kernel), (by decide +kernel), (by decide +kernel), (by decide +kernel), (triple_of (by decide +kernel))⟩,
   ⟨i1, 1, some 5,
      (by decide +kernel), (by decide +kernel), (by decide +kernel), (by decide +kernel)⟩,
   ⟨i2, 1048580, 4,
      (by decide +kernel), (by decide +kernel), (by decide +kernel), (by decide +kernel), (by decide +kernel)⟩,
   ⟨i2, 1, none, 1048580, 4, [7, 8, 0, 0],
      (by decide +kernel), (by decide +kernel), (by decide +kernel), (by decide +kernel), (by decide +kernel),
      (by decide +kernel), (by decide +kernel), (by decide +kernel), (by decide +kernel)⟩⟩

end InboundRequests

namespace HostLinks

def h1 : State := upQ
def h2 : State := let s := upQ.set Reg.HP_STAT.LINKUP 0; { s with start := { s.start with begun := true } }
def h4 : State := { upQ with host := { upQ.host with perst := true } }
def h5 : State := (upQ.set Reg.HP_STAT.DETACHED 1).set Reg.HP_STAT.SESSION 1
def h6 : State := { h5 with host := { upQ.host with attaching := true } }
def h7 : State := let s := upQ.set (Reg.OB_PCTL.EN 1) 1; { s with tarle := { s.tarle with ide := [(5, .keyed), (7, .secure)], portDigest := [(1, Config.sm3 [1, 2])] } }

theorem witness_HostLinks :
    (∃ (s : State), s.power.sleep = Sleep.run ∧ s.flag Reg.HP_STAT.LINKUP = true ∧ s.order.out = []) ∧
    (∃ (s : State), s.power.sleep = Sleep.run ∧ s.host.perst = false ∧ s.start.begun = true) ∧
    (∃ (s : State), s.power.sleep = Sleep.run ∧ s.hubOn = true) ∧
    (∃ (s : State) (r : Requester) (v : W32), s.power.sleep = Sleep.run ∧ s.reaches r 786456 = (true, s) ∧ (BitVec.getLsbD v 0 = false
      ∨ s.flag Reg.HP_STAT.DETACHED = false ∨ s.flag Reg.HP_STAT.SESSION = false)) ∧
    (∃ (s : State) (p : Fin 4) (rate : BitVec 4) (width : BitVec 3), s.power.sleep = Sleep.run ∧ s.hubOn = true ∧ (rate = 0 ∨ width =
      0 ∨ s.perstN ↑p = true ∧ rate.toNat ≤ 7 ∧ width.toNat ≤ 5)) ∧
    (∃ (s : State), s.power.sleep = Sleep.run ∧ s.hubOn = true ∧ s.host.perst = false ∧ s.flag Reg.HP_STAT.LINKUP = false) ∧
    (∃ (s : State), s.power.sleep = Sleep.run ∧ s.host.perst = true) ∧
    (∃ (s : State) (r : Requester) (v : W32), s.power.sleep = Sleep.run ∧ s.reaches r 786456 = (true, s) ∧ BitVec.getLsbD v 0 = true ∧
      s.flag Reg.HP_STAT.DETACHED = true ∧ s.flag Reg.HP_STAT.SESSION = true ∧ s.host.held = []) ∧
    (∃ (s : State), s.power.sleep = Sleep.run ∧ s.host.attaching = true ∧ s.host.held = []) ∧
    (∃ (s : State) (p : Fin 5) (k : Fin 4), s.power.sleep = Sleep.run ∧ AMap.get? s.tarle.ide (↑p * 4 + ↑k) ≠ none) ∧
    (∃ (s : State) (p : Fin 5) (k : Fin 4), s.power.sleep = Sleep.run ∧ s.tarleRuns = true ∧ ↑k < State.ideStreams ↑p) :=
  ⟨⟨h1, by decide +kernel⟩,
   ⟨h1, by decide +kernel⟩,
   ⟨h1, by decide +kernel⟩,
   ⟨h1, Requester.host, 0, by decide +kernel⟩,
   ⟨h1, 1, 0, 0, by decide +kernel⟩,
   ⟨h2, by decide +kernel⟩,
   ⟨h4, by decide +kernel⟩,
   ⟨h5, Requester.host, 1, by decide +kernel⟩,
   ⟨h6, by decide +kernel⟩,
   ⟨h7, 1, 1, by decide +kernel⟩,
   ⟨h7, 1, 1, by decide +kernel⟩⟩

end HostLinks

namespace Letters

def tc (l : Nat) : State := let s := (upQ.set Reg.TC_STAT.BYPASS 0).set Reg.TC_STAT.ADDR 5; { s with host := { s.host with forward := List.replicate l [1] } }
def lb : State := tc 0
def lc : State := tc 4
def ld : State := upQ.set Reg.TC_STAT.BYPASS 1
def ls : State := let s := tc 0; { s with start := { s.start with begun := false, off := some .stop } }
def lm : State := let s := tc 0; { s with start := { s.start with begun := false, off := some .mate } }

theorem witness_Letters :
    (∃ (s : State) (l : List Byte), s.relays = true ∧ letterOk l = false) ∧
    (∃ (s : State), s.tarleRuns = true ∧ s.host.chainIdle + 40000 ≤ s.time.cycle) ∧
    (∃ (s : State) (l : List Byte), s.relays = true ∧ letterOk l = true ∧ letterSrc l = s.get Reg.TC_STAT.ADDR) ∧
    (∃ (s : State) (l : List Byte), s.relays = true ∧ letterOk l = true ∧ letterSrc l ≠ s.get Reg.TC_STAT.ADDR ∧ letterDst l ≠ s.get
      Reg.TC_STAT.ADDR ∧ letterDst l ≠ 255 ∧ letterTtl l = 0) ∧
    (∃ (s : State) (l : List Byte), s.relays = true ∧ letterOk l = true ∧ letterSrc l ≠ s.get Reg.TC_STAT.ADDR ∧ letterDst l ≠ s.get
      Reg.TC_STAT.ADDR ∧ letterDst l ≠ 255 ∧ letterTtl l ≠ 0 ∧ s.host.forward.length < 4) ∧
    (∃ (s : State) (l : List Byte), s.relays = true ∧ letterOk l = true ∧ letterSrc l ≠ s.get Reg.TC_STAT.ADDR ∧ letterDst l = s.get
      Reg.TC_STAT.ADDR ∧ letterType l = 1 ∧ (fileNat (letterPayload l) 0 1 = 1 ∨ fileNat (letterPayload l) 0 1 = 2)) ∧
    (∃ (s : State) (l : List Byte), s.relays = true ∧ letterOk l = true ∧ letterSrc l ≠ s.get Reg.TC_STAT.ADDR ∧ letterDst l = s.get
      Reg.TC_STAT.ADDR ∧ letterType l = 2 ∧ s.start.off ≠ some OffCause.stop ∧ s.start.begun = true ∧ s.power.sleep = Sleep.run) ∧
    (∃ (s : State) (l : List Byte), s.relays = true ∧ letterOk l = true ∧ letterSrc l ≠ s.get Reg.TC_STAT.ADDR ∧ letterDst l = s.get
      Reg.TC_STAT.ADDR ∧ letterType l = 3 ∧ allZero (fileBytes (letterPayload l) 6 2) = true ∧ (¬(fileNat (letterPayload l) 0 1 %
      4 = 1 ∧ s.get Reg.ST_STAT.STATE = 1)) ∧ (¬(fileNat (letterPayload l) 0 1 % 4 = 2 ∧ s.get Reg.ST_STAT.STATE = 3))) ∧
    (∃ (s : State) (l : List Byte), s.relays = true ∧ letterOk l = true ∧ letterSrc l ≠ s.get Reg.TC_STAT.ADDR ∧ letterDst l = s.get
      Reg.TC_STAT.ADDR ∧ (letterType l = 0 ∨ 3 < letterType l)) ∧
    (∃ (s : State) (l : List Byte), s.relays = true ∧ letterOk l = true ∧ letterSrc l ≠ s.get Reg.TC_STAT.ADDR ∧ letterDst l = s.get
      Reg.TC_STAT.ADDR ∧ letterType l = 3 ∧ 8 ≤ (letterPayload l).length ∧ allZero (fileBytes (letterPayload l) 6 2) = false) ∧
    (∃ (s : State) (l : List Byte), s.relays = true ∧ letterOk l = true ∧ letterSrc l ≠ s.get Reg.TC_STAT.ADDR ∧ letterDst l ≠ s.get
      Reg.TC_STAT.ADDR ∧ letterDst l ≠ 255 ∧ letterTtl l ≠ 0 ∧ 4 ≤ s.host.forward.length) ∧
    (∃ (s : State), s.relays = false) ∧
    (∃ (s : State) (l : List Byte), s.relays = true ∧ letterOk l = true ∧ letterSrc l ≠ s.get Reg.TC_STAT.ADDR ∧ letterDst l = s.get
      Reg.TC_STAT.ADDR ∧ letterType l = 2 ∧ s.start.off = some OffCause.stop) ∧
    (∃ (s : State), s.tarleRuns = false) :=
  ⟨⟨lb, [1, 2, 3], by decide +kernel⟩,
   ⟨lb, by decide +kernel⟩,
   ⟨lb, mkLetter 7 5 3 1 2 [1], by decide +kernel⟩,
   ⟨lb, mkLetter 7 6 0 1 2 [1], by decide +kernel⟩,
   ⟨lb, mkLetter 7 6 3 1 2 [1], by decide +kernel⟩,
   ⟨lb, mkLetter 5 6 3 1 2 [1, 4], by decide +kernel⟩,
   ⟨lb, mkLetter 5 6 3 2 2 [1, 4], by decide +kernel⟩,
   ⟨lb, mkLetter 5 6 3 3 2 [0, 4], by decide +kernel⟩,
   ⟨lb, mkLetter 5 6 3 4 2 [1, 4], by decide +kernel⟩,
   ⟨lb, mkLetter 5 6 3 3 2 [0, 0, 0, 0, 0, 0, 1, 0], by decide +kernel⟩,
   ⟨lc, mkLetter 7 6 3 1 2 [1], by decide +kernel⟩,
   ⟨ld, by decide +kernel⟩,
   ⟨ls, mkLetter 5 6 3 2 2 [1, 4], by decide +kernel⟩,
   ⟨lm, by decide +kernel⟩⟩

end Letters

namespace TarleRequests

def mb (n op : Nat) (x : List Byte) : State :=
  let p : List Byte := [BitVec.ofNat 8 op, 0] ++ leBytes 2 x.length ++ [1, 2, 3, 4] ++ x
  let m : Mailbox := { req := p.zipIdx.map fun b => (b.2, b.1) }
  let s := upQ.set (if n = 1 then Reg.TRL_STAT.MB1BUSY else Reg.TRL_STAT.MB2BUSY) 1
  { s with tarle := { s.tarle with mailboxes := if n = 1 then [m, {}] else [{}, m], d := [5, 6] } }
def lt (op : Nat) (x : List Byte) : State :=
  let p : List Byte := [BitVec.ofNat 8 op, 0] ++ leBytes 2 x.length ++ [1, 2, 3, 4] ++ x
  { upQ with tarle := { upQ.tarle with letters := [mkLetter 1 3 4 1 5 p] } }
def x2 : List Byte := leBytes 2 7 ++ List.replicate 32 3
def x3 : List Byte := [8] ++ List.replicate 32 3
def x3b : List Byte := [1] ++ List.replicate 32 3
def x4 : List Byte := leBytes 4 (1200 + 10 * 2 ^ 24)
def x4b : List Byte := leBytes 4 (100 + 10 * 2 ^ 24)
def x5 : List Byte := [1, 5]
def x6 : List Byte := [1, 0]
def x7 : List Byte := leBytes 2 1 ++ [0, 0] ++ List.replicate 32 4 ++ List.replicate 64 5 ++ List.replicate 161 6 ++ List.replicate 3 0 ++ List.replicate 64 6
def x7b : List Byte := leBytes 2 1 ++ [0, 1] ++ List.replicate 32 4 ++ List.replicate 64 5 ++ List.replicate 228 6
def x8 : List Byte := List.replicate 64 5
def x10 (sg : Byte) : List Byte := fitBytes 4 [1, 0, 7, 0] ++ upQ.serialBytes ++ leBytes 6 100 ++ List.replicate 6 0 ++ List.replicate 32 4 ++ List.replicate 64 sg
def x10b : List Byte := fitBytes 4 [1, 0, 0xFF, 0] ++ upQ.serialBytes ++ leBytes 6 100 ++ List.replicate 6 0 ++ List.replicate 96 4
def x13 : List Byte := [2] ++ List.replicate 32 8
def m7 (v : Nat) : State := let s := mb 2 7 x7; let s := { s with tarle := { s.tarle with sealNonce := [(1, List.replicate 32 (BitVec.ofNat 8 v))] } }; s.onCtx 1 fun x => { x with sealing := .unsealed }
def m10 (sg : Byte) : State := let s := mb 1 10 (x10 sg); { s with tarle := { s.tarle with dbgKey := some [1], dbgNonce := [(1, List.replicate 32 4)], sessions := [(0, { ctx := 5, ops := 1, expiry := 500 })] } }
def m12 : State := let s := mb 1 12 [3]; { s with tarle := { s.tarle with sessions := [(3, { ctx := 5, ops := 1, expiry := 500 })] } }

theorem witness_TarleRequests :
    (∃ (s : State) (src : TarleSource) (x : List Byte), s.Asks src 1 x ∧ x.length = 0) ∧
    (∃ (s : State) (x : List Byte), (1 = 1 ∨ 1 = 2) ∧ s.tarle.mailboxes.length = 2 ∧ x.length < 4088 ∧ 0 < 256 ∧ s.power.sleep =
      Sleep.run) ∧
    (∃ (s : State) (x : List Byte), (1 = 1 ∨ 1 = 2) ∧ s.tarle.mailboxes.length = 2 ∧ x.length < 4088 ∧ 0 < 256 ∧ s.power.sleep =
      Sleep.run ∧ 4 ≤ 4 ∧ 4 < 8) ∧
    (∃ (s : State) (x : List Byte), (1 = 1 ∨ 1 = 2) ∧ s.tarle.mailboxes.length = 2 ∧ x.length < 4088 ∧ 0 < 256 ∧ s.power.sleep =
      Sleep.run ∧ 0 < x.length) ∧
    (∃ (s : State) (src : TarleSource) (x : List Byte), s.Asks src 2 x ∧ x.length = 34 ∧ s.tarle.d ≠ []) ∧
    (∃ (s : State) (src : TarleSource) (x : List Byte), src ≠ TarleSource.letter ∧ s.Asks src 3 x ∧ x.length = 33 ∧ fileNat x 0 1 / 4
      = boxOf src + 1) ∧
    (∃ (s : State) (src : TarleSource) (x : List Byte), src ≠ TarleSource.letter ∧ s.Asks src 3 x ∧ x.length = 33 ∧ fileNat x 0 1 / 4
      ≠ boxOf src + 1) ∧
    (∃ (s : State) (src : TarleSource) (x : List Byte), src ≠ TarleSource.letter ∧ s.Asks src 4 x ∧ x.length = 4 ∧ (1000 ≤ fileNat x 0
      4 % 2 ^ 13 ∧ fileNat x 0 4 % 2 ^ 13 ≤ 4800 ∧ 1 ≤ fileNat x 0 4 / 2 ^ 24 ∧ fileNat x 0 4 / 2 ^ 24 ≤ 250)) ∧
    (∃ (s : State) (src : TarleSource) (x : List Byte), src ≠ TarleSource.letter ∧ s.Asks src 4 x ∧ x.length = 4 ∧ (¬(1000 ≤ fileNat x
      0 4 % 2 ^ 13 ∧ fileNat x 0 4 % 2 ^ 13 ≤ 4800 ∧ 1 ≤ fileNat x 0 4 / 2 ^ 24 ∧ fileNat x 0 4 / 2 ^ 24 ≤ 250))) ∧
    (∃ (s : State) (src : TarleSource) (x : List Byte), src ≠ TarleSource.letter ∧ s.Asks src 5 x ∧ x.length = 2 ∧ (fileNat x 0 1 = 1
      ∨ fileNat x 0 1 = 2) ∧ fileNat x 1 1 ≠ 0 ∧ s.power.sleep = Sleep.run ∧ s.get Reg.ST_STAT.STATE = 5) ∧
    (∃ (s : State) (x : List Byte), s.Asks TarleSource.mailbox2 6 x ∧ x.length = 2) ∧
    (∃ (s : State) (x : List Byte), s.Asks TarleSource.mailbox2 7 x ∧ x.length = 328 ∧ (allZero (fileBytes x 2 2) = true ∧ allZero
      (fileBytes x 261 3) = true) ∧ s.ctxOpen (fileNat x 0 2) = true ∧ (s.ctxOf (fileNat x 0 2)).sealing = Seal.unsealed ∧
      AMap.get? s.tarle.sealNonce (fileNat x 0 2) = some (fileBytes x 4 32)) ∧
    (∃ (s : State) (x : List Byte), s.Asks TarleSource.mailbox2 7 x ∧ x.length = 328 ∧ (allZero (fileBytes x 2 2) = true ∧ allZero
      (fileBytes x 261 3) = true) ∧ AMap.get? s.tarle.sealNonce (fileNat x 0 2) ≠ some (fileBytes x 4 32)) ∧
    (∃ (s : State) (x : List Byte), s.Asks TarleSource.mailbox2 8 x ∧ x.length = 64 ∧ s.locked = false) ∧
    (∃ (s : State) (x : List Byte), s.Asks TarleSource.mailbox2 8 x ∧ x.length = 64 ∧ s.locked = true) ∧
    (∃ (s : State) (src : TarleSource) (x : List Byte), src ≠ TarleSource.letter ∧ s.Asks src 9 x ∧ x.length = 2) ∧
    (∃ (s : State) (src : TarleSource) (x : List Byte), src ≠ TarleSource.letter ∧ s.Asks src 10 x ∧ x.length = 128 ∧ (fileNat x 2 1 <
      8 ∧ fileNat x 3 1 = 0 ∧ allZero (fileBytes x 26 6) = true) ∧ 1 < 8 ∧ AMap.get? s.tarle.sessions 1 = none ∧ (∀ k < 1,
      AMap.get? s.tarle.sessions k ≠ none)) ∧
    (∃ (s : State) (src : TarleSource) (x : List Byte), src ≠ TarleSource.letter ∧ s.Asks src 10 x ∧ x.length = 128 ∧ (fileNat x 2 1 <
      8 ∧ fileNat x 3 1 = 0 ∧ allZero (fileBytes x 26 6) = true)) ∧
    (∃ (s : State) (src : TarleSource) (x : List Byte), src ≠ TarleSource.letter ∧ s.Asks src 12 x ∧ x.length = 1 ∧ (AMap.get?
      s.tarle.sessions (fileNat x 0 1)).isSome = true) ∧
    (∃ (s : State) (x : List Byte), s.Asks TarleSource.mailbox2 13 x ∧ x.length = 33 ∧ s.locked = false ∧ fileNat x 0 1 < 4) ∧
    (∃ (s : State) (x : List Byte), s.Asks TarleSource.mailbox2 7 x ∧ x.length = 328 ∧ (¬(allZero (fileBytes x 2 2) = true ∧ allZero
      (fileBytes x 261 3) = true))) ∧
    (∃ (s : State) (src : TarleSource) (x : List Byte), src ≠ TarleSource.letter ∧ s.Asks src 10 x ∧ x.length = 128 ∧ (¬(fileNat x 2 1
      < 8 ∧ fileNat x 3 1 = 0 ∧ allZero (fileBytes x 26 6) = true))) ∧
    (∃ (s : State) (src : TarleSource) (x : List Byte), s.Asks src (Instr.setcap src, 4, 4).2.1 x ∧ src = TarleSource.letter) ∧
    (∃ (s : State) (src : TarleSource) (x : List Byte), s.Asks src (Instr.setcap src, 4, 4).2.1 x ∧ src ≠ TarleSource.letter ∧
      x.length ≠ (Instr.setcap src, 4, 4).2.2) :=
  ⟨⟨mb 1 1 [], TarleSource.mailbox1, [],
      asks_of (by decide +kernel), by decide +kernel⟩,
   ⟨mb 1 1 [], [], by decide +kernel⟩,
   ⟨mb 1 1 [], [], by decide +kernel⟩,
   ⟨mb 1 1 [], x2, by decide +kernel⟩,
   ⟨mb 1 2 x2, TarleSource.mailbox1, x2,
      asks_of (by decide +kernel), by decide +kernel⟩,
   ⟨mb 1 3 x3, TarleSource.mailbox1, x3,
      by decide +kernel, asks_of (by decide +kernel), by decide +kernel⟩,
   ⟨mb 1 3 x3b, TarleSource.mailbox1, x3b,
      by decide +kernel, asks_of (by decide +kernel), by decide +kernel⟩,
   ⟨mb 1 4 x4, TarleSource.mailbox1, x4,
      by decide +kernel, asks_of (by decide +kernel), by decide +kernel⟩,
   ⟨mb 1 4 x4b, TarleSource.mailbox1, x4b,
      by decide +kernel, asks_of (by decide +kernel), by decide +kernel⟩,
   ⟨mb 1 5 x5, TarleSource.mailbox1, x5,
      by decide +kernel, asks_of (by decide +kernel), by decide +kernel⟩,
   ⟨mb 2 6 x6, x6,
      asks_of (by decide +kernel), by decide +kernel⟩,
   ⟨m7 4, x7,
      asks_of (by decide +kernel), by decide +kernel⟩,
   ⟨m7 9, x7,
      asks_of (by decide +kernel), by decide +kernel⟩,
   ⟨mb 2 8 x8, x8,
      asks_of (by decide +kernel), by decide +kernel⟩,
   ⟨(mb 2 8 x8).set Reg.MEM_CTL.LOCK 1, x8,
      asks_of (by decide +kernel), by decide +kernel⟩,
   ⟨mb 1 9 x6, TarleSource.mailbox1, x6,
      by decide +kernel, asks_of (by decide +kernel), by decide +kernel⟩,
   ⟨m10 1, TarleSource.mailbox1, x10 1,
      by decide +kernel, asks_of (by decide +kernel), by decide +kernel⟩,
   ⟨m10 238, TarleSource.mailbox1, x10 238,
      by decide +kernel, asks_of (by decide +kernel), by decide +kernel⟩,
   ⟨m12, TarleSource.mailbox1, [3],
      by decide +kernel, asks_of (by decide +kernel), by decide +kernel⟩,
   ⟨mb 2 13 x13, x13,
      asks_of (by decide +kernel), by decide +kernel⟩,
   ⟨mb 2 7 x7b, x7b,
      asks_of (by decide +kernel), by decide +kernel⟩,
   ⟨mb 1 10 x10b, TarleSource.mailbox1, x10b,
      by decide +kernel, asks_of (by decide +kernel), by decide +kernel⟩,
   ⟨lt 4 x4, TarleSource.letter, x4,
      asks_of (by decide +kernel), by decide +kernel⟩,
   ⟨mb 1 4 [1, 2], TarleSource.mailbox1, [1, 2],
      asks_of (by decide +kernel), by decide +kernel⟩⟩

end TarleRequests

namespace DebugOperations

def ln (i : Nat) : Lane := { x := [(1, BitVec.ofNat 64 (3 * i + 1)), (2, BitVec.ofNat 64 (i % 5)), (3, 0xFFFFFFFF), (4, if i < 20 then 0xFFF00000 else 1)], pc := if i < 20 then 0x4000 else 0x4010, exited := decide (i = 3), gen := BitVec.ofNat 64 i }
def dK : BitVec 512 := mkDesc 0x11 0 1 10 0 1 [(0, 0x4000), (8, 7), (16, 3), (20, 1), (21, 1)]
def gx : Group := { block := 1, g := 0, lanes := (List.range 32).map ln }
def gk : Kernel := { body := BitVec.ofNat 384 (body dK 0 48), index := 0, next := 2, stop := 3, blocks := [{ num := 1 }], groups := [gx] }
def gTile : Tile := { slots := [(0, 1)], active := true, kernel := some gk }
def gUp : State := withTile (withFlight upQ (runningFl dK)) gTile
def hgk : Kernel := { gk with groups := [{ gx with halted := true, haltSet := 0xFFFFF }] }
def hgx : Group := { gx with halted := true, haltSet := 0xFFFFF }
def db (ops : Nat) (k : Kernel) (x : List Byte) : State :=
  let p : List Byte := [11, 0] ++ leBytes 2 x.length ++ [1, 2, 3, 4] ++ x
  let m : Mailbox := { req := p.zipIdx.map fun b => (b.2, b.1) }
  let s := (onT gUp fun t => { t with kernel := some k }).set Reg.TRL_STAT.MB1BUSY 1
  { s with tarle := { s.tarle with mailboxes := [m, {}], sessions := [(2, { ctx := 1, ops := ops, expiry := 500 })] } }
def xo (h op reg : Nat) : List Byte := [BitVec.ofNat 8 h, BitVec.ofNat 8 op, 0, 0] ++ leBytes 4 1 ++ [4, BitVec.ofNat 8 reg] ++ leBytes 8 0x1234
def ex : State := let s := db 3 gk (xo 2 1 5); s.set Reg.RND_NUM.NUM 600

theorem witness_DebugOperations :
    (∃ (s : State) (src : TarleSource) (x : List Byte) (k : Kernel) (y : Machine.Group), src ≠ TarleSource.letter ∧ s.Asks src 11 x ∧
      18 ≤ x.length ∧ s.Debugs x 0 0 1 0 k y ∧ y.halted = false) ∧
    (∃ (s : State) (src : TarleSource) (x : List Byte) (k : Kernel) (y : Machine.Group), src ≠ TarleSource.letter ∧ s.Asks src 11 x ∧
      18 ≤ x.length ∧ s.Debugs x 0 0 1 0 k y ∧ fileNat x 8 1 < 32) ∧
    (∃ (s : State) (src : TarleSource) (x : List Byte) (k : Kernel) (y : Machine.Group), src ≠ TarleSource.letter ∧ s.Asks src 11 x ∧
      18 ≤ x.length ∧ s.Debugs x 1 0 1 0 k y ∧ fileNat x 8 1 < 32 ∧ fileNat x 9 1 ≤ 32) ∧
    (∃ (s : State) (src : TarleSource) (h : Fin 8) (d : DebugSession), src ≠ TarleSource.letter ∧ AMap.get? s.tarle.sessions ↑h = some
      d ∧ (d.expiry + 2 ^ 48 - s.round) % 2 ^ 48 < 2 ^ 47) ∧
    (∃ (s : State) (src : TarleSource) (h : Fin 8) (d : DebugSession), src ≠ TarleSource.letter ∧ AMap.get? s.tarle.sessions ↑h = some
      d ∧ d.halted = [] ∧ s.power.sleep = Sleep.run) ∧
    (∃ (s : State) (src : TarleSource) (x : List Byte) (k : Kernel) (y : Machine.Group), src ≠ TarleSource.letter ∧ s.Asks src 11 x ∧
      18 ≤ x.length ∧ s.Debugs x 0 0 1 0 k y ∧ y.halted = true) ∧
    (∃ (s : State) (src : TarleSource) (x : List Byte) (k : Kernel) (y : Machine.Group), src ≠ TarleSource.letter ∧ s.Asks src 11 x ∧
      18 ≤ x.length ∧ s.Debugs x 0 0 1 0 k y ∧ y.halted = true ∧ issuing y ≠ []) ∧
    (∃ (s : State) (src : TarleSource) (x : List Byte), src ≠ TarleSource.letter ∧ s.Asks src 11 x ∧ 18 ≤ x.length ∧ AMap.get?
      s.tarle.sessions (fileNat x 0 1) = none) ∧
    (∃ (s : State) (src : TarleSource) (x : List Byte) (d : DebugSession), src ≠ TarleSource.letter ∧ s.Asks src 11 x ∧ 18 ≤ x.length
      ∧ AMap.get? s.tarle.sessions (fileNat x 0 1) = some d ∧ d.ops.testBit 0 = false ∧ d.ops.testBit 1 = false) ∧
    (∃ (s : State) (src : TarleSource) (h : Fin 8) (d : DebugSession), src ≠ TarleSource.letter ∧ AMap.get? s.tarle.sessions ↑h = some
      d ∧ 2 ^ 47 ≤ (d.expiry + 2 ^ 48 - s.round) % 2 ^ 48) :=
  ⟨⟨db 3 gk (xo 2 1 5), TarleSource.mailbox1, xo 2 1 5, gk, gx,
      by decide +kernel, asks_of (by decide +kernel), by decide +kernel, debugs_of (by decide +kernel) (by decide +kernel),
      by decide +kernel⟩,
   ⟨db 3 gk (xo 2 1 5), TarleSource.mailbox1, xo 2 1 5, gk, gx,
      by decide +kernel, asks_of (by decide +kernel), by decide +kernel, debugs_of (by decide +kernel) (by decide +kernel),
      by decide +kernel⟩,
   ⟨db 3 gk (xo 2 1 5), TarleSource.mailbox1, xo 2 1 5, gk, gx,
      by decide +kernel, asks_of (by decide +kernel), by decide +kernel, debugs_of (by decide +kernel) (by decide +kernel),
      by decide +kernel⟩,
   ⟨db 3 gk (xo 2 1 5), TarleSource.mailbox1, 2, { ctx := 1, ops := 3, expiry := 500 }, by decide +kernel⟩,
   ⟨db 3 gk (xo 2 1 5), TarleSource.mailbox1, 2, { ctx := 1, ops := 3, expiry := 500 }, by decide +kernel⟩,
   ⟨db 3 hgk (xo 2 1 5), TarleSource.mailbox1, xo 2 1 5, hgk, hgx,
      by decide +kernel, asks_of (by decide +kernel), by decide +kernel, debugs_of (by decide +kernel) (by decide +kernel),
      by decide +kernel⟩,
   ⟨db 3 hgk (xo 2 1 5), TarleSource.mailbox1, xo 2 1 5, hgk, hgx,
      by decide +kernel, asks_of (by decide +kernel), by decide +kernel, debugs_of (by decide +kernel) (by decide +kernel),
      by decide +kernel⟩,
   ⟨db 3 gk (xo 4 1 5), TarleSource.mailbox1, xo 4 1 5,
      by decide +kernel, asks_of (by decide +kernel), by decide +kernel⟩,
   ⟨db 4 gk (xo 2 1 5), TarleSource.mailbox1, xo 2 1 5, { ctx := 1, ops := 4, expiry := 500 },
      by decide +kernel, asks_of (by decide +kernel), by decide +kernel⟩,
   ⟨ex, TarleSource.mailbox1, 2, { ctx := 1, ops := 3, expiry := 500 }, by decide +kernel⟩⟩

end DebugOperations

end Sys2Proof.Machine.Tests
end

