-- ==== Sys2Proof/Tests/Witness5.lean ====
section
/-! SUPPORT. Witnesses: for each statement with premises, a state and operands that meet them together, for every clause. A premise on an
opaque predicate of Config (a signature, a digest of SPDM, the boot code) is left out: it can be neither proved nor refuted. -/

set_option Elab.async false
set_option linter.all false
set_option maxRecDepth 20000
set_option exponentiation.threshold 1100
set_option synthInstance.maxSize 2000
set_option synthInstance.maxHeartbeats 400000

namespace Sys2Proof.Machine.Tests

open Sys2Proof Sys2Proof.Machine

namespace SpdmAndTamper

def sp (m : AMap Bool) : State := { upQ with tarle := { upQ.tarle with spdm := m, d := [3], cert := [4], vkey := [5] } }
def st : State := { upQ with tarle := { upQ.tarle with resetting := true } }

theorem witness_SpdmAndTamper :
    (∃ (s : State), s.doeUp = true) ∧
    (∃ (s : State), s.doeUp = true ∧ 0 < 4 ∧ AMap.get? s.tarle.spdm 0 = none ∧ (∀ k < 0, AMap.get? s.tarle.spdm k ≠ none)) ∧
    (∃ (s : State) (n : Fin 4), s.doeUp = true ∧ AMap.getD s.tarle.spdm (↑n) false = false) ∧
    (∃ (s : State), s.tarleRuns = true ∧ s.power.sleep = Sleep.run ∧ s.get Reg.ST_STAT.STATE = 5) ∧
    (∃ (s : State), s.start.begun = true ∧ s.power.sleep = Sleep.run ∧ s.tarle.sessions = []) ∧
    (∃ (s : State) (n : Fin 4), s.doeUp = true ∧ AMap.get? s.tarle.spdm ↑n = some false) ∧
    (∃ (s : State), s.doeUp = true ∧ (∀ k < 4, AMap.get? s.tarle.spdm k ≠ none)) ∧
    (∃ (s : State) (n : Fin 4), s.doeUp = true ∧ AMap.getD s.tarle.spdm (↑n) false = true) ∧
    (∃ (s : State), s.tarle.resetting = true ∧ s.power.sleep = Sleep.run) :=
  ⟨⟨sp [], by decide +kernel⟩,
   ⟨sp [], by decide +kernel⟩,
   ⟨sp [], 0, by decide +kernel⟩,
   ⟨sp [], by decide +kernel⟩,
   ⟨sp [], by decide +kernel⟩,
   ⟨sp [(0, false)], 0, by decide +kernel⟩,
   ⟨sp [(0, true), (1, true), (2, false), (3, false)], by decide +kernel⟩,
   ⟨sp [(0, true), (1, true), (2, false), (3, false)], 0, by decide +kernel⟩,
   ⟨st, by decide +kernel⟩⟩

end SpdmAndTamper

namespace StartsAndStops

def fe (k st : Nat) (f : List Byte) : State := let s := ((upQ.set Reg.ST_STAT.STATE st).set Reg.ST_SRC.ADDR 3).set Reg.ST_LEN.LEN f.length
  let s : State := { s with hostMem := f.zipIdx.filterMap fun b => if b.1 = 0 then none else some (3 * 4096 + b.2, b.1) }
  { s with start := { s.start with fetch := some k } }
def ma : State := { State.reset with start := { begun := false, mated := true } }
def ts (k : Nat) : State := let s := upQ.set Reg.ST_STAT.STATE 2; { s with start := { s.start with kind := k } }
def stp (k : Nat) : State := let s := { upQ with sorter := { upQ.sorter with flights := [] } }; { s with start := { s.start with stop := some (k, 3) } }

theorem witness_StartsAndStops1 :
    (∃ (s : State) (r : Requester) (v : W32), s.reaches r 983072 = (true, s) ∧ (¬(v.toNat % 4 = 1 ∧ s.get Reg.ST_STAT.STATE = 1 ∨
      v.toNat % 4 = 2 ∧ s.get Reg.ST_STAT.STATE = 3))) ∧
    (∃ (s : State) (r : Requester) (v : W32), s.reaches r 983048 = (true, s) ∧ s.reqCtx r = 2 ∧ s.get Reg.ST_STAT.STATE = 5 ∧
      s.power.sleep = Sleep.run ∧ s.power.asker = none ∧ v.toNat % 8 = 1) ∧
    (∃ (s : State) (r : Requester) (v : W32), s.reaches r 983048 = (true, s) ∧ s.reqCtx r = 2 ∧ s.get Reg.ST_STAT.STATE = 5 ∧
      s.power.sleep = Sleep.run ∧ s.power.asker = none ∧ v.toNat % 8 = 2) :=
  ⟨⟨upQ, Requester.host, 1, by decide +kernel⟩,
   ⟨upQ, Requester.host, 1, by decide +kernel⟩,
   ⟨upQ, Requester.host, 2, by decide +kernel⟩⟩
theorem witness_StartsAndStops2 :
    (∃ (s : State) (r : Requester) (v : W32), s.reaches r 983048 = (true, s) ∧ s.reqCtx r = 2 ∧ s.get Reg.ST_STAT.STATE = 5 ∧
      s.power.sleep = Sleep.run ∧ s.power.asker = none ∧ (v.toNat % 8 = 0 ∨ 5 < v.toNat % 8 ∨ 4 ≤ v.toNat % 8 ∧ v.toNat / 2 ^ 8 %
      2 ^ 8 = 0)) ∧
    (∃ (s : State) (r : Requester) (v : W32), s.reaches r 983048 = (true, s) ∧ s.reqCtx r = 2 ∧ s.get Reg.ST_STAT.STATE = 5 ∧
      s.power.sleep = Sleep.run ∧ s.power.asker = none ∧ v.toNat % 8 = 3) ∧
    (∃ (s : State) (r : Requester) (v : W32), s.reaches r 983048 = (true, s) ∧ s.reqCtx r = 2 ∧ s.get Reg.ST_STAT.STATE = 5 ∧
      s.power.sleep = Sleep.run ∧ s.power.asker = none ∧ (v.toNat % 8 = 4 ∨ v.toNat % 8 = 5) ∧ v.toNat / 2 ^ 8 % 2 ^ 8 ≠ 0) :=
  ⟨⟨upQ, Requester.host, 0, by decide +kernel⟩,
   ⟨upQ, Requester.host, 3, by decide +kernel⟩,
   ⟨upQ, Requester.host, 1284, by decide +kernel⟩⟩
theorem witness_StartsAndStops3 :
    (∃ (s : State), s.start.mated = true ∧ s.start.begun = false ∧ s.ident.testEn = false) ∧
    (∃ (s : State) (r : Requester) (v : W32), s.reaches r 983072 = (true, s) ∧ (v.toNat % 4 = 1 ∧ s.get Reg.ST_STAT.STATE = 1 ∨
      v.toNat % 4 = 2 ∧ s.get Reg.ST_STAT.STATE = 3)) ∧
    (∃ (s : State) (f : List Byte), s.fetchFile = some f ∧ s.start.fetch = some 1 ∧ s.get Reg.ST_STAT.STATE = 1) :=
  ⟨⟨ma, by decide +kernel⟩,
   ⟨fe 1 1 [1], Requester.host, 1, by decide +kernel⟩,
   ⟨fe 1 1 [1], [1], by decide +kernel⟩⟩
theorem witness_StartsAndStops4 :
    (∃ (s : State) (f : List Byte), s.fetchFile = some f ∧ s.start.fetch = some 2 ∧ s.get Reg.ST_STAT.STATE = 3) ∧
    (∃ (s : State) (temps : List ℤ), s.get Reg.ST_STAT.STATE = 2 ∧ (∀ x ∈ temps, x ≤ 95)) ∧
    (∃ (s : State) (x : ℤ), s.get Reg.ST_STAT.STATE = 2 ∧ 95 < x) :=
  ⟨⟨fe 2 3 [1], [1], by decide +kernel⟩,
   ⟨ts 1, [50, 60], by decide +kernel⟩,
   ⟨ts 1, 96, by decide +kernel⟩⟩
theorem witness_StartsAndStops5 :
    ∃ (s : State) (c : Instr), s.start.stop = some (4, 3) ∧ (c = Instr.stopDrainEnd ∧ s.workDrained = true ∧ false = false ∨ c =
      Instr.stopLimitExpiry ∧ (s.round + 2 ^ 48 - 3) % 2 ^ 48 < 2 ^ 47 ∧ false = true) :=
  ⟨stp 4, Instr.stopDrainEnd, by decide +kernel⟩

end StartsAndStops

namespace RegisterAccess

def sh : State := { upQ with shadows := [(33, 64, 99), (0, 64, 98)] }
def hu : State := { upQ with harts := [(2, { running := true, mflsctx := 5 })] }
def rw0 : RegRow := regRows.getD (regRows.findIdx fun r => r.reg == .GBL_SCRATCH) ⟨.GBL_SCRATCH, 0, 0, 0, 0, []⟩

theorem witness_RegisterAccess :
    (∃ (s : State) (r : Requester) (off : BitVec 25) (row : RegRow), s.reaches r off.toNat = (true, s) ∧ off.toNat % 8 = 0 ∧ findReg
      off.toNat = some (row, 0, 0) ∧ findReg (off.toNat + 4) = some (row, 0, 0 + 4) ∧ row.bytes = 8 ∧ row.reg ≠ Reg.EC_CLAIM ∧ 0 =
      0 ∧ s.answers (off.toNat + 4) = true ∧ shadowKey r = some 33) ∧
    (∃ (s : State) (r : Requester) (off : BitVec 25) (n : Fin 4), off.toNat = 64 + 8 * ↑n ∧ s.reaches r off.toNat = (true, s)) ∧
    (∃ (s : State) (r : Requester) (off : BitVec 25) (v : W64), off.toNat = 2097152 ∧ s.reaches r off.toNat = (true, s) ∧ s.locked =
      false ∧ (v.toNat % 2 ^ 16 = 1 ∨ v.toNat % 2 ^ 16 = 2)) ∧
    (∃ (s : State) (r : Requester) (off : BitVec 25) (row : RegRow), s.reaches r off.toNat = (true, s) ∧ off.toNat % 8 = 4 ∧ findReg
      off.toNat = some (row, 0, 4) ∧ row.bytes = 8 ∧ row.reg ≠ Reg.EC_CLAIM ∧ 4 = 4 ∧ shadowKey r = some 33 ∧ AMap.get? s.shadows
      33 = some (off.toNat - 4, 99)) ∧
    (∃ (s : State) (r : Requester) (off : BitVec 25), s.awake r = s ∧ s.present r = true ∧ 2 < s.reqCtx r ∧ off.toNat % 4 = 0 ∧
      s.identity off.toNat = false) ∧
    (∃ (s : State) (r : Requester) (off : BitVec 25), s.awake r = s ∧ s.present r = true ∧ (0 ≠ 4 ∧ 0 ≠ 8 ∨ off.toNat % 0 ≠ 0) ∧ r =
      Requester.hart 2) ∧
    (∃ (s : State) (r : Requester) (off : BitVec 25), off.toNat = 2097152 ∧ s.reaches r off.toNat = (true, s) ∧ s.locked = true) :=
  ⟨⟨upQ, Requester.host, 64, rw0, by decide +kernel⟩,
   ⟨upQ, Requester.host, 64, 0, by decide +kernel⟩,
   ⟨upQ, Requester.host, 2097152, 2, by decide +kernel⟩,
   ⟨sh, Requester.host, 68, rw0, by decide +kernel⟩,
   ⟨hu, Requester.hart 2, 64, by decide +kernel⟩,
   ⟨hu, Requester.hart 2, 64, by decide +kernel⟩,
   ⟨upQ.set Reg.MEM_CTL.LOCK 1, Requester.host, 2097152, by decide +kernel⟩⟩

end RegisterAccess

end Sys2Proof.Machine.Tests
end

/-! # Rounds, ledgers and node time (chapter 2)

Proofs of the statements on writes of NT_STEP, on the collection tick and on the ledgers at a tick. Two relations carry the frame of a
tick: `TimeKept` for what every part of it leaves, and `LedgersKept` for the parts that leave the tile sets as well. -/

namespace Sys2Proof.Machine

/-- A map reads through a change of its values that keeps the default. -/
theorem AMap.getD_map {α : Type} (m : AMap α) (g : α → α) (k : Nat) {d : α} (hd : g d = d) :
    AMap.getD (m.map fun p => (p.1, g p.2)) k d = g (AMap.getD m k d) := by
  induction m with
  | nil => exact hd.symm
  | cons p rest ih =>
    rw [List.map_cons, AMap.getD, AMap.getD, ih]
    exact (apply_ite g _ _ _).symm

namespace State

/-! ## Field writes -/

/-- A write of a field leaves every other field. -/
theorem fieldsBut_set (s : State) (f : Fld) (v : Nat) : s.FieldsBut (s.set f v) [f] :=
  fun _ hg => get_set_ne s v fun h => hg (by simp [h])

/-- A counter of 48 bits after it is raised (R592). -/
theorem get_bump_self (s : State) {f : Fld} (hf : f.len = 48) (n : Nat) :
    (s.bump f n).get f = min (2 ^ 48 - 1) (s.get f + n) := by
  rw [bump, get_set_self, hf]
  omega

/-- Tile sets depend on `tsets` alone. -/
theorem tset_congr {s t : State} (h : t.sorter.tsets = s.sorter.tsets) (n : Nat) : t.tset n = s.tset n := by simp [tset, h]

/-! ## Changes of one component -/

/-- Beside the event controller, `t` is as `s`. -/
def EventsOnly (s t : State) : Prop := ∃ e, t = { s with ec := e }

theorem EventsOnly.refl (s : State) : s.EventsOnly s := ⟨s.ec, rfl⟩

theorem EventsOnly.trans {s t u : State} (h : s.EventsOnly t) (h' : t.EventsOnly u) : s.EventsOnly u := by
  obtain ⟨e, rfl⟩ := h
  obtain ⟨e', rfl⟩ := h'
  exact ⟨e', rfl⟩

theorem eventsOnly_presentEdge (s : State) (t : Nat) (b : Bool) : s.EventsOnly (s.presentEdge t b) := by
  unfold presentEdge
  split
  · split
    · exact .refl s
    · exact ⟨_, rfl⟩
  · split
    · exact .refl s
    · dsimp only
      split
      · split
        · exact ⟨_, rfl⟩
        · exact ⟨_, rfl⟩
      · exact ⟨_, rfl⟩
      · exact .refl s

theorem eventsOnly_onSource (s : State) (n : Nat) (f : Src → Src) : s.EventsOnly (s.onSource n f) := by
  have put : s.EventsOnly { s with ec := { s.ec with src := AMap.put s.ec.src n (f (s.source n)) } } := ⟨_, rfl⟩
  unfold onSource
  dsimp only
  split
  · exact put.trans (eventsOnly_presentEdge ..)
  · exact (put.trans (eventsOnly_presentEdge ..)).trans (eventsOnly_presentEdge ..)

theorem eventsOnly_addWake (s : State) (n : Nat) : s.EventsOnly (s.addWake n) := by
  unfold addWake
  split
  · exact ⟨_, rfl⟩
  · exact .refl s

/-- An assertion changes the event controller alone, in every power state. -/
theorem eventsOnly_assertSource (s : State) (n : Nat) : s.EventsOnly (s.assertSource n) := by
  have pend : s.EventsOnly (s.setPend n) := eventsOnly_onSource ..
  have noted (e : EventSt) : s.EventsOnly (State.addWake { s with ec := e } n) :=
    EventsOnly.trans ⟨e, rfl⟩ (eventsOnly_addWake ..)
  unfold assertSource
  split
  · exact .refl s
  · split
    · exact pend
    · exact pend.trans (eventsOnly_addWake ..)
    · split
      · exact noted _
      · exact pend.trans (eventsOnly_addWake ..)
    · split
      · exact noted _
      · split
        · exact noted _
        · exact .refl s

/-- Beside the tiles, `t` is as `s`. -/
def TilesOnly (s t : State) : Prop := ∃ x, t = { s with tiles := x }

theorem TilesOnly.refl (s : State) : s.TilesOnly s := ⟨s.tiles, rfl⟩

theorem TilesOnly.trans {s t u : State} (h : s.TilesOnly t) (h' : t.TilesOnly u) : s.TilesOnly u := by
  obtain ⟨x, rfl⟩ := h
  obtain ⟨y, rfl⟩ := h'
  exact ⟨y, rfl⟩

theorem tilesOnly_tryClear (s : State) (t : Nat) : s.TilesOnly (s.tryClear t) := by
  unfold tryClear
  split
  · exact .refl s
  · dsimp only
    split
    · exact ⟨_, rfl⟩
    · exact .refl s

theorem tilesOnly_memberChange (s : State) (t : Nat) : s.TilesOnly (s.memberChange t) :=
  TilesOnly.trans ⟨_, rfl⟩ (tilesOnly_tryClear ..)

/-! ## What a tick leaves -/

/-- The working state of node time, and every register field that stands below RND_LATE_CNT in the map, so all of node time and of the
rounds but the two counters of late work, are in `t` as in `s`. -/
structure TimeKept (s t : State) : Prop where
  time : t.time = s.time
  below : ∀ f : Fld, f.key < Reg.RND_LATE_CNT.COUNT.key → t.get f = s.get f

/-- The tile sets with their ledgers are kept as well. -/
structure LedgersKept (s t : State) : Prop extends TimeKept s t where
  tsets : t.sorter.tsets = s.sorter.tsets

theorem TimeKept.of_eq {s t : State} (ht : t.time = s.time) (hf : t.flds = s.flds) : s.TimeKept t :=
  ⟨ht, fun f _ => get_congr hf f⟩

theorem TimeKept.refl (s : State) : s.TimeKept s := .of_eq rfl rfl

theorem TimeKept.trans {s t u : State} (h : s.TimeKept t) (h' : t.TimeKept u) : s.TimeKept u :=
  ⟨h'.time.trans h.time, fun f hf => (h'.below f hf).trans (h.below f hf)⟩

theorem TimeKept.now {s t : State} (h : s.TimeKept t) : t.now = s.now := h.below _ (by decide)

theorem TimeKept.capacity {s t : State} (h : s.TimeKept t) : t.capacity = s.capacity := by
  rw [State.capacity, h.below Reg.RND_PERIOD.PERIOD (by decide), h.below Reg.RND_CTL.MAINT (by decide), ← State.capacity]

theorem LedgersKept.of_eq {s t : State} (ht : t.time = s.time) (hf : t.flds = s.flds) (hs : t.sorter.tsets = s.sorter.tsets) :
    s.LedgersKept t := ⟨.of_eq ht hf, hs⟩

theorem LedgersKept.refl (s : State) : s.LedgersKept s := .of_eq rfl rfl rfl

theorem LedgersKept.trans {s t u : State} (h : s.LedgersKept t) (h' : t.LedgersKept u) : s.LedgersKept u :=
  ⟨h.toTimeKept.trans h'.toTimeKept, h'.tsets.trans h.tsets⟩

theorem LedgersKept.ite {s t u : State} {c : Prop} [Decidable c] (ht : s.LedgersKept t) (hu : s.LedgersKept u) :
    s.LedgersKept (if c then t else u) := by
  split
  · exact ht
  · exact hu

theorem EventsOnly.ledgersKept {s t : State} (h : s.EventsOnly t) : s.LedgersKept t := by
  obtain ⟨e, rfl⟩ := h
  exact .of_eq rfl rfl rfl

theorem TilesOnly.ledgersKept {s t : State} (h : s.TilesOnly t) : s.LedgersKept t := by
  obtain ⟨x, rfl⟩ := h
  exact .of_eq rfl rfl rfl

/-- A write of a field at or above RND_LATE_CNT. -/
theorem ledgersKept_set (s : State) {f : Fld} (hf : Reg.RND_LATE_CNT.COUNT.key ≤ f.key) (v : Nat) : s.LedgersKept (s.set f v) :=
  ⟨⟨rfl, fun _ hg => get_set_ne s v (Nat.ne_of_lt (Nat.lt_of_lt_of_le hg hf))⟩, rfl⟩

theorem ledgersKept_stopQueue (s : State) (q st : Nat) : s.LedgersKept (s.stopQueue q st) := by
  have pigeon : s.LedgersKept (s.onPigeon q fun p => { p with error := true, lastStat := st }) := .of_eq rfl rfl rfl
  have raised := pigeon.trans (ledgersKept_set _ (f := Reg.SORT_STAT.QSTOPPED) (by decide) 1)
  exact raised.trans (eventsOnly_assertSource ..).ledgersKept

/-- The end of a descriptor counts an excused one, forms a record, and can stop the queue. -/
theorem ledgersKept_endFlight (s : State) (q seq st : Nat) : s.LedgersKept (s.endFlight q seq st) := by
  unfold endFlight
  split
  case h_1 => exact .refl s
  case h_2 f _ =>
    have drop : s.LedgersKept (s.dropFlight q seq) := .of_eq rfl rfl rfl
    have counted (u : State) (b : Bool) : u.LedgersKept (if b then u.bump Reg.RND_EXCUSED_CNT.COUNT else u) :=
      .ite (ledgersKept_set u (by decide) _) (.refl u)
    refine ((drop.trans (counted _ (f.late && !f.anyUnheld))).trans ?_).trans (.ite (ledgersKept_stopQueue ..) (.refl _))
    exact .ite (.of_eq rfl rfl rfl) (.of_eq rfl rfl rfl)

theorem ledgersKept_endSync (s : State) (f : Flight) (st : Nat) : s.LedgersKept (s.endSync f st) := by
  refine LedgersKept.trans ?_ (ledgersKept_endFlight ..)
  exact .of_eq rfl rfl rfl

/-! ## Debits and tile sets at a tick -/

theorem timeKept_debit (s : State) (f : Flight) : s.TimeKept (s.debit f) := by
  unfold debit
  dsimp only
  split
  · exact .of_eq rfl rfl
  · exact .of_eq rfl rfl

theorem timeKept_dueDebits (s : State) (n : Nat) : s.TimeKept (s.dueDebits n) :=
  List.foldlRecOn _ _ (.refl s) fun _ h _ _ => List.foldlRecOn _ _ h fun _ h _ _ => h.trans (timeKept_debit ..)

/-- The late debits that a tick makes before anything else, on every tile set (R90). -/
def tickDebits (s : State) : State := (s.sorter.tsets.map (·.1)).foldl (fun s n => s.dueDebits n) s

theorem timeKept_tickDebits (s : State) : s.TimeKept s.tickDebits :=
  List.foldlRecOn _ _ (.refl s) fun _ h _ _ => h.trans (timeKept_dueDebits ..)

theorem dueDebits_of_no_flights {s : State} (h : s.sorter.flights = []) (n : Nat) : s.dueDebits n = s := by
  simp [dueDebits, h]

theorem tickDebits_of_no_flights {s : State} (h : s.sorter.flights = []) : s.tickDebits = s := by
  unfold tickDebits
  refine List.foldlRecOn (motive := (· = s)) _ _ rfl fun u hu n _ => ?_
  subst hu
  exact dueDebits_of_no_flights h n

theorem timeKept_applyChange (s : State) (c : TSetChange) : s.TimeKept (s.applyChange c) := by
  refine TimeKept.trans ?_ (ledgersKept_endFlight ..).toTimeKept
  exact .of_eq rfl rfl

/-- The state in which the pending changes of the tile sets have taken effect (R85). -/
def changesApplied (s : State) : State :=
  s.sorter.changes.foldl applyChange { s with sorter := { s.sorter with changes := [], written := [] } }

theorem timeKept_changesApplied (s : State) : s.TimeKept s.changesApplied :=
  List.foldlRecOn _ _ (.of_eq rfl rfl) fun _ h _ _ => h.trans (timeKept_applyChange ..)

theorem changesApplied_of_no_changes {s : State} (h : s.sorter.changes = []) :
    s.changesApplied = { s with sorter := { s.sorter with changes := [], written := [] } } := by
  simp [changesApplied, h]

/-- The tile sets' part of a tick: the changes take effect, tiles may begin to clear, the members are noted and the ledgers are
rebuilt. -/
theorem setsTick_shape (s : State) : ∃ u now, s.changesApplied.TilesOnly u ∧
    s.setsTick = rebuildLedgers { u with sorter := { u.sorter with members := now } } := by
  refine ⟨_, _, ?_, rfl⟩
  refine List.foldlRecOn _ _ (.refl _) fun u h t _ => ?_
  split
  · exact h.trans (tilesOnly_memberChange ..)
  · exact h

/-- A tile set as a tick leaves it, with capacity `c`; `fresh` at the first tick after a wake (R55, R56, R516). -/
def rebuilt (c : Int) (fresh : Bool) (x : TSet) : TSet :=
  if x.en then { x with live := true, balance := if x.live && !fresh then c + min 0 x.balance else c } else { x with live := false }

@[simp] theorem rebuilt_mask (c : Int) (fresh : Bool) (x : TSet) : (rebuilt c fresh x).mask = x.mask := by
  unfold rebuilt
  split
  · rfl
  · rfl

@[simp] theorem rebuilt_en (c : Int) (fresh : Bool) (x : TSet) : (rebuilt c fresh x).en = x.en := by
  unfold rebuilt
  split
  · rfl
  · rfl

/-- A rebuilt ledger carries the debt of a set that was live, and nothing else (R56). -/
theorem rebuilt_balance (c : Int) (x : TSet) :
    (rebuilt c false x).balance = if x.en then c + (if x.live then min 0 x.balance else 0) else x.balance := by
  unfold rebuilt
  cases x.en
  · rfl
  · cases x.live
    · simp
    · simp

theorem rebuilt_balance_le {c : Int} {fresh : Bool} {x : TSet} (h : x.en = true) : (rebuilt c fresh x).balance ≤ c := by
  rw [rebuilt, if_pos h]
  dsimp only
  split
  · omega
  · exact Int.le_refl c

theorem tset_rebuildLedgers (s : State) (n : Nat) :
    s.rebuildLedgers.tset n = rebuilt s.capacity s.power.fresh (s.tset n) :=
  AMap.getD_map s.sorter.tsets (rebuilt s.capacity s.power.fresh) n rfl

theorem timeKept_setsTick (s : State) : s.TimeKept s.setsTick := by
  obtain ⟨u, now, hu, h⟩ := setsTick_shape s
  rw [h]
  exact ((timeKept_changesApplied s).trans hu.ledgersKept.toTimeKept).trans (.of_eq rfl rfl)

/-- A tile set after the tile sets' part of a tick: rebuilt with the capacity in force. -/
theorem tset_setsTick (s : State) (n : Nat) :
    s.setsTick.tset n = rebuilt s.capacity s.changesApplied.power.fresh (s.changesApplied.tset n) := by
  obtain ⟨u, now, ⟨x, rfl⟩, h⟩ := setsTick_shape s
  rw [h, tset_rebuildLedgers, ← (timeKept_changesApplied s).capacity]
  rfl

/-! ## The rest of a tick -/

theorem ledgersKept_lateTick (s : State) : s.LedgersKept s.lateTick :=
  LedgersKept.trans (ledgersKept_set s (f := Reg.RND_LATE_CNT.COUNT) (Nat.le_refl _) _) (.of_eq rfl rfl rfl)

theorem ledgersKept_deferTick (s : State) : s.LedgersKept s.deferTick := .of_eq rfl rfl rfl

theorem ledgersKept_waitTick (s : State) : s.LedgersKept s.waitTick :=
  List.foldlRecOn _ _ (.refl s) fun _ h _ _ => h.trans (ledgersKept_endSync ..)

theorem ledgersKept_retireTick (s : State) : s.LedgersKept s.retireTick :=
  List.foldlRecOn _ _ (.refl s) fun u h e _ => h.trans
    (.ite (ledgersKept_set u (by simp only [Fld.key, Reg.RND_LATE_CNT.COUNT, Reg.MEM_RETIRE.STATE]; omega) 2) (.refl u))

theorem ledgersKept_watchTick (s : State) : s.LedgersKept s.watchTick := .of_eq rfl rfl rfl

theorem ledgersKept_regsTick (s : State) : s.LedgersKept s.regsTick := .of_eq rfl rfl rfl

theorem ledgersKept_ratesTick (s : State) : s.LedgersKept s.ratesTick := .of_eq rfl rfl rfl

theorem ledgersKept_settle (s old : State) : s.LedgersKept (s.settle old) :=
  List.foldlRecOn _ _ (.refl s) fun _ h _ _ => h.trans (.ite (.of_eq rfl rfl rfl) (.refl _))

/-- The work of a tick after the tile sets' part. -/
def tickUnits (s : State) : State := s.lateTick.deferTick.waitTick.retireTick.watchTick.regsTick.ratesTick

theorem ledgersKept_tickUnits (s : State) : s.LedgersKept s.tickUnits := by
  have retired : s.LedgersKept s.lateTick.deferTick.waitTick.retireTick :=
    (((ledgersKept_lateTick s).trans (ledgersKept_deferTick _)).trans (ledgersKept_waitTick _)).trans (ledgersKept_retireTick _)
  exact ((retired.trans (ledgersKept_watchTick _)).trans (ledgersKept_regsTick _)).trans (ledgersKept_ratesTick _)

/-- The end of a tick: the first one after a wake is over, and queues that have become ready take their READYTIME. -/
def tickEnd (s : State) : State := settle { s with power := { s.power with fresh := false } } s

theorem ledgersKept_tickEnd (s : State) : s.LedgersKept s.tickEnd := by
  refine LedgersKept.trans ?_ (ledgersKept_settle ..)
  exact .of_eq rfl rfl rfl

/-- No part of a tick after the rebuilding touches a ledger. -/
theorem ledgersKept_tickRest (s : State) : s.LedgersKept s.tickUnits.tickEnd :=
  (ledgersKept_tickUnits s).trans (ledgersKept_tickEnd _)

/-! ## The tick -/

/-- What a tick does, by power state: only the round in Nap and Night, and everywhere else the debits, the tile sets and the units. -/
theorem tickWork_eq (s : State) :
    s.tickWork = if s.power.sleep == .nap || s.power.sleep == .night then s.roundTick
      else s.roundTick.tickDebits.setsTick.tickUnits.tickEnd := by
  unfold tickWork tickEnd tickUnits tickDebits
  rfl

theorem tickWork_of_asleep {s : State} (h : s.power.sleep = .nap ∨ s.power.sleep = .night) : s.tickWork = s.roundTick := by
  rw [tickWork_eq, if_pos (by simpa using h)]

theorem tickWork_of_awake {s : State} (hp : s.power.sleep ≠ .nap) (hn : s.power.sleep ≠ .night) :
    s.tickWork = s.roundTick.tickDebits.setsTick.tickUnits.tickEnd := by
  rw [tickWork_eq, if_neg (by simp [hp, hn])]

/-- After the round's own part, a tick leaves node time and the round alone. -/
theorem timeKept_tickWork (s : State) : s.roundTick.TimeKept s.tickWork := by
  by_cases h : s.power.sleep = .nap ∨ s.power.sleep = .night
  · rw [tickWork_of_asleep h]
    exact .refl _
  · obtain ⟨hp, hn⟩ := not_or.1 h
    rw [tickWork_of_awake hp hn]
    exact ((timeKept_tickDebits _).trans (timeKept_setsTick _)).trans (ledgersKept_tickRest _).toTimeKept

/-- The round's part of a tick writes RND_NUM and no other field. -/
theorem get_roundTick_ne (s : State) {f : Fld} (h : f.key ≠ Reg.RND_NUM.NUM.key) : s.roundTick.get f = s.get f :=
  get_set_ne s _ h

theorem period_congr {s t : State} (h : t.get Reg.RND_PERIOD.PERIOD = s.get Reg.RND_PERIOD.PERIOD) : t.period = s.period := by
  rw [period, h, ← period]

/-- The round that a tick starts: its base is the instant of the tick (R46). -/
theorem time_roundTick (s : State) :
    s.roundTick.time = { s.time with tickBase := s.now / s.period * s.period, ticked := true, beats := 0 } := by
  have hnow : (s.set Reg.RND_NUM.NUM (s.now / s.period % 2 ^ 48)).now = s.now := get_set_ne s _ (by decide)
  have hper : (s.set Reg.RND_NUM.NUM (s.now / s.period % 2 ^ 48)).period = s.period := period_congr (get_set_ne s _ (by decide))
  simp only [roundTick, hnow, hper, set_time]

theorem capacity_roundTick (s : State) : s.roundTick.capacity = s.capacity := by
  rw [capacity, get_roundTick_ne s (by decide), get_roundTick_ne s (by decide), ← capacity]

/-- RND_NUM after a tick (R47). -/
theorem tickWork_num (s : State) : s.tickWork.get Reg.RND_NUM.NUM = s.now / s.period % 2 ^ 48 := by
  rw [(timeKept_tickWork s).below _ (by decide)]
  exact (get_set_self s _ _).trans (Nat.mod_mod _ _)

theorem tickWork_now (s : State) : s.tickWork.now = s.now :=
  (timeKept_tickWork s).now.trans (get_roundTick_ne s (by decide))

theorem tickWork_skip (s : State) : s.tickWork.get Reg.RND_SKIP_CNT.COUNT = s.get Reg.RND_SKIP_CNT.COUNT :=
  ((timeKept_tickWork s).below _ (by decide)).trans (get_roundTick_ne s (by decide))

theorem tickWork_time (s : State) :
    s.tickWork.time = { s.time with tickBase := s.now / s.period * s.period, ticked := true, beats := 0 } :=
  (timeKept_tickWork s).time.trans (time_roundTick s)

theorem tickWork_tickBase (s : State) : s.tickWork.time.tickBase = s.now / s.period * s.period :=
  congrArg TimeSt.tickBase (tickWork_time s)

/-- A tile set after a tick outside Nap and Night. -/
theorem tset_tickWork {s : State} (hp : s.power.sleep ≠ .nap) (hn : s.power.sleep ≠ .night) (n : Nat) :
    let u := s.roundTick.tickDebits.changesApplied
    s.tickWork.tset n = rebuilt s.capacity u.power.fresh (u.tset n) := by
  intro u
  rw [tickWork_of_awake hp hn, tset_congr (ledgersKept_tickRest _).tsets, tset_setsTick, (timeKept_tickDebits _).capacity,
    capacity_roundTick]

/-- With nothing in flight and no change pending, a tick in Run rebuilds the tile sets as they stand. -/
theorem tset_tickWork_of_quiet {s : State} (hp : s.power.sleep ≠ .nap) (hn : s.power.sleep ≠ .night) (hf : s.sorter.flights = [])
    (hc : s.sorter.changes = []) (n : Nat) : s.tickWork.tset n = rebuilt s.capacity s.power.fresh (s.tset n) := by
  have hf' : s.roundTick.sorter.flights = [] := hf
  have hc' : s.roundTick.sorter.changes = [] := hc
  rw [tset_tickWork hp hn, tickDebits_of_no_flights hf', changesApplied_of_no_changes hc']
  rfl

theorem exec_collectionTick {s : State} (h : s.tickDue = true) : exec .collectionTick s = .next s.tickWork := if_pos h

/-! ## Writes of NT_STEP -/

/-- Both rows of NT_STEP perform the write where it reaches the register. -/
theorem exec_ntStep {s : State} {r : Requester} {d : W64} (h : s.reaches r 0x10018 = (true, s)) {c : Instr}
    (hc : c ∈ [Instr.ntStepForward r d, .ntStepBackward r d]) : exec c s = .next (s.ntStep d) := by
  have hw : s.writeAs r 0x10018 (fun s => s.ntStep d) = s.ntStep d := by simp only [writeAs, h]
  rcases List.mem_pair.1 hc with rfl | rfl
  · exact congrArg _ hw
  · exact congrArg _ hw

theorem ntStep_of_refused {s : State} {d : W64} (h : s.flag Reg.NT_STAT.HOLDING = true ∨ d.toInt < -1000000000) :
    s.ntStep d = s.raise Reg.NT_STAT.STEPERR := by
  have hc : (s.flag Reg.NT_STAT.HOLDING || decide (d.toInt < -1000000000)) = true := by simpa using h
  exact if_pos hc

theorem now_set_now (s : State) {v : Nat} (h : v < 2 ^ 64) : (s.set Reg.NT_NOW.NOW v).now = v :=
  (get_set_self s Reg.NT_NOW.NOW v).trans (Nat.mod_eq_of_lt h)

theorem period_set_now (s : State) (v : Nat) : (s.set Reg.NT_NOW.NOW v).period = s.period :=
  period_congr (get_set_ne s v (by decide))

theorem enabled_set_now (s : State) (v : Nat) : (s.set Reg.NT_NOW.NOW v).flag Reg.RND_CTL.EN = s.flag Reg.RND_CTL.EN := by
  rw [flag, get_set_ne s v (by decide), ← flag]

/-- A forward step with rounds enabled and no tick due: node time moves, and the instants that it passes make one tick (R39, R48). -/
theorem ntStep_of_forward {s : State} {d : W64} {after n : Nat} (hh : s.flag Reg.NT_STAT.HOLDING = false)
    (he : s.flag Reg.RND_CTL.EN = true) (hd : 0 < d.toInt) (ht : s.tickDue = false)
    (ha : after = min (2 ^ 64 - 1) (s.now + d.toNat)) (hn : n = after / s.period - s.now / s.period) :
    s.ntStep d = if n = 0 then s.set Reg.NT_NOW.NOW after
      else ((s.set Reg.NT_NOW.NOW after).bump Reg.RND_SKIP_CNT.COUNT (n - 1)).tickWork := by
  have habs : d.toInt.natAbs = d.toNat := by
    have := BitVec.toInt_eq_toNat_cond d
    omega
  have hlow : ¬ d.toInt < -1000000000 := by omega
  have hzero : ¬ d.toInt = 0 := by omega
  have hneg : ¬ d.toInt < 0 := by omega
  simp only [ntStep, hh, hlow, hzero, hneg, ht, habs, ← ha, enabled_set_now, he, now_set_now s (v := after) (by omega),
    period_set_now, ← hn, decide_false, Bool.or_self, Bool.false_eq_true, if_false, if_true]

end State

/-! ## The statements -/

/-- Settles O7: the write is refused at its first test. -/
theorem stepOutOfRangeIsIgnored : Obligations.StepOutOfRangeIsIgnored := by
  intro s r d hr h c hc
  refine ⟨_, State.exec_ntStep hr hc, ?_⟩
  rw [State.ntStep_of_refused h]
  refine ⟨?_, rfl, State.fieldsBut_set s _ 1⟩
  rw [State.flag, State.raise, State.get_set_self]
  rfl

/-- Settles O9: a tick's own writes, the rest of its work keeping node time and the round. -/
theorem collectionTicks : Obligations.CollectionTicks := by
  refine ⟨fun s h => ⟨_, State.exec_collectionTick h, ?_⟩, fun s r d hr hh he hd ht => ?_⟩
  · exact ⟨State.tickWork_num s, State.tickWork_now s, State.tickWork_tickBase s, congrArg TimeSt.ticked (State.tickWork_time s),
      congrArg TimeSt.beats (State.tickWork_time s), State.tickWork_skip s⟩
  · intro after n
    have hnow : (s.set Reg.NT_NOW.NOW after).now = after := State.now_set_now s (by simp only [after]; omega)
    refine ⟨_, State.exec_ntStep hr (List.mem_cons_self ..), ?_⟩
    rw [State.ntStep_of_forward (after := after) (n := n) hh he hd ht rfl rfl]
    by_cases hn : n = 0
    · rw [if_pos hn]
      exact ⟨hnow, fun _ => ⟨rfl, State.fieldsBut_set s _ _⟩, fun h => absurd hn h⟩
    · rw [if_neg hn]
      have hnow' : ((s.set Reg.NT_NOW.NOW after).bump Reg.RND_SKIP_CNT.COUNT (n - 1)).now = after :=
        (State.get_bump_ne _ _ (by decide)).trans hnow
      have hper : ((s.set Reg.NT_NOW.NOW after).bump Reg.RND_SKIP_CNT.COUNT (n - 1)).period = s.period :=
        (State.period_congr (State.get_bump_ne _ _ (by decide))).trans (State.period_set_now ..)
      refine ⟨(State.tickWork_now _).trans hnow', fun h => absurd h hn, fun _ => ⟨?_, ?_, ?_⟩⟩
      · rw [State.tickWork_num, hnow', hper]
      · rw [State.tickWork_tickBase, hnow', hper]
      · rw [State.tickWork_skip, State.get_bump_self _ rfl, State.get_set_ne s after (by decide)]

/-- Settles O10: the rebuilt ledgers stand at the end of the tick. -/
theorem ledgersAtATick : Obligations.LedgersAtATick := by
  refine ⟨fun s hd hrun hfresh hf hc _ => ⟨_, State.exec_collectionTick hd, fun n => ?_⟩,
    fun s hd hp hn => ⟨_, State.exec_collectionTick hd, fun n hen => ?_⟩⟩
  · rw [State.tset_tickWork_of_quiet (by simp [hrun]) (by simp [hrun]) hf hc, hfresh]
    exact ⟨State.rebuilt_mask .., State.rebuilt_en .., State.rebuilt_balance ..⟩
  · rw [State.tset_tickWork hp hn] at hen ⊢
    exact State.rebuilt_balance_le ((State.rebuilt_en ..).symm.trans hen)

end Sys2Proof.Machine

/-! # Doorbells (chapter 3)

Proofs of the statement on writes of LB_TAIL. `PigeonsOnly` carries the frame of `settle`, which ends every doorbell; that a doorbell
leaves the readiness of every other queue rests on `crWait`, the one part of `ready` that looks at all pigeonholes. -/

namespace Sys2Proof.Machine

/-- A value that has a property which the default lacks is listed in the map. -/
theorem AMap.any_of_getD {α : Type} {m : AMap α} {k : Nat} {d : α} {P : α → Bool} (hd : P d = false)
    (h : P (AMap.getD m k d) = true) : (m.any fun p => P p.2) = true := by
  induction m with
  | nil => exact absurd h (by simp [hd])
  | cons p rest ih =>
    obtain ⟨k', v'⟩ := p
    rw [AMap.getD] at h
    by_cases hk : k' = k
    · rw [if_pos hk] at h
      simp [h]
    · rw [if_neg hk] at h
      simp [ih h]

/-- A write that keeps a property of the value at its key keeps whether any value listed has it. -/
theorem AMap.any_put {α : Type} (m : AMap α) {k : Nat} {v d : α} {P : α → Bool} (hd : P d = false)
    (hv : P v = P (AMap.getD m k d)) : ((AMap.put m k v).any fun p => P p.2) = m.any fun p => P p.2 := by
  induction m with
  | nil => simp [AMap.put, hv, hd]
  | cons p rest ih =>
    obtain ⟨k', v'⟩ := p
    by_cases hlt : k < k'
    · rw [AMap.put, if_pos hlt, List.any_cons, hv]
      cases hget : P (AMap.getD ((k', v') :: rest) k d) with
      | false => rfl
      | true => exact (AMap.any_of_getD hd hget).symm
    · rw [AMap.getD] at hv
      by_cases hk : k = k'
      · rw [if_pos hk.symm] at hv
        simp [AMap.put, hk, hv]
      · rw [if_neg (Ne.symm hk)] at hv
        simp [AMap.put, hlt, hk, ih hv]

namespace State

/-! ## READYTIME -/

/-- Beside the pigeonholes, `t` is as `s`. -/
def PigeonsOnly (s t : State) : Prop := t = { s with sorter := { s.sorter with pigeons := t.sorter.pigeons } }

theorem pigeonsOnly_onPigeon (s : State) (q : Nat) (f : Pigeon → Pigeon) : s.PigeonsOnly (s.onPigeon q f) := rfl

theorem PigeonsOnly.trans {s t u : State} (h : s.PigeonsOnly t) (h' : t.PigeonsOnly u) : s.PigeonsOnly u := by
  rw [PigeonsOnly] at h h' ⊢
  rw [h] at h'
  exact h'

theorem PigeonsOnly.ring {s t : State} (h : s.PigeonsOnly t) (r : Nat) : t.ring r = s.ring r := by rw [h]; rfl

theorem PigeonsOnly.flag {s t : State} (h : s.PigeonsOnly t) (f : Fld) : t.flag f = s.flag f := by rw [h]; rfl

theorem PigeonsOnly.source {s t : State} (h : s.PigeonsOnly t) (n : Nat) : t.source n = s.source n := by rw [h]; rfl

theorem pigeonsOnly_settle (s old : State) : s.PigeonsOnly (s.settle old) := by
  refine List.foldlRecOn _ _ rfl fun u h p _ => ?_
  split
  · exact h.trans (pigeonsOnly_onPigeon ..)
  · exact h

/-- `settle` changes no more of a pigeonhole than its READYTIME. -/
theorem pigeon_settle (s old : State) (q : Nat) :
    (s.settle old).pigeon q = { s.pigeon q with readyTime := ((s.settle old).pigeon q).readyTime } := by
  refine List.foldlRecOn (motive := fun u : State => u.pigeon q = { s.pigeon q with readyTime := (u.pigeon q).readyTime })
    _ _ rfl fun u h p _ => ?_
  split
  · rw [pigeon_onPigeon]
    split
    case isTrue hq => rw [← hq, h]
    case isFalse => exact h
  · exact h

/-- `settle` leaves a queue that has not become ready. -/
theorem pigeon_settle_of_ready_eq {s old : State} {q : Nat} (hr : s.ready q = old.ready q) :
    (s.settle old).pigeon q = s.pigeon q := by
  refine List.foldlRecOn (motive := fun u : State => u.pigeon q = s.pigeon q) _ _ rfl fun u h p _ => ?_
  split
  case isTrue hp =>
    have hne : q ≠ p.1 := by
      rintro rfl
      simp [hr] at hp
    rw [pigeon_onPigeon, if_neg hne, h]
  case isFalse => exact h

/-! ## Readiness of the other queues -/

/-- A change of a pigeonhole that keeps EN and CRING keeps CRWAIT of the other queues. -/
theorem crWait_onPigeon_ne {s : State} {p q : Nat} {f : Pigeon → Pigeon} (hne : p ≠ q) (hen : (f (s.pigeon q)).en = (s.pigeon q).en)
    (hring : (f (s.pigeon q)).cring = (s.pigeon q).cring) : (s.onPigeon q f).crWait p = s.crWait p := by
  have named : ((s.onPigeon q f).sorter.pigeons.any fun x => x.2.en && x.2.cring == (s.pigeon p).cring) =
      s.sorter.pigeons.any fun x => x.2.en && x.2.cring == (s.pigeon p).cring :=
    AMap.any_put s.sorter.pigeons (P := fun x => x.en && x.cring == (s.pigeon p).cring) rfl (by rw [hen, hring]; rfl)
  have hring' (n : Nat) : (s.onPigeon q f).ring n = s.ring n := (pigeonsOnly_onPigeon s q f).ring n
  simp only [crWait, pigeon_onPigeon, if_neg hne, hring', named]

theorem ready_onPigeon_ne {s : State} {p q : Nat} {f : Pigeon → Pigeon} (hne : p ≠ q) (hen : (f (s.pigeon q)).en = (s.pigeon q).en)
    (hring : (f (s.pigeon q)).cring = (s.pigeon q).cring) : (s.onPigeon q f).ready p = s.ready p := by
  have hflag (g : Fld) : (s.onPigeon q f).flag g = s.flag g := (pigeonsOnly_onPigeon s q f).flag g
  simp only [ready, qDetached, crWait_onPigeon_ne hne hen hring, pigeon_onPigeon, if_neg hne, hflag]

/-! ## Event controller -/

theorem EventsOnly.pigeon {s t : State} (h : s.EventsOnly t) (q : Nat) : t.pigeon q = s.pigeon q := by
  obtain ⟨e, rfl⟩ := h
  rfl

theorem EventsOnly.ring {s t : State} (h : s.EventsOnly t) (r : Nat) : t.ring r = s.ring r := by
  obtain ⟨e, rfl⟩ := h
  rfl

theorem EventsOnly.flag {s t : State} (h : s.EventsOnly t) (f : Fld) : t.flag f = s.flag f := by
  obtain ⟨e, rfl⟩ := h
  rfl

/-- A change in presentation sends messages and moves lines, and leaves every source. -/
@[simp] theorem source_presentEdge (s : State) (t : Nat) (b : Bool) (n : Nat) : (s.presentEdge t b).source n = s.source n := by
  unfold presentEdge
  split
  · split
    · rfl
    · rfl
  · split
    · rfl
    · dsimp only
      split
      · split
        · rfl
        · rfl
      · rfl
      · rfl

theorem source_onSource_self (s : State) (n : Nat) (f : Src → Src) : (s.onSource n f).source n = f (s.source n) := by
  have put : source { s with ec := { s.ec with src := AMap.put s.ec.src n (f (s.source n)) } } n = f (s.source n) :=
    AMap.getD_put_same ..
  unfold onSource
  dsimp only
  split
  · rw [source_presentEdge, put]
  · rw [source_presentEdge, source_presentEdge, put]

/-- In Run an assertion sets the pending bit (R471). -/
theorem pend_assertSource {s : State} {n : Nat} (hn : reservedSource n = false) (hrun : s.power.sleep = .run) :
    ((s.assertSource n).source n).pend = true := by
  have hset : s.assertSource n = s.setPend n := by simp [assertSource, hn, hrun]
  rw [hset, setPend, source_onSource_self]
  split
  case isTrue h => exact h
  case isFalse => rfl

/-! ## A queue that stops -/

/-- A one-bit field that has been raised. -/
theorem flag_raise_self (s : State) {f : Fld} (hf : f.len = 1) : (s.raise f).flag f = true := by
  rw [flag, raise, get_set_self, hf]
  rfl

@[simp] theorem pigeon_stopQueue_self (s : State) (q st : Nat) :
    (s.stopQueue q st).pigeon q = { s.pigeon q with error := true, lastStat := st } :=
  ((eventsOnly_assertSource ..).pigeon q).trans (pigeon_onPigeon_self s q fun p => { p with error := true, lastStat := st })

@[simp] theorem ring_stopQueue (s : State) (q st r : Nat) : (s.stopQueue q st).ring r = s.ring r :=
  (eventsOnly_assertSource ..).ring r

theorem flag_stopQueue (s : State) (q st : Nat) : (s.stopQueue q st).flag Reg.SORT_STAT.QSTOPPED = true :=
  ((eventsOnly_assertSource ..).flag _).trans (flag_raise_self _ rfl)

theorem pend_stopQueue {s : State} (hrun : s.power.sleep = .run) (q st : Nat) : ((s.stopQueue q st).source 71).pend = true :=
  pend_assertSource (by decide) hrun

@[simp] theorem pigeon_formRecord (s : State) (q : Nat) (c : CRecord) (p : Nat) : (s.formRecord q c).pigeon p = s.pigeon p := rfl

/-- The record that a queue forms joins those that wait for its ring (R106). -/
theorem waiting_formRecord (s : State) (q : Nat) (c : CRecord) :
    ((s.formRecord q c).ring (s.pigeon q).cring).waiting =
      (s.ring (s.pigeon q).cring).waiting ++ [{ c with postmark := s.now, queue := q }] := by
  rw [formRecord, ring_onRing_self]

/-- What a stop that forms a record leaves of its pigeonhole, once READYTIME has been settled. -/
theorem pigeon_settle_stop (s old : State) (q st : Nat) (c : CRecord) :
    ∃ n, (((s.stopQueue q st).formRecord q c).settle old).pigeon q =
      { s.pigeon q with error := true, lastStat := st, readyTime := n } := by
  rw [pigeon_settle, pigeon_formRecord, pigeon_stopQueue_self]
  exact ⟨_, rfl⟩

/-- The record of a stop waits last for the ring that the queue names. -/
theorem waiting_settle_stop (s old : State) (q st : Nat) (c : CRecord) :
    ((((s.stopQueue q st).formRecord q c).settle old).ring (s.pigeon q).cring).waiting =
      (s.ring (s.pigeon q).cring).waiting ++ [{ c with postmark := (s.stopQueue q st).now, queue := q }] := by
  have formed := waiting_formRecord (s.stopQueue q st) q c
  rw [pigeon_stopQueue_self, ring_stopQueue] at formed
  rw [(pigeonsOnly_settle ..).ring]
  exact formed

/-! ## The write of LB_TAIL -/

theorem exec_doorbell {s : State} {r : Requester} (ha : s.awake r = s) (hp : s.present r = true) (hb : s.answers 0x800000 = true)
    (q : Fin 16384) (v : W32) : exec (.doorbell r q v) s = .next (s.doorbell q v.toNat) := by
  have hexec : exec (.doorbell r q v) s = execDoorbell r q v s := rfl
  simp [hexec, execDoorbell, ha, hp, hb]

/-- The letterbox of a queue that is disabled or closing is dead (R73). -/
theorem doorbell_of_dead {s : State} {q : Nat} (h : (s.pigeon q).en = false ∨ (s.pigeon q).closing = true) (v : Nat) :
    s.doorbell q v = s.raise Reg.SORT_STAT.LBDEAD :=
  if_pos (by simpa using h)

/-- A tail that leaves at most 2^K descriptors is taken (R71). -/
theorem doorbell_of_fits {s : State} {q v : Nat} (he : (s.pigeon q).en = true) (hc : (s.pigeon q).closing = false)
    (hv : (v + 2 ^ 32 - (s.pigeon q).head) % 2 ^ 32 ≤ 2 ^ (s.pigeon q).k) :
    s.doorbell q v = (s.onPigeon q fun p => { p with tail := v }).settle s := by
  simp only [doorbell, he, hc, hv, Bool.not_true, Bool.or_self, Bool.false_eq_true, if_false, if_true]

/-- The record of a doorbell that overruns its ring; no descriptor is counted with it (R71). -/
def overrunRecord (s : State) (q : Nat) : CRecord :=
  { postmark := 0, seq := (s.pigeon q).nextSeq, queue := q, status := 0x19, counted := false }

/-- A tail that would leave more than 2^K descriptors stops the queue (R71). -/
theorem doorbell_of_overrun {s : State} {q v : Nat} (he : (s.pigeon q).en = true) (hc : (s.pigeon q).closing = false)
    (hv : 2 ^ (s.pigeon q).k < (v + 2 ^ 32 - (s.pigeon q).head) % 2 ^ 32) :
    s.doorbell q v = ((s.stopQueue q 0x19).formRecord q (s.overrunRecord q)).settle s := by
  simp only [doorbell, overrunRecord, he, hc, Nat.not_le.2 hv, Bool.not_true, Bool.or_self, Bool.false_eq_true, if_false]

end State

/-! ## The statement -/

/-- Settles O11, one case of `doorbell` a clause. -/
theorem doorbells : Obligations.Doorbells := by
  refine ⟨fun s r q v ha hp hb hdead => ⟨_, State.exec_doorbell ha hp hb q v, ?_⟩,
    fun s r q v ha hp hb hen hcl => ⟨fun hfit => ⟨_, State.exec_doorbell ha hp hb q v, ?_⟩,
      fun hover hrun => ⟨_, State.exec_doorbell ha hp hb q v, ?_⟩⟩⟩
  · rw [State.doorbell_of_dead hdead]
    exact ⟨State.flag_raise_self s rfl, rfl, State.fieldsBut_set s _ 1⟩
  · rw [State.doorbell_of_fits hen hcl hfit]
    refine ⟨?_, fun p hne => ?_, (State.pigeonsOnly_onPigeon ..).trans (State.pigeonsOnly_settle ..)⟩
    · rw [State.pigeon_settle, State.pigeon_onPigeon_self]
    · rw [State.pigeon_settle_of_ready_eq (State.ready_onPigeon_ne hne rfl rfl), State.pigeon_onPigeon, if_neg hne]
  · rw [State.doorbell_of_overrun hen hcl hover]
    have settled := State.pigeonsOnly_settle ((s.stopQueue q 0x19).formRecord q (s.overrunRecord q)) s
    obtain ⟨n, hp⟩ := State.pigeon_settle_stop s s q 0x19 (s.overrunRecord q)
    exact ⟨by rw [hp], by rw [hp], by rw [hp], by rw [hp],
      (settled.flag _).trans (State.flag_stopQueue s q 0x19),
      (congrArg Src.pend (settled.source 71)).trans (State.pend_stopQueue hrun q 0x19),
      _, State.waiting_settle_stop s s q 0x19 (s.overrunRecord q), rfl, rfl, rfl, rfl⟩

end Sys2Proof.Machine
